-- ==== Sys2Proof/Word.lean ====
section
/-! DEFINITION. The word types of the FQ9256 (spec 00, R2 and R3) and their plainest arithmetic. -/

namespace Sys2Proof

/-- One byte. -/
abbrev Byte := BitVec 8

/-- A register word: pages are read and written 32 bits at a time (R6). -/
abbrev Word := BitVec 32

/-- A 64-bit word: TIME64 (R70), byte addresses and 64-bit registers (R7). -/
abbrev Word64 := BitVec 64

/-- A core accumulator, 80 bits (R409). -/
abbrev Acc := BitVec 80

end Sys2Proof
end

