-- ==== Sys2Proof/Syntax.lean ====
section
/-! DEFINITION. The commands of the FQ9256 block: one constructor for each row of the table of operations and events
(spec/opcode_table.json), with the operands that its rule names. An operand is what the outside presents: an address,
a value, an instance number, or what an analogue part, a drive, a sink or the host answers. -/

namespace Sys2Proof

/-- Who makes a register access (R7, R439, R520). Each requester has a read latch and a held word of its own. -/
inductive Requester where
  | host
  | mgt
  | jdl
  | core (n : Fin 20)
  deriving DecidableEq, Repr

/-- An input of the module, RF IN A-D (R14). -/
abbrev Input := Fin 4
/-- A course A-D (0-3) or P (4). -/
abbrev Course := Fin 5
/-- A brick cluster. -/
abbrev Cluster := Fin 16
/-- A logical brick. -/
abbrev Brick := Fin 256
/-- An island number (R14). -/
abbrev Island := Fin 60
/-- A logical measurement core (R395). -/
abbrev CoreNo := Fin 20
/-- A core register named by a four-bit field: d0-d15 (R423). -/
abbrev DReg := Fin 16

/-- One interleaved slice output x(n), in LSB, and whether its slice saturated (R94, R97). -/
structure RawSample where
  code : Int
  sat  : Bool
  deriving DecidableEq, Repr

/-- The trims of one slice, in trim LSBs (R125). -/
structure Trim where
  ofs  : Int
  gain : Int
  skew : Int
  deriving DecidableEq, Repr

/-- What the ECC check of an HBM or core memory word finds in nature (R32, R399). -/
inductive Ecc where
  | clean
  | single
  | double
  deriving DecidableEq, Repr

/-- A core that issues an instruction, with what ECC finds in the word fetched, and in the stack words that a completing RTI
reloads (R399, R431). -/
structure Issue where
  core  : CoreNo
  fetch : Ecc
  stack : Ecc
  deriving DecidableEq, Repr

/-- What a step of a foreground calibration finds (R142, R143): the solved trims of SLICES, the taps of EQUALISER
and the readings of RESIDUAL. -/
structure CalResult where
  trims      : List Trim
  taps       : List Int
  offset64   : Int
  gainErr    : Int
  spur       : Int
  deriving DecidableEq, Repr

/-- What has just ended in a calibration store (R152): the erase with the programming of OPEN, the body, the header, the
read-back, with whether it brought back what was programmed; or a flash error at any point. -/
inductive StoreEnd where
  | erased
  | body
  | header
  | readBack (clean : Bool)
  | flashError
  deriving DecidableEq, Repr

/-- What a drive answers at admission (R362-R364, R367): `super0` and `super1` are the blocks at LBA 0 and 1. -/
structure DriveInfo where
  rdyInTime  : Bool
  mpsMin     : Nat
  identifyOk : Bool
  nsCount    : Nat
  lba4k      : Bool
  nsze       : Nat
  xferKiB    : Nat
  queues     : Nat
  hasVwc     : Bool
  hasDsm     : Bool
  serial     : List Byte
  model      : List Byte
  nguid      : List Byte
  eui64      : List Byte
  pctUsed    : Nat
  crit       : Nat
  temp       : Nat
  super0     : List Byte
  super1     : List Byte
  deriving DecidableEq, Repr

/-- What the drives answer to the reads of a MOUNT (R380): the entries of the extent table, as blocks of 64 bytes, and for
each entry that is OPEN the frames that lie past its USED, each as its bytes. -/
structure MountRead where
  table : List (List Byte)
  found : List (Nat × List (List Byte))
  deriving DecidableEq, Repr

/-- A submission descriptor read from host memory (R482). -/
structure Descriptor where
  hostAddr : Nat
  length   : Nat
  region   : Nat
  irq      : Bool
  hbmOfs   : Nat
  tag      : Nat
  deriving DecidableEq, Repr

/-- A read of BAR0: `bytes` bytes at offset `off` (R6). -/
structure BarRead where
  off   : Nat
  bytes : Nat
  deriving DecidableEq, Repr

/-- An address register of FTAP, with what ECC finds in the word read through it (R425, R431). -/
structure Tap where
  reg : Fin 8
  ecc : Ecc
  deriving DecidableEq, Repr

/-- A request of a unit of island `src` to the HBM: region, offset, and the bytes of a write (R34). -/
structure HbmReq where
  src    : Island
  region : Fin 64
  ofs    : Nat
  len    : Nat
  write  : Option (List Byte)
  deriving DecidableEq, Repr

/-- An addressing operand of format M (R423): mode AM, set I and byte offset OFS. -/
structure MemOp where
  am  : Fin 4
  set : Fin 8
  ofs : Int
  deriving DecidableEq, Repr

/-- The amount of a SHIFT: an immediate or the low five bits of rt (R424). -/
inductive Amount where
  | imm (n : Fin 32)
  | reg (rt : DReg)
  deriving DecidableEq, Repr

/-- Which function reset arrives (R497). -/
inductive ResetKind where
  | flr
  | hotReset
  | linkDown
  deriving DecidableEq, Repr

/-- What the debug hardware of a core sees when a halt falls due (R522). -/
inductive HaltCause where
  | halt
  | step
  | ibp (index : Fin 4)
  | wp (index : Fin 2)
  | bkpt
  | cross
  deriving DecidableEq, Repr

/-- A register access frame at the management port: whether its PEC or CRC is right (R441, R442). -/
abbrev FrameOk := Bool

/-- The commands. -/
inductive Instr where
  /-- R4: a write of `bytes` bytes at BAR0 offset `off`. -/
  | registerWrite (r : Requester) (off bytes : Nat) (v : Word)
  /-- R6, R7: a read of the low word of a 64-bit register or of any other word. -/
  | reg64LowRead (r : Requester) (a : BarRead)
  /-- R6, R7: a read of the high word of a 64-bit register. -/
  | reg64HighRead (r : Requester) (a : BarRead)
  /-- R8: a write of the high word. -/
  | reg64HighWrite (r : Requester) (off : Nat) (v : Word)
  /-- R8: a write of the low word. -/
  | reg64LowWrite (r : Requester) (off : Nat) (v : Word)
  /-- R25: a write of COMMIT with GO set and GROUP as given, to page index `page`. -/
  | commitGo (r : Requester) (page : Nat) (group : Fin 16)
  /-- R28: the commit point of a page. -/
  | commitApplied (page : Nat)
  /-- R30: a write of SYS_GROUP_COMMIT. -/
  | sysGroupCommit (r : Requester) (group : Fin 16)
  /-- R547. -/
  | softReset (r : Requester) (page : Nat)
  /-- R24. -/
  | irqForce (r : Requester) (page : Nat) (bits : Word)
  /-- R24. -/
  | irqStatusClear (r : Requester) (page : Nat) (bits : Word)
  /-- R124 and the like: CTRL.CNT_CLR of a page. -/
  | cntClr (r : Requester) (page : Nat)
  /-- R16: the next message of the pair reaches its entry joint, `corrupt` when nature damaged it. -/
  | mortarMessage (src dst : Island) (corrupt : Bool)
  /-- R40: a new budget period at the enforcement point of resource `res`. -/
  | budgetPeriodStart (res : Fin 78)
  /-- R42: BUD_CTRL.PEAK_CLR. -/
  | peakClr (r : Requester)
  /-- R35. -/
  | regionMapApply
  /-- R34: the request, the activity charged, and what nature does to the 32-byte units read. -/
  | hbmAccess (q : HbmReq) (act : Fin 64) (ecc : Ecc)
  /-- R50. -/
  | hbmRepairSwitch (stack : Fin 4) (channel : Fin 32)
  /-- R51. -/
  | pseudoChannelRetire (stack : Fin 4) (channel : Fin 32)
  /-- R52: `ok` when the flash write succeeds. -/
  | ledgerAppend (ok : Bool)
  /-- R56. -/
  | refinAbsent (onset : Word64)
  /-- R56. -/
  | refinPresent
  /-- R56: the measurement of the window, in 0.1 ppm. -/
  | refinRangeWindow (offset : Int) (onset : Word64)
  /-- R59: with the phase error and the tuning word at the declaration. -/
  | loopLock (l : Fin 10) (phase : Int) (word : Word)
  /-- R60: with the phase error, the loss onset and the mean tuning word of R62. -/
  | loopLoss (l : Fin 10) (phase : Int) (onset : Word64) (meanWord : Word)
  /-- R65. -/
  | pullIn (l : Fin 10)
  /-- R69. -/
  | loopStateNotice (island : Island)
  /-- R72. -/
  | time64Start
  /-- R73: `drift` is how far the island's local copy ran from the count since the last mark, in ticks. -/
  | timeMark (island : Island) (drift : Int)
  /-- R74. -/
  | time64Wrap
  /-- R80, at course island 24 + c. -/
  | alignArmed (c : Input)
  /-- R80: the completion of course island 24 + c returns. -/
  | alignArmedCompletion (c : Input)
  /-- R80. -/
  | alignReleased (c : Input)
  /-- R76. -/
  | alignOutPulse
  /-- R77: a REFIN edge at which ALIGN_IN is sampled. -/
  | alignEvent
  /-- R78. -/
  | time64Load
  /-- R85. -/
  | clkoutChange (k : Fin 4)
  /-- R89. -/
  | limiterEngage (x : Input)
  /-- R89. -/
  | limiterRelease (x : Input)
  /-- R90: the power measured, signed Q8.8 dBm. -/
  | pwrDetUpdate (x : Input) (power : Int)
  /-- R108: at converter island 0-3 (0-3) or course island 24-27 (4-7). -/
  | startTickMessage (dst : Fin 8)
  /-- R109. -/
  | converterStart (x : Input)
  /-- R110. -/
  | converterStop (x : Input)
  /-- R110: a write of CTRL.ENABLE. -/
  | cnvEnableWrite (r : Requester) (x : Input) (enable : Bool)
  /-- R122: the slice outputs x(n0 - 32) to x(n0 + 1023 + 62): what the correction of the message needs, and what shows whether a
  later sample taints it (R102). -/
  | sampleMessage (x : Input) (raw : List RawSample)
  /-- R113. -/
  | scanEntryStart (x : Input)
  /-- R115. -/
  | entryMark (x : Input)
  /-- R117. -/
  | injectGo (r : Requester) (x : Input)
  /-- R117. -/
  | injectionRequest (x : Input)
  /-- R118. -/
  | injectedEntryStart (x : Input)
  /-- R119. -/
  | injectedEntryEnd (x : Input)
  /-- R131: the new trims of the incoming slice, and whether one reached its range limit (R132). -/
  | rotationStep (x : Input) (trim : Trim) (rangeLimit : Bool)
  /-- R133: the three differences, skew only when estimated. -/
  | shadowMatch (x : Input) (ofs gain : Int) (skew : Option Int)
  /-- R134: at the channeliser island (false) or the course island (true). -/
  | swapMark (x : Input) (course : Bool)
  /-- R137. -/
  | sliceSubstitution (x : Input)
  /-- R138. -/
  | calFgGo (r : Requester) (inputs : BitVec 4)
  /-- R139. -/
  | precheckStart (x : Input)
  /-- R140. -/
  | precheckTimeout (x : Input)
  /-- R141. -/
  | calPause (x : Input)
  /-- R142. -/
  | calStepDone (x : Input) (res : CalResult)
  /-- R144: `full` when FULL_MS, not the step's own timeout, expires. -/
  | calTimeout (x : Input) (full : Bool)
  /-- R147. -/
  | calStoreRequest (x : Input)
  /-- R152. -/
  | calStoreVerify (x : Input) (e : StoreEnd)
  /-- R145. -/
  | calResume (x : Input)
  /-- R276: at a course or density island. -/
  | genNotice (x : Input) (dst : Island)
  /-- R162. -/
  | wteSpectrum (x : Input)
  /-- R184. -/
  | subbandMessage (x : Input) (c : Cluster) (k : Fin 64)
  /-- R187. -/
  | subscribe (c : Cluster) (x : Input)
  /-- R187. -/
  | unsubscribe (c : Cluster) (x : Input)
  /-- R210: from cluster c at course island 24 + d. -/
  | roleChange (c : Cluster) (d : Input)
  /-- R208: from course island 24 + d at cluster c. -/
  | emitStart (d : Input) (c : Cluster)
  /-- R208. -/
  | emitStop (d : Input) (c : Cluster)
  /-- R210. -/
  | staleRole (c : Cluster) (d : Input)
  /-- R219. -/
  | spareWarm (c : Cluster) (e : Word64)
  /-- R220. -/
  | switchReq (c : Cluster) (d : Input)
  /-- R221. -/
  | switchGrant (d : Input) (c : Cluster)
  /-- R202. -/
  | brickSpectrum (n : Brick)
  /-- R203: the stamps of the slots filled, and which of them are tainted. -/
  | brickIqMessage (n : Brick)
  /-- R203. -/
  | iqMessageTimeout (n : Brick)
  /-- R217. -/
  | replayData (c : Cluster)
  /-- R218. -/
  | replayCredit (c : Cluster)
  /-- R215. -/
  | courseStart (d : Course)
  /-- R216. -/
  | courseStop (d : Course)
  /-- R231: a comparator transition to `level`, at the present tick with fraction `frac` (R232). -/
  | evtEdge (i : Fin 8) (level : Bool) (frac : Byte)
  /-- R229. -/
  | holdoffEnd (i : Fin 2) (level : Bool)
  /-- R240. -/
  | eventNotice (i : Fin 8)
  /-- R233. -/
  | cdRebuild (r : Requester)
  /-- R233. -/
  | cdBuildDone (ok : Bool)
  /-- R235. -/
  | iuDecision (u : Fin 4)
  /-- R236. -/
  | swgateOpen (r : Requester)
  /-- R236. -/
  | swgateClose (r : Requester)
  /-- R236. -/
  | swgateExpire (u : Fin 4)
  /-- R237. -/
  | iuTimeout (u : Fin 4)
  /-- R239. -/
  | evtResPop (r : Requester)
  /-- R285: the next message of the pair from island `src` is taken as an item by course d. -/
  | courseItemArrival (d : Course) (src : Island)
  /-- R245. -/
  | slotEvaluation (d : Course)
  /-- R265. -/
  | trgTimeout (d : Course)
  /-- R267. -/
  | trgHoldEnd (d : Course)
  /-- R258. -/
  | trgSwtrig (r : Requester) (d : Course) (conds : BitVec 16)
  /-- R269. -/
  | injectionCompletion (x : Input)
  /-- R274. -/
  | trgLogPop (r : Requester) (d : Course)
  /-- R255. -/
  | maskCopyDone (d : Course)
  /-- R288. -/
  | recordCloseWrite (cap : Fin 32)
  /-- R288. -/
  | recordDone (cap : Fin 32)
  /-- R289. -/
  | acqCapReadWrite (r : Requester) (v : BitVec 20)
  /-- R302. -/
  | replaySegment
  /-- R309. -/
  | denSpectrum (e : Fin 8) (src : Island)
  /-- R310. -/
  | tileFrameClose (e : Fin 8)
  /-- R311. -/
  | foldDone (e : Fin 8)
  /-- R316. -/
  | published (e : Fin 8)
  /-- R318. -/
  | lock (e : Fin 8)
  /-- R312. -/
  | denClear (r : Requester) (e : Fin 8)
  /-- R319. -/
  | densityEngineSwitch (e : Fin 8)
  /-- R326. -/
  | vblankStart
  /-- R329. -/
  | adaptiveExtend
  /-- R328. -/
  | underrun (line : Fin 8192)
  /-- R330. -/
  | hpdChange (connected : Bool) (edid : List Byte) (adaptive : Bool)
  /-- R330. -/
  | irqHpd
  /-- R331: the rate code (0-3) and lane count (0 when no link trains). -/
  | linkTraining (rate : Fin 4) (lanes : Fin 5)
  /-- R337. -/
  | compressionJob (lane : Fin 32)
  /-- R346. -/
  | laneResume (lane : Fin 32)
  /-- R339: `laneFault` when a fault was detected within the job (R350). -/
  | jobCompletion (lane : Fin 32) (laneFault : Bool)
  /-- R359. -/
  | cmpSwSubmit (r : Requester) (lane : Fin 32)
  /-- R359. -/
  | cmpResPop (r : Requester)
  /-- R351. -/
  | laneSwitched (lane : Fin 32)
  /-- R353. -/
  | decompressionJob (lane : Fin 8)
  /-- R357. -/
  | dcmResume (lane : Fin 8)
  /-- R355. -/
  | decompressionCompletion (lane : Fin 8)
  /-- R360. -/
  | dcmSwSubmit (r : Requester) (lane : Fin 8)
  /-- R360. -/
  | dcmResPop (r : Requester)
  /-- R362: PRSNT_N and, when the link is up, its speed code and width. -/
  | presentChange (n : Fin 8) (present : Bool) (link : Option (Fin 6 × Fin 5))
  /-- R364. -/
  | driveAdmission (n : Fin 8) (d : DriveInfo)
  /-- R366: the status code type and status code, zero for success. -/
  | nvmeCommandCompletion (n : Fin 8) (opcode : Byte) (sct : Fin 8) (sc : Byte)
  /-- R365. -/
  | nvmeCommandTimeout (n : Fin 8) (opcode : Byte)
  /-- R368. -/
  | healthPoll (n : Fin 8) (pct : Byte) (crit : Byte) (temp : BitVec 16)
  /-- R369: a write of NVP_RETIRE.REQ. -/
  | nvpRetire (r : Requester) (n : Fin 8)
  /-- R380: the extent table read, with OPEN extents already read forward (USED and FRAMES as accepted). -/
  | mount (r : Requester) (read : MountRead)
  /-- R393. -/
  | unmount (r : Requester)
  /-- R381. -/
  | format (r : Requester)
  /-- R372. -/
  | adopt (r : Requester) (port : Fin 16)
  /-- R383: a RECORD_READY notice from course island 24 + d. -/
  | recordReady (d : Input)
  /-- R384: the next chunk of the stream. -/
  | chunkAssign (stream : Fin 16)
  /-- R377. -/
  | framePlacement (n : Fin 8)
  /-- R386. -/
  | frameDone (n : Fin 8)
  /-- R387. -/
  | frameFailed (n : Fin 8)
  /-- R379. -/
  | checkpoint
  /-- R388. -/
  | streamClosed (stream : Fin 16)
  /-- R392: what stands where the extent table puts the next frame: its header (none where no frame with its SEQ was found), its
  payload, what follows the payload, and whether the read succeeded. -/
  | readbackFrame (head : Option (List Byte)) (payload tail : List Byte) (ioOk : Bool)
  /-- R392. -/
  | rbDone
  /-- R424 NOP. -/
  | nop (c : Issue)
  /-- R424 ADD. -/
  | add (c : Issue) (rd rs rt : DReg) (sat : Bool)
  /-- R424 SUB. -/
  | sub (c : Issue) (rd rs rt : DReg) (sat : Bool)
  /-- R424 ADDI. -/
  | addi (c : Issue) (rd rs : DReg) (imm : BitVec 17) (sat : Bool)
  /-- R424 AND. -/
  | and (c : Issue) (rd rs rt : DReg)
  /-- R424 OR. -/
  | or (c : Issue) (rd rs rt : DReg)
  /-- R424 XOR. -/
  | xor (c : Issue) (rd rs rt : DReg)
  /-- R424 SHIFT kind 0. -/
  | lsl (c : Issue) (rd rs : DReg) (n : Amount) (sat : Bool)
  /-- R424 SHIFT kind 1. -/
  | lsr (c : Issue) (rd rs : DReg) (n : Amount)
  /-- R424 SHIFT kind 2. -/
  | asr (c : Issue) (rd rs : DReg) (n : Amount)
  /-- R424 ABS. -/
  | abs (c : Issue) (rd rs : DReg) (sat : Bool)
  /-- R424 NEG. -/
  | neg (c : Issue) (rd rs : DReg) (sat : Bool)
  /-- R424 MIN. -/
  | min (c : Issue) (rd rs rt : DReg)
  /-- R424 MAX. -/
  | max (c : Issue) (rd rs rt : DReg)
  /-- R424 MULL. -/
  | mull (c : Issue) (rd rs rt : DReg)
  /-- R417 MULF. -/
  | mulf (c : Issue) (rd rs rt : DReg) (sat : Bool)
  /-- R418 CMP: RD is ignored, and an encoding may hold any. -/
  | cmp (c : Issue) (rd rs rt : DReg)
  /-- R424 LUI: RS and IMM[16] are not used. -/
  | lui (c : Issue) (rd : DReg) (imm : BitVec 16)
  /-- R424 ORI. -/
  | ori (c : Issue) (rd rs : DReg) (imm : BitVec 16)
  /-- R424 MOVX. -/
  | movx (c : Issue) (dst src : Fin 128)
  /-- R416 MAC. -/
  | mac (c : Issue) (acc : Fin 4) (rs rt : DReg) (sat : Bool)
  /-- R416 MSU. -/
  | msu (c : Issue) (acc : Fin 4) (rs rt : DReg) (sat : Bool)
  /-- R424 MPY; its S bit is ignored (R416). -/
  | mpy (c : Issue) (acc : Fin 4) (rs rt : DReg) (sat : Bool)
  /-- R416 ACCADD: acc + accB. -/
  | accadd (c : Issue) (acc accB : Fin 4) (sat : Bool)
  /-- R417 EXTR. -/
  | extr (c : Issue) (acc : Fin 4) (rd : DReg) (sh : Fin 64) (sat : Bool)
  /-- R424 MOVA with SUB[12] = 0. -/
  | movaRead (c : Issue) (acc : Fin 4) (rd : DReg) (part : Fin 4)
  /-- R424 MOVA with SUB[12] = 1. -/
  | movaWrite (c : Issue) (acc : Fin 4) (rs : DReg) (part : Fin 4)
  /-- R425 FTAP. -/
  | ftap (c : Issue) (acc : Fin 4) (i j : Tap) (ci cj z sat : Bool)
  /-- R426 EXP. -/
  | exp (c : Issue) (rd rs : DReg)
  /-- R424 NORM. -/
  | norm (c : Issue) (rd rs : DReg)
  /-- R424 BEXP with SUB[0] = 0. -/
  | bexpMin (c : Issue) (rs : DReg)
  /-- R424 BEXP with SUB[0] = 1. -/
  | bexpSet (c : Issue) (rs : DReg)
  /-- R411 LD.W; `ecc` is what nature did to the word (R399). -/
  | ldW (c : Issue) (d : DReg) (m : MemOp) (ecc : Ecc)
  /-- R424 LD.H. -/
  | ldH (c : Issue) (d : DReg) (m : MemOp) (ecc : Ecc)
  /-- R424 LD.HU. -/
  | ldHu (c : Issue) (d : DReg) (m : MemOp) (ecc : Ecc)
  /-- R424 ST.W. -/
  | stW (c : Issue) (d : DReg) (m : MemOp)
  /-- R424 ST.H. -/
  | stH (c : Issue) (d : DReg) (m : MemOp)
  /-- R424 B, OFS a signed word offset. -/
  | b (c : Issue) (cond : Fin 16) (ofs : Int)
  /-- R424 CALL. -/
  | call (c : Issue) (ofs : Int)
  /-- R424 JR. -/
  | jr (c : Issue) (i : Fin 8)
  /-- R424 DBNZ. -/
  | dbnz (c : Issue) (d : DReg) (ofs : Int)
  /-- R430 RTI. -/
  | rti (c : Issue)
  /-- R424 WAIT. -/
  | wait (c : Issue)
  /-- R522 BKPT. -/
  | bkpt (c : Issue) (code : BitVec 16)
  /-- R430. -/
  | interruptLevel1 (c : CoreNo)
  /-- R431. -/
  | interruptLevel2 (c : CoreNo)
  /-- R402: the next message from island `src` at the core's group island becomes an inbox entry. -/
  | inboxEntry (c : CoreNo) (src : Cluster)
  /-- R403. -/
  | recordNotice (c : CoreNo) (d : Input)
  /-- R406: `ecc` is what nature did to the data moved. -/
  | dmaCompletion (c : CoreNo) (ecc : Ecc)
  /-- R428. -/
  | ioTimerMatch (c : CoreNo)
  /-- R428. -/
  | coreMboxIn (r : Requester) (c : CoreNo) (v : Word)
  /-- R434. -/
  | restart (r : Requester) (c : CoreNo)
  /-- R434. -/
  | resume (r : Requester) (c : CoreNo)
  /-- R434. -/
  | halt (r : Requester) (c : CoreNo)
  /-- R522. -/
  | dbgHalt (r : Requester)
  /-- R523. -/
  | dbgStep (r : Requester)
  /-- R522. -/
  | dbgResume (r : Requester)
  /-- R524. -/
  | dbgXhResume (r : Requester) (g : Fin 4)
  /-- R513. -/
  | pwrOffReq (r : Requester)
  /-- R513. -/
  | pwrOffWake (r : Requester)
  /-- R516. -/
  | pwrSnap (r : Requester)
  /-- R496. -/
  | featuresOk (r : Requester)
  /-- R476. -/
  | sysIrqRoute (r : Requester) (v : BitVec 9)
  /-- R477. -/
  | sysVecEoi (r : Requester) (v : BitVec 9)
  /-- R481. -/
  | bar2Write (ofs : Nat) (data : List Byte)
  /-- R481. -/
  | bar2Read (ofs len : Nat)
  /-- R434. -/
  | coreHalted (c : CoreNo)
  /-- R435: `v` is the word of a write, none for a read. -/
  | coreMemData (r : Requester) (c : CoreNo) (v : Option Word)
  /-- R435. -/
  | bootGo (r : Requester) (c : CoreNo)
  /-- R435: `ecc` is what nature did to the words copied. -/
  | bootDone (c : CoreNo) (ecc : Ecc)
  /-- R436. -/
  | coreSubstitution (c : CoreNo)
  /-- R451: the next fault report of island `src` reaches island 58. -/
  | faultEvent (src : Island)
  /-- R461. -/
  | safeStop (island : Island)
  /-- R453. -/
  | bucketLeak (src : Fin 1024)
  /-- R453: a write to THRESH (true) or WINDOW (false). -/
  | fltSrcConfig (r : Requester) (thresh : Bool) (v : Word)
  /-- R456. -/
  | fltRecClr (r : Requester)
  /-- R456. -/
  | fltClrAll (r : Requester)
  /-- R463. -/
  | fltLogPop (r : Requester)
  /-- R467. -/
  | fltLegStatusClear (r : Requester) (bits : BitVec 3)
  /-- R462. -/
  | safeRelease (r : Requester)
  /-- R450. -/
  | thermalShutdown
  /-- R450. -/
  | thermalRestart (r : Requester)
  /-- R449: VIN in 10 mV, power in 0.1 W, and the eight die temperatures in signed Q8.8. -/
  | monitorUpdate (volts power : BitVec 16) (temps : List Int)
  /-- R506. -/
  | powerFailWarning
  /-- R507. -/
  | restartAfterPfw
  /-- R441. -/
  | mgtRegisterWrite (off : Nat) (v : Word) (ok : FrameOk)
  /-- R441: `late` when the access has not completed when its data is due (R442). -/
  | mgtRegisterRead (off : Nat) (ok : FrameOk) (late : Bool)
  /-- R443. -/
  | mgtAlertClear (r : Requester) (bits : BitVec 5)
  /-- R444. -/
  | mgtReqGo (r : Requester)
  /-- R445. -/
  | mgtResp (r : Requester) (state : Fin 8) (reason : Byte)
  /-- R445. -/
  | mailboxTimeout
  /-- R446. -/
  | mgtSubstGo (r : Requester) (kind : Byte) (logical : BitVec 16)
  /-- R447. -/
  | safWall (r : Requester) (v : Word)
  /-- R464. -/
  | safInjCount (r : Requester) (n : BitVec 16)
  /-- R473: a configuration read (none) or write of the word at `reg`. -/
  | configRequest (reg : Fin 1024) (v : Option Word)
  /-- R504. -/
  | pcieConfigLoad
  /-- R504. -/
  | perstNAssert
  /-- R498. -/
  | functionReset (k : ResetKind)
  /-- R491. -/
  | sqTailDoorbell (q : Fin 64) (v : BitVec 16)
  /-- R491. -/
  | cqHeadDoorbell (q : Fin 64) (v : BitVec 16)
  /-- R485: the 32 bytes read from host memory, none when the read fails (R486). -/
  | descriptorFetch (q : Fin 64) (d : Option (List Byte))
  /-- R485: the host bytes read by COPY_H2D, and how many bytes moved before a host error (none: no error). -/
  | completionWrite (q : Fin 64) (hostData : List Byte) (hostError : Option Nat)
  /-- R490. -/
  | queueIrqTimeout (q : Fin 64)
  /-- R487. -/
  | streamRxFlush (q : Fin 64)
  /-- R493. -/
  | busMasterEnable (on : Bool)
  /-- R501. -/
  | vinApply
  /-- R501. -/
  | startupStepEnd
  /-- R503. -/
  | startupLimit
  /-- R502. -/
  | refWaitExpiry
  /-- R508. -/
  | moveComplete
  /-- R517. -/
  | testLogicReset
  /-- R518. -/
  | jdlNop
  /-- R518. -/
  | jdlRead (space : Fin 16) (addr : BitVec 40)
  /-- R518. -/
  | jdlWrite (space : Fin 16) (addr : BitVec 40) (data : Word)
  /-- R518. -/
  | jdlCapture
  /-- R519. -/
  | jdlCompletion
  /-- R519. -/
  | jdlTimeout
  /-- R522. -/
  | debugHalt (c : CoreNo) (cause : HaltCause)
  /-- R524. -/
  | crossHalt (c : CoreNo)
  /-- R220. -/
  | switchTimeout (n : Brick)
  /-- R218. -/
  | replayPace
  /-- R507. -/
  | vinRemoval
  /-- R471: link up, lanes trained, lanes in use after L0p, speed code and FLIT mode. -/
  | linkChange (up : Bool) (trained inUse : Fin 32) (speed : Fin 8) (flit : Bool)
  /-- R478: word w (0-3) of the table entry of a vector. -/
  | msixTableWrite (vector : Fin 512) (w : Fin 4) (v : Word)
  /-- R487: the next stream frame at island 36 from island `src`. -/
  | streamRxFrame (src : Island)
  /-- R517. -/
  | updateIr (code : Byte)
  deriving DecidableEq, Repr

end Sys2Proof
end

