-- ==== Sys2Proof/Decode.lean ====
section
/-! DEFINITION. Words of the opcode table: no row of this block's table gives bits, so no word spells a command. -/

namespace Sys2Proof

def decodeTableWord (_nbits _w : Nat) : Option Instr := none

end Sys2Proof
end

