-- ==== Sys2Proof/Config.lean ====
section
/-! DEFINITION. What an implementation fixes and what the spec leaves open: free values are constants with no body,
so nothing in Lean can compute them and every claim holds whatever they are. -/

namespace Sys2Proof.Config

/-- The free values: the n-th value that the spec does not determine (a transformed sample, a measured energy, ...).
The meaning that needs one applies it to the counter State.fresh and advances the counter (log entry 3). -/
opaque free : Nat → Nat

/-- Tap t of the factory frequency-response table of input x at attenuation state a, in Q2.16 (R128: the manual
gives no values; log entry 4). -/
opaque factoryTap : Nat → Nat → Nat → Int

/-- The factory temperature coefficient of the NTO of loop l, in 0.01 ppb per °C (R64: in flash, no value given; log
entry 9). -/
opaque ntoCoefficient : Nat → Int

/-- The prototype of the channeliser (R181): the tap at a distance from the stamp, in 2^-30. The spec gives its response and its
support, not its taps; with these R181 and the gain of R182 hold on the part (log entry 115). -/
opaque prototype : Nat → Int

/-- Tap t of the half-band filter of stage k of a brick, and tap t of its resampler at the fraction a ÷ b between two chain
samples, in 2^-30 (R192, R196, R197: responses and supports are given, taps are not; log entry 115). -/
opaque halfBand : Nat → Nat → Int
opaque resampler : Nat → Nat → Nat → Int

/-- The serial number in flash (R499; log entry 7). -/
opaque serial : Nat

/-- The straps of the management port: MSEL, and MADDR as a number 0-3 (R440; log entry 10). -/
opaque msel : Bool
opaque maddr : Nat

end Sys2Proof.Config
end

