-- ==== Sys2Proof/Machine/RegDefs.lean ====
section
/-! DEFINITION. The register fields, one definition each, named as the spec names them: register, then field. The
offset, the bits and the reset value are those of the register tables of spec/01 to spec/16 (a reset the tables do not
state as a number is named where the field is read: log entries 4, 7, 8, 9 and 10). -/

namespace Sys2Proof.Machine

/-- A register field: its page offset, its bits and its reset value. -/
structure Fld where
  off   : Nat
  hi    : Nat
  lo    : Nat
  reset : Nat
  deriving DecidableEq, Repr

/-- The access codes of R4. -/
inductive Code where
  | rw
  | ro
  | w1c
  | w1s
  | wo
  | rws
  | rm
  deriving DecidableEq, Repr

/-- A field of a page's table: the field, its access code, and whether its write is a command of its own. -/
structure Row where
  fld  : Fld
  code : Code
  own  : Bool
  deriving DecidableEq, Repr

/-! The common header (spec 01). -/

def CTRL.SOFT_RESET : Fld := ⟨0x008, 2, 2, 0⟩
def CTRL.LIVE_VIEW : Fld := ⟨0x008, 1, 1, 0⟩
def CTRL.ENABLE : Fld := ⟨0x008, 0, 0, 0⟩
def STATUS.FAULT : Fld := ⟨0x00c, 3, 3, 0⟩
def STATUS.SPARE_IN_USE : Fld := ⟨0x00c, 2, 2, 0⟩
def STATUS.BUSY : Fld := ⟨0x00c, 1, 1, 0⟩
def COMMIT.GROUP : Fld := ⟨0x020, 11, 8, 0⟩
def COMMIT.GO : Fld := ⟨0x020, 0, 0, 0⟩
def COMMIT_STATUS.APPLY_COUNT : Fld := ⟨0x024, 31, 16, 0⟩
def COMMIT_STATUS.CODE : Fld := ⟨0x024, 15, 8, 0⟩
def COMMIT_STATUS.SUPERSEDED : Fld := ⟨0x024, 2, 2, 0⟩
def COMMIT_STATUS.STATE : Fld := ⟨0x024, 1, 0, 0⟩
def ERR_INFO.AUX : Fld := ⟨0x028, 31, 24, 0⟩
def ERR_INFO.REASON : Fld := ⟨0x028, 23, 16, 0⟩
def ERR_INFO.OFFSET : Fld := ⟨0x028, 11, 0, 0⟩
def ACTIVITY_ID.ACTIVITY : Fld := ⟨0x02c, 5, 0, 0⟩

/-! SYS -/

def SYS_STATUS.READY : Fld := ⟨0x00c, 16, 16, 0⟩
def SYS_STATUS.FEATURES_OK : Fld := ⟨0x00c, 17, 17, 0⟩
def SYS_STATUS.SAFE_STOPPED : Fld := ⟨0x00c, 18, 18, 0⟩

/-! PCIE -/

def PCIE_STATUS.LINK_UP : Fld := ⟨0x00c, 16, 16, 0⟩
def PCIE_STATUS.FLIT : Fld := ⟨0x00c, 17, 17, 0⟩
def PCIE_STATUS.L0P_REDUCED : Fld := ⟨0x00c, 18, 18, 0⟩

/-! CLK -/

def CLK_STATUS.REF_VALID : Fld := ⟨0x00c, 16, 16, 0⟩
def CLK_STATUS.ALL_LOCKED : Fld := ⟨0x00c, 17, 17, 0⟩
def CLK_STATUS.ANY_HOLDOVER : Fld := ⟨0x00c, 18, 18, 0⟩

/-! CAL -/

def CAL_STATUS.FG_ACTIVE : Fld := ⟨0x00c, 19, 16, 0⟩
def CAL_STATUS.BG_RUNNING : Fld := ⟨0x00c, 23, 20, 0⟩

/-! EVT -/

def EVT_CTRL.CNT_CLR : Fld := ⟨0x008, 16, 16, 0⟩
def EVT_STATUS.IU_ACTIVE : Fld := ⟨0x00c, 19, 16, 0⟩
def EVT_STATUS.CD_VALID : Fld := ⟨0x00c, 20, 20, 0⟩
def EVT_STATUS.CD_BUILDING : Fld := ⟨0x00c, 21, 21, 0⟩

/-! BUD -/

def BUD_CTRL.ENFORCE : Fld := ⟨0x008, 16, 16, 0⟩
def BUD_CTRL.PEAK_CLR : Fld := ⟨0x008, 17, 17, 0⟩
def BUD_STATUS.ENFORCING : Fld := ⟨0x00c, 16, 16, 0⟩
def BUD_STATUS.OVERCOMMIT : Fld := ⟨0x00c, 17, 17, 0⟩

/-! FLT -/

def FLT_STATUS.ANY_LATCHED : Fld := ⟨0x00c, 16, 16, 0⟩
def FLT_STATUS.FAULT_N : Fld := ⟨0x00c, 17, 17, 0⟩
def FLT_STATUS.SAFE_STOPPED : Fld := ⟨0x00c, 18, 18, 0⟩

/-! SAF -/

def SAF_CTRL.SAFE_RELEASE : Fld := ⟨0x008, 16, 16, 0⟩
def SAF_CTRL.THERMAL_RESTART : Fld := ⟨0x008, 17, 17, 0⟩
def SAF_STATUS.WALL_SET : Fld := ⟨0x00c, 16, 16, 0⟩
def SAF_STATUS.PFW : Fld := ⟨0x00c, 17, 17, 0⟩
def SAF_STATUS.THERM : Fld := ⟨0x00c, 18, 18, 0⟩
def SAF_STATUS.THERMAL_SHUTDOWN : Fld := ⟨0x00c, 19, 19, 0⟩
def SAF_STATUS.SAFE_STOPPED : Fld := ⟨0x00c, 20, 20, 0⟩
def SAF_STATUS.INJ_ARMED : Fld := ⟨0x00c, 21, 21, 0⟩

/-! PWR -/

def PWR_STATUS.READY : Fld := ⟨0x00c, 16, 16, 0⟩
def PWR_STATUS.PGOOD : Fld := ⟨0x00c, 17, 17, 0⟩

/-! DBG -/

def DBG_CTRL.HOST_DEBUG : Fld := ⟨0x008, 16, 16, 0⟩
def DBG_STATUS.TAP_ACTIVE : Fld := ⟨0x00c, 16, 16, 0⟩
def DBG_STATUS.ANY_DEBUG_HALTED : Fld := ⟨0x00c, 17, 17, 0⟩

/-! ACQ -/

def ACQ_CTRL.CNT_CLR : Fld := ⟨0x008, 16, 16, 0⟩
def ACQ_STATUS.ANY_ARMED : Fld := ⟨0x00c, 16, 16, 0⟩
def ACQ_STATUS.REPLAYING : Fld := ⟨0x00c, 17, 17, 0⟩

/-! CMP -/

def CMP_STATUS.ANY_BUSY : Fld := ⟨0x00c, 16, 16, 0⟩
def CMP_STATUS.ANY_FAILED : Fld := ⟨0x00c, 17, 17, 0⟩

/-! DCM -/

def DCM_STATUS.ANY_BUSY : Fld := ⟨0x00c, 16, 16, 0⟩
def DCM_STATUS.ANY_FAILED : Fld := ⟨0x00c, 17, 17, 0⟩

/-! STR -/

def STR_CTRL.CNT_CLR : Fld := ⟨0x008, 16, 16, 0⟩
def STR_STATUS.MOUNTED : Fld := ⟨0x00c, 16, 16, 0⟩
def STR_STATUS.DEGRADED : Fld := ⟨0x00c, 17, 17, 0⟩
def STR_STATUS.VOLUME_FULL : Fld := ⟨0x00c, 18, 18, 0⟩
def STR_STATUS.RB_BUSY : Fld := ⟨0x00c, 19, 19, 0⟩

/-! DISP -/

def DISP_STATUS.RASTER_RUN : Fld := ⟨0x00c, 16, 16, 0⟩
def DISP_STATUS.HPD : Fld := ⟨0x00c, 17, 17, 0⟩

/-! CNV -/

def CNV_CTRL.CNT_CLR : Fld := ⟨0x008, 16, 16, 0⟩
def CNV_STATUS.RUN_STATE : Fld := ⟨0x00c, 17, 16, 0⟩
def CNV_STATUS.LIMITER_ACTIVE : Fld := ⟨0x00c, 18, 18, 0⟩
def CNV_STATUS.INJECT_ACTIVE : Fld := ⟨0x00c, 19, 19, 0⟩
def CNV_STATUS.IN_SETTLE : Fld := ⟨0x00c, 20, 20, 0⟩

/-! CHN -/

def CHN_CTRL.CNT_CLR : Fld := ⟨0x008, 16, 16, 0⟩
def CHN_STATUS.DELIVERING : Fld := ⟨0x00c, 16, 16, 0⟩

/-! WTE -/

def WTE_CTRL.CNT_CLR : Fld := ⟨0x008, 16, 16, 0⟩
def WTE_STATUS.COMPUTING : Fld := ⟨0x00c, 16, 16, 0⟩
def WTE_STATUS.HOLDING : Fld := ⟨0x00c, 17, 17, 0⟩

/-! CRS -/

def CRS_STATUS.RUN_STATE : Fld := ⟨0x00c, 17, 16, 0⟩

/-! TRG -/

def TRG_CTRL.CNT_CLR : Fld := ⟨0x008, 16, 16, 0⟩
def TRG_STATUS.EVALUATING : Fld := ⟨0x00c, 16, 16, 0⟩
def TRG_STATUS.HOLDING : Fld := ⟨0x00c, 17, 17, 0⟩
def TRG_STATUS.MASK_COPYING : Fld := ⟨0x00c, 18, 18, 0⟩

/-! DEN -/

def DEN_CTRL.CNT_CLR : Fld := ⟨0x008, 16, 16, 0⟩
def DEN_CTRL.CLEAR : Fld := ⟨0x008, 17, 17, 0⟩
def DEN_STATUS.FOLDING : Fld := ⟨0x00c, 16, 16, 0⟩
def DEN_STATUS.PUBLISHING : Fld := ⟨0x00c, 17, 17, 0⟩
def DEN_STATUS.FORWARDED : Fld := ⟨0x00c, 18, 18, 0⟩

/-! NVP -/

def NVP_STATUS.LINK_UP : Fld := ⟨0x00c, 16, 16, 0⟩
def NVP_STATUS.READY : Fld := ⟨0x00c, 17, 17, 0⟩
def NVP_STATUS.WRITING : Fld := ⟨0x00c, 18, 18, 0⟩

/-! CORE -/

def CORE_CTRL.RESTART : Fld := ⟨0x008, 16, 16, 0⟩
def CORE_CTRL.HALT : Fld := ⟨0x008, 17, 17, 0⟩
def CORE_CTRL.RESUME : Fld := ⟨0x008, 18, 18, 0⟩
def CORE_CTRL.CNT_CLR : Fld := ⟨0x008, 19, 19, 0⟩
def CORE_STATUS.STATE : Fld := ⟨0x00c, 18, 16, 0⟩
def CORE_STATUS.LEVEL : Fld := ⟨0x00c, 21, 20, 0⟩

/-! BRK -/

def BRK_CTRL.CNT_CLR : Fld := ⟨0x008, 16, 16, 0⟩
def BRK_STATUS.SUBSCRIBED : Fld := ⟨0x00c, 16, 16, 0⟩
def BRK_STATUS.WARM : Fld := ⟨0x00c, 17, 17, 0⟩
def BRK_STATUS.EMITTING : Fld := ⟨0x00c, 18, 18, 0⟩
def BRK_STATUS.SWITCH_PENDING : Fld := ⟨0x00c, 19, 19, 0⟩
def BRK_STATUS.FAILED : Fld := ⟨0x00c, 20, 20, 0⟩

/-! SYS -/

def SYS_REG_SEL.REGION : Fld := ⟨0x400, 5, 0, 0⟩
def SYS_REG_BASE.BASE : Fld := ⟨0x404, 13, 0, 0⟩
def SYS_REG_SIZE.SIZE : Fld := ⟨0x408, 13, 0, 0⟩
def SYS_REG_CTRL.HOST_WINDOW : Fld := ⟨0x40c, 16, 16, 0⟩
def SYS_REG_CTRL.OWNER : Fld := ⟨0x40c, 13, 8, 0⟩
def SYS_REG_CTRL.STACKS : Fld := ⟨0x40c, 7, 4, 0⟩
def SYS_REG_CTRL.MAPPED : Fld := ⟨0x40c, 0, 0, 0⟩
def SYS_REG_STATUS.UNMAPPED_HITS : Fld := ⟨0x410, 31, 16, 0⟩
def SYS_REG_STATUS.LIVE_MAPPED : Fld := ⟨0x410, 0, 0, 0⟩

/-! BUD -/

def BUD_SEL.RESOURCE : Fld := ⟨0x040, 22, 16, 0⟩
def BUD_SEL.ACTIVITY : Fld := ⟨0x040, 5, 0, 0⟩
def BUD_LIMIT.ALLOW : Fld := ⟨0x044, 31, 31, 0⟩
def BUD_LIMIT.LIMIT : Fld := ⟨0x044, 23, 0, 0⟩
def BUD_USED.USED : Fld := ⟨0x048, 23, 0, 0⟩
def BUD_PEAK.PEAK : Fld := ⟨0x04c, 23, 0, 0⟩
def BUD_WAITS.WAITS : Fld := ⟨0x050, 31, 0, 0⟩
def BUD_DROPPED_LO.BYTES : Fld := ⟨0x054, 31, 0, 0⟩
def BUD_DROPPED_HI.BYTES : Fld := ⟨0x058, 31, 0, 0⟩
def BUD_CAP.CAP : Fld := ⟨0x05c, 23, 0, 0⟩
def BUD_RESERVE.RESERVE : Fld := ⟨0x060, 23, 0, 0⟩
def BUD_SUM.SUM : Fld := ⟨0x064, 23, 0, 0⟩
def BUD_SUM_SHADOW.SUM : Fld := ⟨0x068, 23, 0, 0⟩
def BUD_OVERCOMMIT.VALID : Fld := ⟨0x06c, 31, 31, 0⟩
def BUD_OVERCOMMIT.RESOURCE : Fld := ⟨0x06c, 6, 0, 0⟩
def BUD_PERIOD.PERIOD : Fld := ⟨0x070, 31, 0, 0⟩

/-! CLK -/

def CLK_REF_CFG.CLEAN_BW : Fld := ⟨0x040, 23, 8, 100⟩
def CLK_REF_CFG.FREQ_SEL : Fld := ⟨0x040, 0, 0, 1⟩
def CLK_REF_STATUS.OFFSET : Fld := ⟨0x044, 31, 16, 0⟩
def CLK_REF_STATUS.IN_RANGE : Fld := ⟨0x044, 1, 1, 0⟩
def CLK_REF_STATUS.PRESENT : Fld := ⟨0x044, 0, 0, 0⟩
def CLK_REF_PHASE.TRIM : Fld := ⟨0x048, 15, 0, 0⟩
def CLK_LOOP_SEL.LOOP : Fld := ⟨0x04c, 3, 0, 0⟩
def CLK_LOOP_LOCK.LOCK_COUNT : Fld := ⟨0x050, 31, 16, 1000⟩
def CLK_LOOP_LOCK.WINDOW : Fld := ⟨0x050, 7, 0, 16⟩
def CLK_LOOP_LOSS.FORCE_HOLDOVER : Fld := ⟨0x054, 16, 16, 0⟩
def CLK_LOOP_LOSS.LOSS_COUNT : Fld := ⟨0x054, 15, 0, 8⟩
def CLK_LOOP_SLEW.SLEW_PPB : Fld := ⟨0x058, 19, 0, 1000⟩
def CLK_LOOP_STATUS.PHASE_ERR : Fld := ⟨0x05c, 31, 16, 0⟩
def CLK_LOOP_STATUS.FREE_RUN : Fld := ⟨0x05c, 3, 3, 0⟩
def CLK_LOOP_STATUS.EVER_LOCKED : Fld := ⟨0x05c, 2, 2, 0⟩
def CLK_LOOP_STATUS.STATE : Fld := ⟨0x05c, 1, 0, 0⟩
def CLK_LOOP_WORD.WORD : Fld := ⟨0x060, 31, 0, 0⟩
def CLK_LOOP_EST_FREQ.EST_FREQ : Fld := ⟨0x064, 31, 0, 0⟩
def CLK_LOOP_EST_TIME_LO.EST_TIME : Fld := ⟨0x068, 31, 0, 0⟩
def CLK_LOOP_EST_TIME_HI.EST_TIME : Fld := ⟨0x06c, 31, 0, 0⟩
def CLK_LOOP_ONSET_LO.ONSET : Fld := ⟨0x070, 31, 0, 0⟩
def CLK_LOOP_ONSET_HI.ONSET : Fld := ⟨0x074, 31, 0, 0⟩
def CLK_LOOP_DECLARED_LO.DECLARED : Fld := ⟨0x078, 31, 0, 0⟩
def CLK_LOOP_DECLARED_HI.DECLARED : Fld := ⟨0x07c, 31, 0, 0⟩
def CLK_LOOP_EVENTS.LOCKS : Fld := ⟨0x080, 31, 16, 0⟩
def CLK_LOOP_EVENTS.LOSSES : Fld := ⟨0x080, 15, 0, 0⟩
def CLK_OUT_CFG.ALIGN_SYNC (k : Nat) : Fld := ⟨0x100 + 8 * k, 11, 11, 0⟩
def CLK_OUT_CFG.SOURCE (k : Nat) : Fld := ⟨0x100 + 8 * k, 10, 8, 0⟩
def CLK_OUT_CFG.LEVEL (k : Nat) : Fld := ⟨0x100 + 8 * k, 5, 4, 0⟩
def CLK_OUT_CFG.FORMAT (k : Nat) : Fld := ⟨0x100 + 8 * k, 3, 1, 0⟩
def CLK_OUT_CFG.EN (k : Nat) : Fld := ⟨0x100 + 8 * k, 0, 0, 0⟩
def CLK_OUT_DIV.DIV (k : Nat) : Fld := ⟨0x104 + 8 * k, 15, 0, 1⟩
def CLK_OUT_STATUS.RUNNING : Fld := ⟨0x120, 3, 0, 0⟩

/-! TB -/

def TB_NOW_LO.NOW : Fld := ⟨0x040, 31, 0, 0⟩
def TB_NOW_HI.NOW : Fld := ⟨0x044, 31, 0, 0⟩
def TB_LOAD_LO.LOAD : Fld := ⟨0x048, 31, 0, 0⟩
def TB_LOAD_HI.LOAD : Fld := ⟨0x04c, 31, 0, 0⟩
def TB_ALIGN_CTRL.MODE : Fld := ⟨0x050, 1, 0, 0⟩
def TB_ALIGN_STATUS.LOADS : Fld := ⟨0x054, 31, 16, 0⟩
def TB_ALIGN_STATUS.ALIGN_STALE : Fld := ⟨0x054, 2, 2, 0⟩
def TB_ALIGN_STATUS.STATE : Fld := ⟨0x054, 1, 0, 0⟩
def TB_PRELOAD_LO.PRELOAD : Fld := ⟨0x058, 31, 0, 0⟩
def TB_PRELOAD_HI.PRELOAD : Fld := ⟨0x05c, 31, 0, 0⟩
def TB_WRAP.WRAP_COUNT : Fld := ⟨0x060, 15, 0, 0⟩
def TB_MARK_ERRORS.COUNT : Fld := ⟨0x064, 15, 0, 0⟩

/-! CNV -/

def CNV_RUN.START_EVT : Fld := ⟨0x040, 6, 4, 0⟩
def CNV_RUN.START_SRC : Fld := ⟨0x040, 1, 1, 0⟩
def CNV_RUN.RUN : Fld := ⟨0x040, 0, 0, 0⟩
def CNV_START_AT_LO.START_AT : Fld := ⟨0x044, 31, 0, 0⟩
def CNV_START_AT_HI.START_AT : Fld := ⟨0x048, 31, 0, 0⟩
def CNV_START_ACTUAL_LO.ACTUAL : Fld := ⟨0x04c, 31, 0, 0⟩
def CNV_START_ACTUAL_HI.ACTUAL : Fld := ⟨0x050, 31, 0, 0⟩
def CNV_FORMAT.RAW_FMT : Fld := ⟨0x054, 0, 0, 0⟩
def CNV_SCAN_CTRL.START_ENTRY : Fld := ⟨0x058, 13, 8, 0⟩
def CNV_SCAN_CTRL.LENGTH : Fld := ⟨0x058, 6, 0, 1⟩
def CNV_SCAN_SEL.ENTRY : Fld := ⟨0x05c, 5, 0, 0⟩
def CNV_SCAN_CFG.ATTEN : Fld := ⟨0x060, 11, 8, 15⟩
def CNV_SCAN_CFG.SOURCE : Fld := ⟨0x060, 2, 0, 0⟩
def CNV_SCAN_TIME.SETTLE : Fld := ⟨0x064, 31, 16, 400⟩
def CNV_SCAN_TIME.REPEAT : Fld := ⟨0x064, 15, 0, 1⟩
def CNV_SCAN_STATUS.FRAMES_LEFT : Fld := ⟨0x068, 31, 16, 0⟩
def CNV_SCAN_STATUS.IN_SETTLE : Fld := ⟨0x068, 7, 7, 0⟩
def CNV_SCAN_STATUS.INJECTED : Fld := ⟨0x068, 6, 6, 0⟩
def CNV_SCAN_STATUS.ENTRY : Fld := ⟨0x068, 5, 0, 0⟩
def CNV_SCAN_SKIPS.SKIPS : Fld := ⟨0x06c, 31, 0, 0⟩
def CNV_SCAN_CYCLES.CYCLES : Fld := ⟨0x070, 31, 0, 0⟩
def CNV_INJ_SW_CFG.ATTEN : Fld := ⟨0x074, 11, 8, 15⟩
def CNV_INJ_SW_CFG.SOURCE : Fld := ⟨0x074, 2, 0, 0⟩
def CNV_INJ_SW_TIME.SETTLE : Fld := ⟨0x078, 31, 16, 400⟩
def CNV_INJ_SW_TIME.REPEAT : Fld := ⟨0x078, 15, 0, 1⟩
def CNV_INJ_TRG_CFG.ATTEN : Fld := ⟨0x07c, 11, 8, 15⟩
def CNV_INJ_TRG_CFG.SOURCE : Fld := ⟨0x07c, 2, 0, 0⟩
def CNV_INJ_TRG_TIME.SETTLE : Fld := ⟨0x080, 31, 16, 400⟩
def CNV_INJ_TRG_TIME.REPEAT : Fld := ⟨0x080, 15, 0, 1⟩
def CNV_INJECT.GO : Fld := ⟨0x084, 0, 0, 0⟩
def CNV_INJECT_STATUS.REFUSED : Fld := ⟨0x088, 31, 16, 0⟩
def CNV_INJECT_STATUS.REFUSE_REASON : Fld := ⟨0x088, 7, 5, 0⟩
def CNV_INJECT_STATUS.LAST_ZERO_LENGTH : Fld := ⟨0x088, 4, 4, 0⟩
def CNV_INJECT_STATUS.LAST_SW_REFUSED : Fld := ⟨0x088, 3, 3, 0⟩
def CNV_INJECT_STATUS.ORIGIN : Fld := ⟨0x088, 2, 2, 0⟩
def CNV_INJECT_STATUS.STATE : Fld := ⟨0x088, 1, 0, 0⟩
def CNV_INJECT_DONE.DONE : Fld := ⟨0x08c, 31, 0, 0⟩
def CNV_INJECT_LAT.TICKS : Fld := ⟨0x090, 31, 0, 0⟩
def CNV_OFFSET.OFFSET : Fld := ⟨0x094, 15, 0, 0⟩
def CNV_GAIN.GAIN : Fld := ⟨0x098, 15, 0, 16384⟩
def CNV_EQ_CTRL.MODE : Fld := ⟨0x09c, 1, 0, 0⟩
def CNV_EQ_SEL.BANK : Fld := ⟨0x0a0, 19, 16, 0⟩
def CNV_EQ_SEL.VIEW_FACTORY : Fld := ⟨0x0a0, 9, 9, 0⟩
def CNV_EQ_SEL.AUTO_INC : Fld := ⟨0x0a0, 8, 8, 0⟩
def CNV_EQ_SEL.TAP : Fld := ⟨0x0a0, 5, 0, 0⟩
def CNV_EQ_DATA.COEFF : Fld := ⟨0x0a4, 17, 0, 0⟩
def CNV_OVR_COUNT_LO.COUNT : Fld := ⟨0x0a8, 31, 0, 0⟩
def CNV_OVR_COUNT_HI.COUNT : Fld := ⟨0x0ac, 31, 0, 0⟩
def CNV_OVR_RUNS.RUNS : Fld := ⟨0x0b0, 31, 0, 0⟩
def CNV_OVR_LAST_LO.LAST : Fld := ⟨0x0b4, 31, 0, 0⟩
def CNV_OVR_LAST_HI.LAST : Fld := ⟨0x0b8, 31, 0, 0⟩
def CNV_LIMITER.ENGAGED : Fld := ⟨0x0bc, 31, 16, 0⟩
def CNV_LIMITER.ACTIVE : Fld := ⟨0x0bc, 0, 0, 0⟩
def CNV_PWR_DET.OVER : Fld := ⟨0x0c0, 18, 18, 0⟩
def CNV_PWR_DET.UNDER : Fld := ⟨0x0c0, 17, 17, 0⟩
def CNV_PWR_DET.VALID : Fld := ⟨0x0c0, 16, 16, 0⟩
def CNV_PWR_DET.POWER : Fld := ⟨0x0c0, 15, 0, 0⟩
def CNV_SLICE_STATUS.ROTATION_STOPPED : Fld := ⟨0x0c4, 16, 16, 0⟩
def CNV_SLICE_STATUS.SPARES_LEFT : Fld := ⟨0x0c4, 9, 8, 3⟩
def CNV_SLICE_STATUS.CAL_SLICE : Fld := ⟨0x0c4, 6, 0, 0⟩
def CNV_DROP_MSGS.DROPS : Fld := ⟨0x0c8, 31, 0, 0⟩

/-! CAL -/

def CAL_FG_GO.INPUTS : Fld := ⟨0x040, 3, 0, 0⟩
def CAL_FG_TIMEOUT.FULL_MS : Fld := ⟨0x044, 15, 0, 4000⟩
def CAL_BG_CTRL.CALCHG_ON_SWAP : Fld := ⟨0x048, 8, 8, 0⟩
def CAL_BG_CTRL.BG_EN : Fld := ⟨0x048, 3, 0, 15⟩
def CAL_SEL.INPUT : Fld := ⟨0x04c, 1, 0, 0⟩
def CAL_FG_STATUS.TIMEOUT_STEP : Fld := ⟨0x050, 18, 16, 0⟩
def CAL_FG_STATUS.REASON : Fld := ⟨0x050, 15, 12, 0⟩
def CAL_FG_STATUS.LAST_RESULT : Fld := ⟨0x050, 11, 8, 0⟩
def CAL_FG_STATUS.STEP : Fld := ⟨0x050, 2, 0, 0⟩
def CAL_START_LAT.TICKS : Fld := ⟨0x054, 31, 0, 0⟩
def CAL_LAST_TIME64_LO.TIME : Fld := ⟨0x058, 31, 0, 0⟩
def CAL_LAST_TIME64_HI.TIME : Fld := ⟨0x05c, 31, 0, 0⟩
def CAL_LAST_WALL.SECONDS : Fld := ⟨0x060, 31, 0, 0⟩
def CAL_INPUT_GEN.GEN : Fld := ⟨0x064, 31, 0, 0⟩
def CAL_FG_COUNTS.FAILED : Fld := ⟨0x068, 31, 16, 0⟩
def CAL_FG_COUNTS.APPLIED : Fld := ⟨0x068, 15, 0, 0⟩
def CAL_BG_STEPS.STEPS : Fld := ⟨0x06c, 31, 0, 0⟩
def CAL_BG_DEFERS.CAL_FAIL_DEFERS : Fld := ⟨0x070, 31, 16, 0⟩
def CAL_BG_DEFERS.SHORT_DEFERS : Fld := ⟨0x070, 15, 0, 0⟩
def CAL_BG_LAST.STEP_LARGE_COUNT : Fld := ⟨0x074, 31, 24, 0⟩
def CAL_BG_LAST.PHYS_OUT : Fld := ⟨0x074, 22, 16, 0⟩
def CAL_BG_LAST.PHYS_IN : Fld := ⟨0x074, 14, 8, 0⟩
def CAL_BG_LAST.POSITION : Fld := ⟨0x074, 6, 0, 0⟩
def CAL_BG_LAST_TIME_LO.TIME : Fld := ⟨0x078, 31, 0, 0⟩
def CAL_BG_LAST_TIME_HI.TIME : Fld := ⟨0x07c, 31, 0, 0⟩
def CAL_RESID_LEVEL.SPUR : Fld := ⟨0x080, 31, 16, 0⟩
def CAL_RESID_LEVEL.GAIN_ERR : Fld := ⟨0x080, 15, 0, 0⟩
def CAL_RESID_OFS.OFFSET : Fld := ⟨0x084, 15, 0, 0⟩
def CAL_SLICE_SEL.SLICE : Fld := ⟨0x088, 6, 0, 0⟩
def CAL_SLICE_TRIM.SKEW : Fld := ⟨0x08c, 31, 20, 0⟩
def CAL_SLICE_TRIM.GAIN : Fld := ⟨0x08c, 19, 10, 0⟩
def CAL_SLICE_TRIM.OFFSET : Fld := ⟨0x08c, 9, 0, 0⟩
def CAL_SLICE_INFO.AGE_MS : Fld := ⟨0x090, 31, 16, 0⟩
def CAL_SLICE_INFO.POSITION : Fld := ⟨0x090, 6, 0, 0⟩
def CAL_GENERATION.GEN : Fld := ⟨0x0a0, 31, 0, 0⟩
def CAL_COUNT_TOTAL.COUNT : Fld := ⟨0x0a4, 31, 0, 0⟩
def CAL_STORE_STATUS.STORE_FAILS : Fld := ⟨0x0a8, 31, 16, 0⟩
def CAL_STORE_STATUS.STORE_STATE : Fld := ⟨0x0a8, 6, 4, 0⟩
def CAL_STORE_STATUS.FACTORY_FALLBACK : Fld := ⟨0x0a8, 3, 3, 0⟩
def CAL_STORE_STATUS.RESTORED_PREVIOUS : Fld := ⟨0x0a8, 2, 2, 0⟩
def CAL_STORE_STATUS.OTHER_VALID : Fld := ⟨0x0a8, 1, 1, 0⟩
def CAL_STORE_STATUS.ACTIVE_SLOT : Fld := ⟨0x0a8, 0, 0, 0⟩
def CAL_BG_MATCH.SKEW_TOL : Fld := ⟨0x0ac, 23, 16, 64⟩
def CAL_BG_MATCH.GAIN_TOL : Fld := ⟨0x0ac, 15, 8, 16⟩
def CAL_BG_MATCH.OFS_TOL : Fld := ⟨0x0ac, 7, 0, 4⟩
def CAL_STARTUP.STARTUP_FG_EN : Fld := ⟨0x0b0, 31, 31, 1⟩
def CAL_STARTUP.MAX_DTEMP : Fld := ⟨0x0b0, 23, 16, 20⟩
def CAL_STARTUP.MAX_AGE : Fld := ⟨0x0b0, 15, 0, 720⟩

/-! WTE -/

def WTE_XFORM.WINDOW : Fld := ⟨0x040, 14, 12, 0⟩
def WTE_XFORM.OVERLAP : Fld := ⟨0x040, 9, 8, 2⟩
def WTE_XFORM.LOG2N : Fld := ⟨0x040, 4, 0, 10⟩
def WTE_KAISER.BETA : Fld := ⟨0x044, 15, 0, 8192⟩
def WTE_BIN_CFG.DEST : Fld := ⟨0x048, 10, 8, 1⟩
def WTE_BIN_CFG.FORMAT : Fld := ⟨0x048, 4, 4, 0⟩
def WTE_BIN_CFG.EN : Fld := ⟨0x048, 0, 0, 0⟩
def WTE_BIN_FIRST.FIRST : Fld := ⟨0x04c, 19, 0, 0⟩
def WTE_BIN_COUNT.COUNT : Fld := ⟨0x050, 20, 0, 512⟩
def WTE_COL_CFG.DEST : Fld := ⟨0x054, 10, 8, 2⟩
def WTE_COL_CFG.DETECTOR : Fld := ⟨0x054, 5, 4, 0⟩
def WTE_COL_CFG.EN : Fld := ⟨0x054, 0, 0, 0⟩
def WTE_COL_FIRST.FIRST : Fld := ⟨0x058, 19, 0, 0⟩
def WTE_COL_BINS.BINS : Fld := ⟨0x05c, 20, 0, 512⟩
def WTE_COL_COUNT.COUNT : Fld := ⟨0x060, 11, 0, 512⟩
def WTE_WIN_SEL.AUTO_INC : Fld := ⟨0x064, 16, 16, 0⟩
def WTE_WIN_SEL.ENTRY : Fld := ⟨0x064, 15, 0, 0⟩
def WTE_WIN_DATA.COEFF : Fld := ⟨0x068, 17, 0, 131072⟩
def WTE_WIN_GAIN.ENBW : Fld := ⟨0x06c, 31, 16, 4096⟩
def WTE_WIN_GAIN.CG : Fld := ⟨0x06c, 15, 0, 32768⟩
def WTE_WIN_POI.FRAC_3DB : Fld := ⟨0x070, 15, 0, 46397⟩
def WTE_GRID.HOP : Fld := ⟨0x074, 20, 0, 256⟩
def WTE_ANCHOR_LO.ANCHOR : Fld := ⟨0x078, 31, 0, 0⟩
def WTE_ANCHOR_HI.ANCHOR : Fld := ⟨0x07c, 31, 0, 0⟩
def WTE_SEQ.SEQUENCE : Fld := ⟨0x080, 31, 0, 0⟩
def WTE_EXP.MAX_EXP : Fld := ⟨0x084, 23, 16, 0⟩
def WTE_EXP.MIN_EXP : Fld := ⟨0x084, 15, 8, 255⟩
def WTE_EXP.LAST_EXP : Fld := ⟨0x084, 7, 0, 0⟩
def WTE_ABANDONED.FRAMES : Fld := ⟨0x088, 31, 0, 0⟩
def WTE_DROPPED.COLUMNS : Fld := ⟨0x08c, 31, 16, 0⟩
def WTE_DROPPED.BINS : Fld := ⟨0x08c, 15, 0, 0⟩
def WTE_TAINTED.SPECTRA : Fld := ⟨0x090, 31, 0, 0⟩
def WTE_LAST_TIME_LO.TIME : Fld := ⟨0x094, 31, 0, 0⟩
def WTE_LAST_TIME_HI.TIME : Fld := ⟨0x098, 31, 0, 0⟩

/-! CHN -/

def CHN_ROUTE_SEL.CLUSTER : Fld := ⟨0x040, 3, 0, 0⟩
def CHN_ROUTE_LO.SUBBANDS : Fld := ⟨0x044, 31, 0, 0⟩
def CHN_ROUTE_HI.SUBBANDS : Fld := ⟨0x048, 31, 0, 0⟩
def CHN_ROUTE_UNITS.ROUTES : Fld := ⟨0x04c, 23, 16, 0⟩
def CHN_ROUTE_UNITS.UNITS : Fld := ⟨0x04c, 15, 0, 0⟩
def CHN_SUBS.REFUSED : Fld := ⟨0x050, 31, 16, 0⟩
def CHN_SUBS.ACCEPTED : Fld := ⟨0x050, 15, 0, 0⟩
def CHN_DROP_MSGS.DROPS : Fld := ⟨0x054, 31, 0, 0⟩
def CHN_TAINTED.STAMPS : Fld := ⟨0x058, 31, 0, 0⟩
def CHN_GAPS.GAPS : Fld := ⟨0x05c, 31, 0, 0⟩
def CHN_LAST_INDEX.INDEX : Fld := ⟨0x060, 31, 0, 0⟩

/-! BRK -/

def BRK_ROLE.COURSE : Fld := ⟨0x040, 10, 8, 0⟩
def BRK_ROLE.ROLE : Fld := ⟨0x040, 2, 0, 0⟩
def BRK_SOURCE.REPLAY_LOG2 : Fld := ⟨0x044, 12, 8, 0⟩
def BRK_SOURCE.SUBBAND : Fld := ⟨0x044, 5, 0, 0⟩
def BRK_NCO_LO.WORD : Fld := ⟨0x048, 31, 0, 0⟩
def BRK_NCO_HI.WORD : Fld := ⟨0x04c, 15, 0, 0⟩
def BRK_SPAN.SPAN : Fld := ⟨0x050, 27, 0, 200000000⟩
def BRK_CHAIN.RESAMP : Fld := ⟨0x054, 24, 24, 0⟩
def BRK_CHAIN.STAGES : Fld := ⟨0x054, 20, 16, 1⟩
def BRK_RATIO.RATIO : Fld := ⟨0x058, 31, 0, 2147483648⟩
def BRK_RATE.RATE : Fld := ⟨0x05c, 31, 0, 250000000⟩
def BRK_XFORM.WINDOW : Fld := ⟨0x060, 14, 12, 1⟩
def BRK_XFORM.OVERLAP : Fld := ⟨0x060, 9, 8, 1⟩
def BRK_XFORM.LOG2M : Fld := ⟨0x060, 3, 0, 10⟩
def BRK_KAISER.BETA : Fld := ⟨0x064, 15, 0, 8192⟩
def BRK_SPEC_CFG.DEST : Fld := ⟨0x068, 12, 8, 1⟩
def BRK_SPEC_CFG.FORMAT : Fld := ⟨0x068, 4, 4, 0⟩
def BRK_SPEC_BINS.COUNT : Fld := ⟨0x06c, 30, 16, 1024⟩
def BRK_SPEC_BINS.FIRST : Fld := ⟨0x06c, 13, 0, 0⟩
def BRK_IQ_CFG.DEST : Fld := ⟨0x070, 12, 8, 1⟩
def BRK_EPOCH.ROLE_WRITES : Fld := ⟨0x074, 31, 16, 0⟩
def BRK_EPOCH.EPOCH : Fld := ⟨0x074, 7, 0, 0⟩
def BRK_STALE.COUNT : Fld := ⟨0x078, 31, 0, 0⟩
def BRK_STALE_LAST.SENDER : Fld := ⟨0x07c, 29, 24, 0⟩
def BRK_STALE_LAST.KIND : Fld := ⟨0x07c, 19, 16, 0⟩
def BRK_STALE_LAST.MSG_EPOCH : Fld := ⟨0x07c, 15, 8, 0⟩
def BRK_STALE_LAST.EPOCH : Fld := ⟨0x07c, 7, 0, 0⟩
def BRK_ROUTE.SUBSCRIBED : Fld := ⟨0x080, 31, 31, 0⟩
def BRK_ROUTE.SUBBAND : Fld := ⟨0x080, 13, 8, 0⟩
def BRK_ROUTE.INPUT : Fld := ⟨0x080, 1, 0, 0⟩
def BRK_ROUTE_INDEX.INDEX : Fld := ⟨0x084, 31, 0, 0⟩
def BRK_DROPPED.IQ_MSGS : Fld := ⟨0x088, 31, 16, 0⟩
def BRK_DROPPED.SPECTRA : Fld := ⟨0x088, 15, 0, 0⟩
def BRK_TAINTED.OUTPUTS : Fld := ⟨0x08c, 31, 0, 0⟩
def BRK_GAPS.OUTPUTS : Fld := ⟨0x090, 31, 0, 0⟩
def BRK_SPEC_SEQ.SEQUENCE : Fld := ⟨0x094, 31, 0, 0⟩
def BRK_IQ_SEQ.SEQUENCE : Fld := ⟨0x098, 31, 0, 0⟩
def BRK_LAST_TIME_LO.TIME : Fld := ⟨0x09c, 31, 0, 0⟩
def BRK_LAST_TIME_HI.TIME : Fld := ⟨0x0a0, 31, 0, 0⟩
def BRK_PHYS.SLOT : Fld := ⟨0x0a4, 20, 16, 0⟩
def BRK_PHYS.CLUSTER_SPARE : Fld := ⟨0x0a4, 8, 8, 1⟩
def BRK_SWITCH_LO.B : Fld := ⟨0x0a8, 31, 0, 0⟩
def BRK_SWITCH_HI.B : Fld := ⟨0x0ac, 31, 0, 0⟩

/-! CRS -/

def CRS_RUN.START_EVT : Fld := ⟨0x040, 6, 4, 0⟩
def CRS_RUN.START_SRC : Fld := ⟨0x040, 1, 1, 0⟩
def CRS_RUN.RUN : Fld := ⟨0x040, 0, 0, 0⟩
def CRS_START_AT_LO.START_AT : Fld := ⟨0x044, 31, 0, 0⟩
def CRS_START_AT_HI.START_AT : Fld := ⟨0x048, 31, 0, 0⟩
def CRS_START_ACTUAL_LO.ACTUAL : Fld := ⟨0x04c, 31, 0, 0⟩
def CRS_START_ACTUAL_HI.ACTUAL : Fld := ⟨0x050, 31, 0, 0⟩
def CRS_STOP_ACTUAL_LO.ACTUAL : Fld := ⟨0x054, 31, 0, 0⟩
def CRS_STOP_ACTUAL_HI.ACTUAL : Fld := ⟨0x058, 31, 0, 0⟩
def CRS_MEMBERS.MEMBERS (k : Nat) : Fld := ⟨0x05c + 4 * k, 31, 0, 0⟩
def CRS_MEMBER_COUNT.COUNT : Fld := ⟨0x07c, 8, 0, 0⟩
def CRS_EPOCH_SEL.BRICK : Fld := ⟨0x080, 7, 0, 0⟩
def CRS_EPOCH_VIEW.ROLE : Fld := ⟨0x084, 10, 8, 0⟩
def CRS_EPOCH_VIEW.EPOCH : Fld := ⟨0x084, 7, 0, 0⟩
def CRS_STALE.COUNT : Fld := ⟨0x088, 31, 0, 0⟩
def CRS_SWITCH_TIMEOUT.MS : Fld := ⟨0x08c, 15, 0, 100⟩
def CRS_REPLAY.LOG2 : Fld := ⟨0x090, 12, 8, 0⟩
def CRS_REPLAY.PACE : Fld := ⟨0x090, 0, 0, 0⟩

/-! EVT -/

def EVT_IN_SEL.INPUT : Fld := ⟨0x040, 2, 0, 0⟩
def EVT_IN_CFG.COURSES : Fld := ⟨0x044, 23, 20, 0⟩
def EVT_IN_CFG.PRESCALE : Fld := ⟨0x044, 11, 8, 0⟩
def EVT_IN_CFG.EDGE : Fld := ⟨0x044, 2, 1, 0⟩
def EVT_IN_CFG.EN : Fld := ⟨0x044, 0, 0, 0⟩
def EVT_IN_THRESH.THRESH : Fld := ⟨0x048, 12, 0, 0⟩
def EVT_IN_HYST.HYST : Fld := ⟨0x04c, 6, 0, 0⟩
def EVT_IN_HOLDOFF.HOLDOFF_EN : Fld := ⟨0x050, 31, 31, 0⟩
def EVT_IN_HOLDOFF.TICKS : Fld := ⟨0x050, 20, 0, 1⟩
def EVT_IN_DELAY.DELAY : Fld := ⟨0x054, 15, 0, 0⟩
def EVT_IN_STATUS.LEVEL : Fld := ⟨0x058, 0, 0, 0⟩
def EVT_IN_EDGES_LO.EDGES : Fld := ⟨0x05c, 31, 0, 0⟩
def EVT_IN_EDGES_HI.EDGES : Fld := ⟨0x060, 31, 0, 0⟩
def EVT_IN_DEADTIME.LOST : Fld := ⟨0x064, 31, 0, 0⟩
def EVT_IN_HELD.HELD : Fld := ⟨0x068, 31, 0, 0⟩
def EVT_IN_LAST_LO.TIME : Fld := ⟨0x06c, 31, 0, 0⟩
def EVT_IN_LAST_HI.TIME : Fld := ⟨0x070, 31, 0, 0⟩
def EVT_IN_NOTICE_DROPS.DROPS : Fld := ⟨0x074, 31, 0, 0⟩
def EVT_IU_SEL.UNIT : Fld := ⟨0x080, 1, 0, 0⟩
def EVT_IU_CFG.STOPS : Fld := ⟨0x084, 28, 24, 1⟩
def EVT_IU_CFG.REPEAT : Fld := ⟨0x084, 18, 18, 0⟩
def EVT_IU_CFG.GATE_POL : Fld := ⟨0x084, 17, 17, 0⟩
def EVT_IU_CFG.GATE_SRC : Fld := ⟨0x084, 16, 16, 0⟩
def EVT_IU_CFG.GATE_EVT : Fld := ⟨0x084, 14, 12, 0⟩
def EVT_IU_CFG.STOP_EVT : Fld := ⟨0x084, 10, 8, 0⟩
def EVT_IU_CFG.START_EVT : Fld := ⟨0x084, 6, 4, 0⟩
def EVT_IU_CFG.MODE : Fld := ⟨0x084, 1, 0, 0⟩
def EVT_IU_TIMEOUT.TICKS : Fld := ⟨0x088, 31, 0, 2000⟩
def EVT_IU_GATE_TICKS.TICKS : Fld := ⟨0x08c, 31, 0, 2000000⟩
def EVT_IU_SWGATE.CLOSE : Fld := ⟨0x090, 1, 1, 0⟩
def EVT_IU_SWGATE.OPEN : Fld := ⟨0x090, 0, 0, 0⟩
def EVT_IU_STATUS.FIFO_LEVEL : Fld := ⟨0x094, 22, 16, 0⟩
def EVT_IU_STATUS.GATE_OPEN : Fld := ⟨0x094, 2, 2, 0⟩
def EVT_IU_STATUS.STATE : Fld := ⟨0x094, 1, 0, 0⟩
def EVT_IU_COUNTS.EARLY_STOP : Fld := ⟨0x098, 31, 16, 0⟩
def EVT_IU_COUNTS.FIFO_OVERFLOW : Fld := ⟨0x098, 15, 0, 0⟩
def EVT_IU_RESULTS.RESULTS : Fld := ⟨0x09c, 31, 0, 0⟩
def EVT_CD_STATUS.BUILDS : Fld := ⟨0x0c0, 31, 16, 0⟩
def EVT_CD_STATUS.VALID : Fld := ⟨0x0c0, 0, 0, 0⟩
def EVT_CD_CTRL.TEMP_STEP : Fld := ⟨0x0c4, 15, 8, 10⟩
def EVT_CD_CTRL.REBUILD : Fld := ⟨0x0c4, 0, 0, 0⟩
def EVT_RES_HDR.SEQ : Fld := ⟨0x100, 31, 16, 0⟩
def EVT_RES_HDR.STOPS_TAKEN : Fld := ⟨0x100, 12, 8, 0⟩
def EVT_RES_HDR.HOLDOVER : Fld := ⟨0x100, 7, 7, 0⟩
def EVT_RES_HDR.INCOMPLETE : Fld := ⟨0x100, 6, 6, 0⟩
def EVT_RES_HDR.TIMEOUT : Fld := ⟨0x100, 5, 5, 0⟩
def EVT_RES_HDR.ABORTED : Fld := ⟨0x100, 4, 4, 0⟩
def EVT_RES_HDR.DEADTIME : Fld := ⟨0x100, 3, 3, 0⟩
def EVT_RES_HDR.FREQ : Fld := ⟨0x100, 2, 2, 0⟩
def EVT_RES_HDR.COINCIDENT_ANY : Fld := ⟨0x100, 1, 1, 0⟩
def EVT_RES_HDR.VALID : Fld := ⟨0x100, 0, 0, 0⟩
def EVT_RES_COINC.COINC : Fld := ⟨0x104, 15, 0, 0⟩
def EVT_RES_START_LO.START : Fld := ⟨0x108, 31, 0, 0⟩
def EVT_RES_START_HI.START : Fld := ⟨0x10c, 31, 0, 0⟩
def EVT_RES_STOP_LO.VALUE (k : Nat) : Fld := ⟨0x110 + 8 * k, 31, 0, 0⟩
def EVT_RES_STOP_HI.VALUE (k : Nat) : Fld := ⟨0x114 + 8 * k, 31, 0, 0⟩
def EVT_RES_POP.POP : Fld := ⟨0x190, 0, 0, 0⟩

/-! TRG -/

def TRG_SEQ_CFG.CROSS_DEST : Fld := ⟨0x040, 20, 16, 0⟩
def TRG_SEQ_CFG.HOLDOFF_COND : Fld := ⟨0x040, 11, 8, 0⟩
def TRG_SEQ_CFG.HOLDOFF_MODE : Fld := ⟨0x040, 5, 4, 0⟩
def TRG_SEQ_CFG.START_STATE : Fld := ⟨0x040, 2, 0, 0⟩
def TRG_HOLDOFF.VALUE : Fld := ⟨0x044, 31, 0, 128⟩
def TRG_HORIZON.TICKS : Fld := ⟨0x048, 22, 0, 8192⟩
def TRG_SWTRIG.COND : Fld := ⟨0x04c, 15, 0, 0⟩
def TRG_COND_SEL.COND : Fld := ⟨0x050, 3, 0, 0⟩
def TRG_COND_CFG.BRICK : Fld := ⟨0x054, 31, 24, 0⟩
def TRG_COND_CFG.RECT : Fld := ⟨0x054, 23, 20, 0⟩
def TRG_COND_CFG.UNIT : Fld := ⟨0x054, 18, 16, 0⟩
def TRG_COND_CFG.IGNORE_DROP : Fld := ⟨0x054, 14, 14, 0⟩
def TRG_COND_CFG.IGNORE_HOLDOVER : Fld := ⟨0x054, 13, 13, 0⟩
def TRG_COND_CFG.IGNORE_TAINT : Fld := ⟨0x054, 12, 12, 0⟩
def TRG_COND_CFG.MODE : Fld := ⟨0x054, 9, 8, 0⟩
def TRG_COND_CFG.SOURCE : Fld := ⟨0x054, 6, 4, 0⟩
def TRG_COND_CFG.TYPE : Fld := ⟨0x054, 3, 0, 0⟩
def TRG_COND_LEVEL.UPPER : Fld := ⟨0x058, 31, 16, 32767⟩
def TRG_COND_LEVEL.LOWER : Fld := ⟨0x058, 15, 0, 32768⟩
def TRG_COND_PARAM.HYST : Fld := ⟨0x05c, 31, 16, 0⟩
def TRG_COND_PARAM.LOG2L : Fld := ⟨0x05c, 4, 0, 0⟩
def TRG_COND_COUNT.COUNT : Fld := ⟨0x060, 31, 0, 1⟩
def TRG_COND_MASK_BASE.BASE : Fld := ⟨0x064, 15, 0, 0⟩
def TRG_COND_MASK_LEN.LEN : Fld := ⟨0x068, 16, 0, 1⟩
def TRG_COND_PERIOD.PERIOD : Fld := ⟨0x06c, 31, 0, 2048⟩
def TRG_COND_PHASE.PHASE : Fld := ⟨0x070, 31, 0, 0⟩
def TRG_COND_TRUE.SLOTS : Fld := ⟨0x074, 31, 0, 0⟩
def TRG_COND_IGNORED.ITEMS : Fld := ⟨0x078, 31, 0, 0⟩
def TRG_COND_LATE.ITEMS : Fld := ⟨0x07c, 31, 0, 0⟩
def TRG_COND_LAST_LO.TIME : Fld := ⟨0x080, 31, 0, 0⟩
def TRG_COND_LAST_HI.TIME : Fld := ⟨0x084, 31, 0, 0⟩
def TRG_STATE_SEL.STATE : Fld := ⟨0x090, 2, 0, 0⟩
def TRG_ST_MASKS.RESET_MASK : Fld := ⟨0x094, 31, 16, 0⟩
def TRG_ST_MASKS.GO_MASK : Fld := ⟨0x094, 15, 0, 0⟩
def TRG_ST_CTRL.IRQ : Fld := ⟨0x098, 20, 20, 0⟩
def TRG_ST_CTRL.MARK : Fld := ⟨0x098, 19, 19, 0⟩
def TRG_ST_CTRL.CROSS : Fld := ⟨0x098, 18, 18, 0⟩
def TRG_ST_CTRL.INJECT : Fld := ⟨0x098, 17, 17, 0⟩
def TRG_ST_CTRL.TRIGGER : Fld := ⟨0x098, 16, 16, 0⟩
def TRG_ST_CTRL.TIMEOUT_EN : Fld := ⟨0x098, 11, 11, 0⟩
def TRG_ST_CTRL.TIMEOUT_TO : Fld := ⟨0x098, 10, 8, 0⟩
def TRG_ST_CTRL.RESET_TO : Fld := ⟨0x098, 6, 4, 0⟩
def TRG_ST_CTRL.NEXT : Fld := ⟨0x098, 2, 0, 0⟩
def TRG_ST_COUNT.COUNT : Fld := ⟨0x09c, 15, 0, 1⟩
def TRG_ST_TIMEOUT.TICKS : Fld := ⟨0x0a0, 31, 0, 2048⟩
def TRG_ST_VISITS.ENTRIES : Fld := ⟨0x0a4, 31, 0, 0⟩
def TRG_SEQ_STATUS.COUNT_NOW : Fld := ⟨0x0b0, 31, 16, 0⟩
def TRG_SEQ_STATUS.HOLDING : Fld := ⟨0x0b0, 4, 4, 0⟩
def TRG_SEQ_STATUS.STATE : Fld := ⟨0x0b0, 2, 0, 0⟩
def TRG_TRIGGERS.COUNT : Fld := ⟨0x0b4, 31, 0, 0⟩
def TRG_SAME_SLOT.COUNT : Fld := ⟨0x0b8, 31, 0, 0⟩
def TRG_INJECT.REFUSED : Fld := ⟨0x0bc, 31, 16, 0⟩
def TRG_INJECT.LAST_REASON : Fld := ⟨0x0bc, 15, 14, 0⟩
def TRG_INJECT.ACCEPTED : Fld := ⟨0x0bc, 13, 0, 0⟩
def TRG_LAT_MAX.TICKS : Fld := ⟨0x0c0, 22, 0, 0⟩
def TRG_SLOT_LO.TIME : Fld := ⟨0x0c4, 31, 0, 0⟩
def TRG_SLOT_HI.TIME : Fld := ⟨0x0c8, 31, 0, 0⟩
def TRG_MASK_SEL.AUTO_INC : Fld := ⟨0x0cc, 16, 16, 0⟩
def TRG_MASK_SEL.ENTRY : Fld := ⟨0x0cc, 15, 0, 0⟩
def TRG_MASK_DATA.LOWER : Fld := ⟨0x0d0, 31, 16, 32768⟩
def TRG_MASK_DATA.UPPER : Fld := ⟨0x0d0, 15, 0, 32767⟩
def TRG_MASK_STATUS.BANK : Fld := ⟨0x0d4, 1, 1, 0⟩
def TRG_MASK_STATUS.COPYING : Fld := ⟨0x0d4, 0, 0, 0⟩
def TRG_LOG_HDR.SEQ : Fld := ⟨0x100, 31, 16, 0⟩
def TRG_LOG_HDR.FROM : Fld := ⟨0x100, 15, 13, 0⟩
def TRG_LOG_HDR.TO : Fld := ⟨0x100, 12, 10, 0⟩
def TRG_LOG_HDR.COND : Fld := ⟨0x100, 9, 6, 0⟩
def TRG_LOG_HDR.TAINT : Fld := ⟨0x100, 5, 5, 0⟩
def TRG_LOG_HDR.HOLDOVER : Fld := ⟨0x100, 4, 4, 0⟩
def TRG_LOG_HDR.LATE : Fld := ⟨0x100, 3, 3, 0⟩
def TRG_LOG_HDR.INJ_REQ : Fld := ⟨0x100, 2, 2, 0⟩
def TRG_LOG_HDR.TRIGGER : Fld := ⟨0x100, 1, 1, 0⟩
def TRG_LOG_HDR.VALID : Fld := ⟨0x100, 0, 0, 0⟩
def TRG_LOG_MASK.MASK : Fld := ⟨0x104, 15, 0, 0⟩
def TRG_LOG_TIME_LO.TIME : Fld := ⟨0x108, 31, 0, 0⟩
def TRG_LOG_TIME_HI.TIME : Fld := ⟨0x10c, 31, 0, 0⟩
def TRG_LOG_POP.POP : Fld := ⟨0x110, 0, 0, 0⟩
def TRG_LOG_STATUS.OVERFLOW : Fld := ⟨0x114, 31, 16, 0⟩
def TRG_LOG_STATUS.LEVEL : Fld := ⟨0x114, 8, 0, 0⟩

/-! ACQ -/

def ACQ_CAP_SEL.CAPTURE : Fld := ⟨0x040, 4, 0, 0⟩
def ACQ_CAP_CFG.COURSE : Fld := ⟨0x044, 10, 8, 0⟩
def ACQ_CAP_CFG.SRC : Fld := ⟨0x044, 6, 4, 0⟩
def ACQ_CAP_CFG.FULL_POLICY : Fld := ⟨0x044, 2, 2, 0⟩
def ACQ_CAP_CFG.MODE : Fld := ⟨0x044, 1, 1, 0⟩
def ACQ_CAP_CFG.ARM : Fld := ⟨0x044, 0, 0, 0⟩
def ACQ_CAP_SOURCE.BRICK : Fld := ⟨0x048, 23, 16, 0⟩
def ACQ_CAP_SOURCE.SPEC_SRC : Fld := ⟨0x048, 9, 8, 0⟩
def ACQ_CAP_REGION.DRAIN_ACT : Fld := ⟨0x04c, 21, 16, 0⟩
def ACQ_CAP_REGION.ACT : Fld := ⟨0x04c, 13, 8, 0⟩
def ACQ_CAP_REGION.REGION : Fld := ⟨0x04c, 5, 0, 0⟩
def ACQ_CAP_SEG_SIZE.SIZE : Fld := ⟨0x050, 24, 0, 1⟩
def ACQ_CAP_SEG_COUNT.COUNT : Fld := ⟨0x054, 20, 0, 1⟩
def ACQ_CAP_PRE.PRE : Fld := ⟨0x058, 31, 0, 0⟩
def ACQ_CAP_POST.POST : Fld := ⟨0x05c, 31, 0, 1⟩
def ACQ_CAP_MARKS.SLOTS : Fld := ⟨0x060, 7, 0, 16⟩
def ACQ_CAP_CHANGE.KEY_EN : Fld := ⟨0x064, 31, 31, 0⟩
def ACQ_CAP_CHANGE.KEY_EVERY : Fld := ⟨0x064, 30, 16, 1024⟩
def ACQ_CAP_CHANGE.DEADBAND : Fld := ⟨0x064, 15, 0, 256⟩
def ACQ_CAP_LEN_NEXT.LEN : Fld := ⟨0x068, 20, 0, 1⟩
def ACQ_CAP_ITEM_CAP.SLOTS : Fld := ⟨0x06c, 31, 0, 0⟩
def ACQ_CAP_ITEM_BYTES.BYTES : Fld := ⟨0x070, 31, 0, 0⟩
def ACQ_CAP_LOOKAHEAD.A : Fld := ⟨0x074, 31, 0, 0⟩
def ACQ_CAP_RATE.UNITS : Fld := ⟨0x078, 23, 0, 0⟩
def ACQ_CAP_STATUS.STATE : Fld := ⟨0x07c, 31, 30, 0⟩
def ACQ_CAP_STATUS.OPEN : Fld := ⟨0x07c, 20, 16, 0⟩
def ACQ_CAP_STATUS.LEN_PENDING : Fld := ⟨0x07c, 8, 8, 0⟩
def ACQ_CAP_LEN.LEN : Fld := ⟨0x080, 20, 0, 0⟩
def ACQ_CAP_WRITE.SEGMENT : Fld := ⟨0x084, 19, 0, 0⟩
def ACQ_CAP_READ.SEGMENT : Fld := ⟨0x088, 19, 0, 0⟩
def ACQ_CAP_USED.SEGMENTS : Fld := ⟨0x08c, 20, 0, 0⟩
def ACQ_CAP_DONE.RECORDS : Fld := ⟨0x090, 31, 0, 0⟩
def ACQ_CAP_MISSED.TRIGGERS : Fld := ⟨0x094, 31, 0, 0⟩
def ACQ_CAP_OVERWRITTEN.SEGMENTS : Fld := ⟨0x098, 31, 0, 0⟩
def ACQ_CAP_DISCARDED.SEGMENTS : Fld := ⟨0x09c, 31, 0, 0⟩
def ACQ_CAP_DROPPED.ITEMS : Fld := ⟨0x0a0, 31, 0, 0⟩
def ACQ_CAP_PRE_LOST.READ_REJECTS : Fld := ⟨0x0a4, 31, 16, 0⟩
def ACQ_CAP_PRE_LOST.RECORDS : Fld := ⟨0x0a4, 15, 0, 0⟩
def ACQ_CAP_IGNORED.ITEMS : Fld := ⟨0x0a8, 31, 0, 0⟩
def ACQ_CAP_LAST_TRIG_LO.TIME : Fld := ⟨0x0ac, 31, 0, 0⟩
def ACQ_CAP_LAST_TRIG_HI.TIME : Fld := ⟨0x0b0, 31, 0, 0⟩
def ACQ_REPLAY_CFG.EN : Fld := ⟨0x0c0, 16, 16, 0⟩
def ACQ_REPLAY_CFG.REGION : Fld := ⟨0x0c0, 5, 0, 0⟩
def ACQ_REPLAY_FIRST.SEGMENT : Fld := ⟨0x0c4, 19, 0, 0⟩
def ACQ_REPLAY_COUNT.SEGMENTS : Fld := ⟨0x0c8, 20, 0, 1⟩
def ACQ_REPLAY_POS.DONE : Fld := ⟨0x0cc, 31, 31, 0⟩
def ACQ_REPLAY_POS.ZERO_LENGTH : Fld := ⟨0x0cc, 30, 30, 0⟩
def ACQ_REPLAY_POS.SEGMENT : Fld := ⟨0x0cc, 19, 0, 0⟩
def ACQ_REPLAY_REJECTED.SEGMENTS : Fld := ⟨0x0d0, 31, 0, 0⟩

/-! MEAS -/

def MEAS_SEL.CAPTURE : Fld := ⟨0x040, 4, 0, 0⟩
def MEAS_EN.CORE_SLOTS : Fld := ⟨0x044, 11, 8, 0⟩
def MEAS_EN.ENABLES : Fld := ⟨0x044, 5, 0, 0⟩
def MEAS_CH_FIRST.FIRST : Fld := ⟨0x048, 19, 0, 0⟩
def MEAS_CH_COUNT.COUNT : Fld := ⟨0x04c, 20, 0, 1⟩
def MEAS_OBW.FRAC : Fld := ⟨0x050, 15, 0, 64881⟩
def MEAS_THRESH.HYST : Fld := ⟨0x054, 31, 16, 0⟩
def MEAS_THRESH.THRESH : Fld := ⟨0x054, 15, 0, 0⟩
def MEAS_RECORDS.COUNT : Fld := ⟨0x058, 31, 0, 0⟩
def MEAS_INVALID.COUNT : Fld := ⟨0x05c, 31, 0, 0⟩

/-! DEN -/

def DEN_SRC.BRICK : Fld := ⟨0x040, 23, 16, 0⟩
def DEN_SRC.INPUT : Fld := ⟨0x040, 9, 8, 0⟩
def DEN_SRC.TYPE : Fld := ⟨0x040, 1, 0, 0⟩
def DEN_GEOM.ROWS : Fld := ⟨0x044, 25, 16, 512⟩
def DEN_GEOM.COLUMNS : Fld := ⟨0x044, 11, 0, 2048⟩
def DEN_VAL_FIRST.FIRST : Fld := ⟨0x048, 19, 0, 0⟩
def DEN_VAL_COUNT.COUNT : Fld := ⟨0x04c, 19, 0, 512⟩
def DEN_SCALE.STEP : Fld := ⟨0x050, 31, 16, 64⟩
def DEN_SCALE.BOTTOM : Fld := ⟨0x050, 15, 0, 32768⟩
def DEN_MODE.DRAW : Fld := ⟨0x054, 8, 8, 1⟩
def DEN_MODE.SHIFT : Fld := ⟨0x054, 6, 2, 3⟩
def DEN_MODE.DECAY : Fld := ⟨0x054, 1, 0, 1⟩
def DEN_FRAME.PERIODS : Fld := ⟨0x058, 22, 0, 16000⟩
def DEN_CLOSE.TICKS : Fld := ⟨0x05c, 22, 0, 8192⟩
def DEN_REPORT.COURSES : Fld := ⟨0x060, 19, 16, 0⟩
def DEN_REPORT.RECT_EN : Fld := ⟨0x060, 15, 0, 0⟩
def DEN_RECT_SEL.RECT : Fld := ⟨0x064, 3, 0, 0⟩
def DEN_RECT_COLS.COL_HI : Fld := ⟨0x068, 27, 16, 0⟩
def DEN_RECT_COLS.COL_LO : Fld := ⟨0x068, 11, 0, 0⟩
def DEN_RECT_ROWS.ROW_HI : Fld := ⟨0x06c, 24, 16, 0⟩
def DEN_RECT_ROWS.ROW_LO : Fld := ⟨0x06c, 8, 0, 0⟩
def DEN_RECT_COUNT.COUNT : Fld := ⟨0x070, 31, 0, 0⟩
def DEN_PUB_CFG.EN : Fld := ⟨0x074, 31, 31, 0⟩
def DEN_PUB_CFG.REGION : Fld := ⟨0x074, 29, 24, 0⟩
def DEN_PUB_CFG.BUFS : Fld := ⟨0x074, 20, 16, 4⟩
def DEN_PUB_CFG.EVERY : Fld := ⟨0x074, 15, 0, 1⟩
def DEN_PUB_BYTES.B : Fld := ⟨0x078, 31, 0, 0⟩
def DEN_PUB_LAST.BUF : Fld := ⟨0x07c, 20, 16, 0⟩
def DEN_PUB_LAST.VALID : Fld := ⟨0x07c, 0, 0, 0⟩
def DEN_PUB_SEQ.SEQUENCE : Fld := ⟨0x080, 31, 0, 0⟩
def DEN_WF_CFG.EN : Fld := ⟨0x084, 31, 31, 0⟩
def DEN_WF_CFG.REGION : Fld := ⟨0x084, 29, 24, 0⟩
def DEN_WF_CFG.DETECT : Fld := ⟨0x084, 17, 16, 0⟩
def DEN_WF_LINES.LINES : Fld := ⟨0x088, 16, 0, 1024⟩
def DEN_WF_LAST.VALID : Fld := ⟨0x08c, 16, 16, 0⟩
def DEN_WF_LAST.LINE : Fld := ⟨0x08c, 15, 0, 0⟩
def DEN_SEQ.SEQUENCE : Fld := ⟨0x090, 31, 0, 0⟩
def DEN_SPECTRA.COUNT : Fld := ⟨0x094, 31, 0, 0⟩
def DEN_DISCARDS.LATE : Fld := ⟨0x098, 31, 16, 0⟩
def DEN_DISCARDS.OVERRUN : Fld := ⟨0x098, 15, 0, 0⟩
def DEN_IGNORED.COMPLEX : Fld := ⟨0x09c, 31, 16, 0⟩
def DEN_IGNORED.MISMATCH : Fld := ⟨0x09c, 15, 0, 0⟩
def DEN_SKIPS.WF : Fld := ⟨0x0a0, 31, 16, 0⟩
def DEN_SKIPS.PUB : Fld := ⟨0x0a0, 15, 0, 0⟩
def DEN_SAT.CELLS : Fld := ⟨0x0a4, 31, 0, 0⟩
def DEN_REPORT_DROPS.COUNT : Fld := ⟨0x0a8, 31, 0, 0⟩
def DEN_PHYS.SPARE_LEFT : Fld := ⟨0x0ac, 8, 8, 1⟩
def DEN_PHYS.ENGINE : Fld := ⟨0x0ac, 3, 0, 0⟩

/-! DISP -/

def DISP_PCLK.KHZ : Fld := ⟨0x040, 19, 0, 148500⟩
def DISP_H_ACT.TOTAL : Fld := ⟨0x044, 28, 16, 2200⟩
def DISP_H_ACT.ACTIVE : Fld := ⟨0x044, 12, 0, 1920⟩
def DISP_H_SYNC.POL : Fld := ⟨0x048, 31, 31, 0⟩
def DISP_H_SYNC.START : Fld := ⟨0x048, 28, 16, 88⟩
def DISP_H_SYNC.WIDTH : Fld := ⟨0x048, 12, 0, 44⟩
def DISP_V_ACT.TOTAL : Fld := ⟨0x04c, 28, 16, 1125⟩
def DISP_V_ACT.ACTIVE : Fld := ⟨0x04c, 12, 0, 1080⟩
def DISP_V_SYNC.POL : Fld := ⟨0x050, 31, 31, 0⟩
def DISP_V_SYNC.START : Fld := ⟨0x050, 28, 16, 4⟩
def DISP_V_SYNC.WIDTH : Fld := ⟨0x050, 12, 0, 5⟩
def DISP_BG.RGB : Fld := ⟨0x054, 23, 0, 0⟩
def DISP_REFRESH.STATIC_FRAMES : Fld := ⟨0x058, 31, 16, 120⟩
def DISP_REFRESH.FLOOR : Fld := ⟨0x058, 15, 0, 24000⟩
def DISP_LINK.MAX_RATE : Fld := ⟨0x05c, 9, 8, 3⟩
def DISP_LINK.MAX_LANES : Fld := ⟨0x05c, 6, 4, 4⟩
def DISP_LINK.ADAPTIVE_EN : Fld := ⟨0x05c, 1, 1, 0⟩
def DISP_LINK.OUT_EN : Fld := ⟨0x05c, 0, 0, 0⟩
def DISP_LINK_STATUS.TRAINS : Fld := ⟨0x060, 31, 16, 0⟩
def DISP_LINK_STATUS.SINK_ADAPTIVE : Fld := ⟨0x060, 10, 10, 0⟩
def DISP_LINK_STATUS.RATE : Fld := ⟨0x060, 9, 8, 0⟩
def DISP_LINK_STATUS.LANES : Fld := ⟨0x060, 6, 4, 0⟩
def DISP_LINK_STATUS.TRAINED : Fld := ⟨0x060, 1, 1, 0⟩
def DISP_LINK_STATUS.HPD : Fld := ⟨0x060, 0, 0, 0⟩
def DISP_FRAME.FRAME : Fld := ⟨0x064, 31, 0, 0⟩
def DISP_APPLIED_FRAME.FRAME : Fld := ⟨0x068, 31, 0, 0⟩
def DISP_COMPOSED_FRAME.FRAME : Fld := ⟨0x06c, 31, 0, 0⟩
def DISP_LINE.EXTENDED : Fld := ⟨0x070, 17, 17, 0⟩
def DISP_LINE.IN_BLANK : Fld := ⟨0x070, 16, 16, 0⟩
def DISP_LINE.LINE : Fld := ⟨0x070, 12, 0, 0⟩
def DISP_UNDERRUN.COUNT : Fld := ⟨0x074, 31, 16, 0⟩
def DISP_UNDERRUN.LINE : Fld := ⟨0x074, 12, 0, 0⟩
def DISP_UNDERRUN_FRAME.FRAME : Fld := ⟨0x078, 31, 0, 0⟩
def DISP_RATE.MHZ : Fld := ⟨0x07c, 15, 0, 0⟩
def DISP_EDID_SEL.AUTO_INC : Fld := ⟨0x080, 16, 16, 0⟩
def DISP_EDID_SEL.BYTE : Fld := ⟨0x080, 9, 0, 0⟩
def DISP_EDID_DATA.DATA : Fld := ⟨0x084, 7, 0, 0⟩

/-! LAYER -/

def LAYER_CFG.GLOBAL_ALPHA : Fld := ⟨0x040, 31, 24, 255⟩
def LAYER_CFG.REGION : Fld := ⟨0x040, 13, 8, 0⟩
def LAYER_CFG.ENGINE : Fld := ⟨0x040, 6, 4, 0⟩
def LAYER_CFG.TYPE : Fld := ⟨0x040, 2, 0, 0⟩
def LAYER_POS.Y : Fld := ⟨0x044, 28, 16, 0⟩
def LAYER_POS.X : Fld := ⟨0x044, 12, 0, 0⟩
def LAYER_SIZE.H : Fld := ⟨0x048, 28, 16, 1⟩
def LAYER_SIZE.W : Fld := ⟨0x048, 12, 0, 1⟩
def LAYER_BASE.OFFSET : Fld := ⟨0x04c, 31, 0, 0⟩
def LAYER_STRIDE.BYTES : Fld := ⟨0x050, 17, 0, 0⟩
def LAYER_CMAP.SCALE : Fld := ⟨0x054, 31, 24, 16⟩
def LAYER_CMAP.SHIFT : Fld := ⟨0x054, 12, 8, 0⟩
def LAYER_CMAP.MODE : Fld := ⟨0x054, 0, 0, 1⟩
def LAYER_WF_SCALE.STEP : Fld := ⟨0x058, 31, 16, 128⟩
def LAYER_WF_SCALE.BOTTOM : Fld := ⟨0x058, 15, 0, 40960⟩
def LAYER_PAL_SEL.AUTO_INC : Fld := ⟨0x05c, 8, 8, 0⟩
def LAYER_PAL_SEL.ENTRY : Fld := ⟨0x05c, 7, 0, 0⟩
def LAYER_PAL_DATA.RGBA : Fld := ⟨0x060, 31, 0, 0⟩
def LAYER_RETIRE.FRAME : Fld := ⟨0x064, 31, 0, 0⟩
def LAYER_SRC_SEQ.SEQUENCE : Fld := ⟨0x068, 31, 0, 0⟩
def LAYER_UNMAPPED.COUNT : Fld := ⟨0x06c, 31, 0, 0⟩

/-! CMP -/

def CMP_LANE_SEL.LANE : Fld := ⟨0x040, 4, 0, 0⟩
def CMP_LANE_STATUS.PHYS : Fld := ⟨0x044, 21, 16, 0⟩
def CMP_LANE_STATUS.GROUP : Fld := ⟨0x044, 9, 8, 0⟩
def CMP_LANE_STATUS.QUEUED : Fld := ⟨0x044, 6, 4, 0⟩
def CMP_LANE_STATUS.STATE : Fld := ⟨0x044, 1, 0, 0⟩
def CMP_LANE_IN_LO.BYTES : Fld := ⟨0x048, 31, 0, 0⟩
def CMP_LANE_IN_HI.BYTES : Fld := ⟨0x04c, 31, 0, 0⟩
def CMP_LANE_OUT_LO.BYTES : Fld := ⟨0x050, 31, 0, 0⟩
def CMP_LANE_OUT_HI.BYTES : Fld := ⟨0x054, 31, 0, 0⟩
def CMP_LANE_JOBS.JOBS : Fld := ⟨0x058, 31, 0, 0⟩
def CMP_LANE_STORED.BLOCKS : Fld := ⟨0x05c, 31, 0, 0⟩
def CMP_LANE_STALL.CYCLES : Fld := ⟨0x060, 31, 0, 0⟩
def CMP_SW_SRC.REGION : Fld := ⟨0x080, 5, 0, 0⟩
def CMP_SW_SRC_OFS_LO.OFFSET : Fld := ⟨0x084, 31, 0, 0⟩
def CMP_SW_SRC_OFS_HI.OFFSET : Fld := ⟨0x088, 31, 0, 0⟩
def CMP_SW_LEN.LEN : Fld := ⟨0x08c, 20, 0, 0⟩
def CMP_SW_DST.REGION : Fld := ⟨0x090, 5, 0, 0⟩
def CMP_SW_DST_OFS_LO.OFFSET : Fld := ⟨0x094, 31, 0, 0⟩
def CMP_SW_DST_OFS_HI.OFFSET : Fld := ⟨0x098, 31, 0, 0⟩
def CMP_SW_TAG.TAG : Fld := ⟨0x09c, 31, 0, 0⟩
def CMP_SW_SUBMIT.LANE : Fld := ⟨0x0a0, 20, 16, 0⟩
def CMP_SW_SUBMIT.GO : Fld := ⟨0x0a0, 0, 0, 0⟩
def CMP_SW_STATUS.REFUSED : Fld := ⟨0x0a4, 31, 16, 0⟩
def CMP_SW_STATUS.LAST_REASON : Fld := ⟨0x0a4, 2, 1, 0⟩
def CMP_SW_STATUS.LAST_REFUSED : Fld := ⟨0x0a4, 0, 0, 0⟩
def CMP_RES_HDR.SEQ : Fld := ⟨0x0c0, 31, 16, 0⟩
def CMP_RES_HDR.LANE : Fld := ⟨0x0c0, 12, 8, 0⟩
def CMP_RES_HDR.STATUS : Fld := ⟨0x0c0, 7, 4, 0⟩
def CMP_RES_HDR.POISONED : Fld := ⟨0x0c0, 3, 3, 0⟩
def CMP_RES_HDR.UNMAPPED : Fld := ⟨0x0c0, 2, 2, 0⟩
def CMP_RES_HDR.VALID : Fld := ⟨0x0c0, 0, 0, 0⟩
def CMP_RES_TAG.TAG : Fld := ⟨0x0c4, 31, 0, 0⟩
def CMP_RES_IN.BYTES : Fld := ⟨0x0c8, 20, 0, 0⟩
def CMP_RES_OUT.BYTES : Fld := ⟨0x0cc, 20, 0, 0⟩
def CMP_RES_RAW_CRC.CRC : Fld := ⟨0x0d0, 31, 0, 0⟩
def CMP_RES_PAY_CRC.CRC : Fld := ⟨0x0d4, 31, 0, 0⟩
def CMP_RES_BLOCKS.STORED : Fld := ⟨0x0d8, 31, 16, 0⟩
def CMP_RES_BLOCKS.BLOCKS : Fld := ⟨0x0d8, 15, 0, 0⟩
def CMP_RES_POISON_OFS.OFFSET : Fld := ⟨0x0dc, 20, 0, 0⟩
def CMP_RES_POP.POP : Fld := ⟨0x0e0, 0, 0, 0⟩
def CMP_RES_STATUS.OVERFLOW : Fld := ⟨0x0e4, 31, 16, 0⟩
def CMP_RES_STATUS.LEVEL : Fld := ⟨0x0e4, 6, 0, 0⟩
def CMP_SPARES.SPARE_25 : Fld := ⟨0x0f0, 9, 9, 1⟩
def CMP_SPARES.SPARE_8 : Fld := ⟨0x0f0, 8, 8, 1⟩

/-! DCM -/

def DCM_LANE_SEL.LANE : Fld := ⟨0x040, 2, 0, 0⟩
def DCM_LANE_STATUS.QUEUED : Fld := ⟨0x044, 6, 4, 0⟩
def DCM_LANE_STATUS.STATE : Fld := ⟨0x044, 1, 0, 0⟩
def DCM_LANE_OUT_LO.BYTES : Fld := ⟨0x048, 31, 0, 0⟩
def DCM_LANE_OUT_HI.BYTES : Fld := ⟨0x04c, 31, 0, 0⟩
def DCM_LANE_ERRORS.COUNT : Fld := ⟨0x050, 31, 0, 0⟩
def DCM_SW_SRC.REGION : Fld := ⟨0x080, 5, 0, 0⟩
def DCM_SW_SRC_OFS_LO.OFFSET : Fld := ⟨0x084, 31, 0, 0⟩
def DCM_SW_SRC_OFS_HI.OFFSET : Fld := ⟨0x088, 31, 0, 0⟩
def DCM_SW_SRC_LEN.LEN : Fld := ⟨0x08c, 31, 0, 0⟩
def DCM_SW_DST.REGION : Fld := ⟨0x090, 5, 0, 0⟩
def DCM_SW_DST_OFS_LO.OFFSET : Fld := ⟨0x094, 31, 0, 0⟩
def DCM_SW_DST_OFS_HI.OFFSET : Fld := ⟨0x098, 31, 0, 0⟩
def DCM_SW_OUT_LEN.LEN : Fld := ⟨0x09c, 31, 0, 0⟩
def DCM_SW_MODE.CHECK_EN : Fld := ⟨0x0a0, 4, 4, 0⟩
def DCM_SW_MODE.WRAP : Fld := ⟨0x0a0, 1, 0, 0⟩
def DCM_SW_CHECK.CRC : Fld := ⟨0x0a4, 31, 0, 0⟩
def DCM_SW_TAG.TAG : Fld := ⟨0x0a8, 31, 0, 0⟩
def DCM_SW_SUBMIT.LANE : Fld := ⟨0x0ac, 18, 16, 0⟩
def DCM_SW_SUBMIT.GO : Fld := ⟨0x0ac, 0, 0, 0⟩
def DCM_SW_STATUS.REFUSED : Fld := ⟨0x0b0, 31, 16, 0⟩
def DCM_SW_STATUS.LAST_REASON : Fld := ⟨0x0b0, 2, 1, 0⟩
def DCM_SW_STATUS.LAST_REFUSED : Fld := ⟨0x0b0, 0, 0, 0⟩
def DCM_RES_HDR.SEQ : Fld := ⟨0x0c0, 31, 16, 0⟩
def DCM_RES_HDR.LANE : Fld := ⟨0x0c0, 14, 12, 0⟩
def DCM_RES_HDR.RESULT : Fld := ⟨0x0c0, 11, 8, 0⟩
def DCM_RES_HDR.DETAIL : Fld := ⟨0x0c0, 7, 5, 0⟩
def DCM_RES_HDR.SHORT : Fld := ⟨0x0c0, 4, 4, 0⟩
def DCM_RES_HDR.VALID : Fld := ⟨0x0c0, 0, 0, 0⟩
def DCM_RES_TAG.TAG : Fld := ⟨0x0c4, 31, 0, 0⟩
def DCM_RES_IN_BIT_LO.BIT : Fld := ⟨0x0c8, 31, 0, 0⟩
def DCM_RES_IN_BIT_HI.BIT : Fld := ⟨0x0cc, 31, 0, 0⟩
def DCM_RES_OUT_BYTE.BYTES : Fld := ⟨0x0d0, 31, 0, 0⟩
def DCM_RES_TRAILING.BYTES : Fld := ⟨0x0d4, 31, 0, 0⟩
def DCM_RES_POP.POP : Fld := ⟨0x0d8, 0, 0, 0⟩
def DCM_RES_STATUS.OVERFLOW : Fld := ⟨0x0dc, 31, 16, 0⟩
def DCM_RES_STATUS.LEVEL : Fld := ⟨0x0dc, 6, 0, 0⟩

/-! STR -/

def STR_VOL_CFG.WRITE_CACHE : Fld := ⟨0x040, 16, 16, 0⟩
def STR_VOL_CFG.SPARE_PORT : Fld := ⟨0x040, 11, 8, 15⟩
def STR_VOL_CFG.MEMBERS : Fld := ⟨0x040, 7, 0, 255⟩
def STR_VOL_EXTENT.BLOCKS : Fld := ⟨0x044, 24, 0, 262144⟩
def STR_VOL_CKPT.MS : Fld := ⟨0x048, 15, 0, 1000⟩
def STR_VOL_CMD.PORT : Fld := ⟨0x04c, 19, 16, 0⟩
def STR_VOL_CMD.CMD : Fld := ⟨0x04c, 2, 0, 0⟩
def STR_VOL_STATUS.ACTIVE : Fld := ⟨0x050, 31, 24, 0⟩
def STR_VOL_STATUS.RETIRED : Fld := ⟨0x050, 23, 16, 0⟩
def STR_VOL_STATUS.SPARE : Fld := ⟨0x050, 15, 12, 15⟩
def STR_VOL_STATUS.RESULT : Fld := ⟨0x050, 11, 8, 0⟩
def STR_VOL_STATUS.FULL : Fld := ⟨0x050, 7, 7, 0⟩
def STR_VOL_STATUS.STATE : Fld := ⟨0x050, 2, 0, 0⟩
def STR_VOL_ID_LO.ID : Fld := ⟨0x054, 31, 0, 0⟩
def STR_VOL_ID_HI.ID : Fld := ⟨0x058, 31, 0, 0⟩
def STR_VOL_GEN.GENERATION : Fld := ⟨0x05c, 31, 0, 0⟩
def STR_RETIRE.POLL_S : Fld := ⟨0x060, 31, 16, 60⟩
def STR_RETIRE.PCT : Fld := ⟨0x060, 7, 0, 90⟩
def STR_SEL.STREAM : Fld := ⟨0x080, 3, 0, 0⟩
def STR_CFG.HOST_QUEUE : Fld := ⟨0x084, 13, 8, 0⟩
def STR_CFG.ENCODING : Fld := ⟨0x084, 2, 2, 0⟩
def STR_CFG.DEST : Fld := ⟨0x084, 1, 1, 0⟩
def STR_CFG.OPEN : Fld := ⟨0x084, 0, 0, 0⟩
def STR_CAPTURES.CAPTURES : Fld := ⟨0x088, 31, 0, 0⟩
def STR_LANES.LANES : Fld := ⟨0x08c, 31, 0, 4294967295⟩
def STR_PORTS.PORTS : Fld := ⟨0x090, 7, 0, 255⟩
def STR_STATUS.PENDING : Fld := ⟨0x094, 31, 16, 0⟩
def STR_STATUS.STATE : Fld := ⟨0x094, 1, 0, 0⟩
def STR_ID.STREAM_ID : Fld := ⟨0x098, 31, 0, 0⟩
def STR_SEQ.SEQ : Fld := ⟨0x09c, 31, 0, 0⟩
def STR_RAW_LO.BYTES : Fld := ⟨0x0a0, 31, 0, 0⟩
def STR_RAW_HI.BYTES : Fld := ⟨0x0a4, 31, 0, 0⟩
def STR_WRITTEN_LO.BYTES : Fld := ⟨0x0a8, 31, 0, 0⟩
def STR_WRITTEN_HI.BYTES : Fld := ⟨0x0ac, 31, 0, 0⟩
def STR_RECORDS.RECORDS : Fld := ⟨0x0b0, 31, 0, 0⟩
def STR_REISSUE.LANE_FAULTS : Fld := ⟨0x0b4, 31, 16, 0⟩
def STR_REISSUE.FRAMES : Fld := ⟨0x0b4, 15, 0, 0⟩
def STR_RB_CTRL.EN : Fld := ⟨0x100, 31, 31, 0⟩
def STR_RB_CTRL.DCM_LANE : Fld := ⟨0x100, 22, 20, 0⟩
def STR_RB_CTRL.SCRATCH : Fld := ⟨0x100, 13, 8, 0⟩
def STR_RB_CTRL.DST : Fld := ⟨0x100, 5, 0, 0⟩
def STR_RB_STREAM.STREAM_ID : Fld := ⟨0x104, 31, 0, 0⟩
def STR_RB_FIRST.SEQ : Fld := ⟨0x108, 31, 0, 0⟩
def STR_RB_COUNT.RECORDS : Fld := ⟨0x10c, 19, 0, 1⟩
def STR_RB_SEG.SEGMENT : Fld := ⟨0x110, 19, 0, 0⟩
def STR_RB_SEG_SIZE.SIZE : Fld := ⟨0x114, 24, 0, 1⟩
def STR_RB_STATUS.RESULT : Fld := ⟨0x118, 31, 28, 0⟩
def STR_RB_STATUS.DCM_CODE : Fld := ⟨0x118, 27, 24, 0⟩
def STR_RB_STATUS.BUSY : Fld := ⟨0x118, 20, 20, 0⟩
def STR_RB_STATUS.DONE : Fld := ⟨0x118, 19, 0, 0⟩
def STR_RB_ERR_SEQ.SEQ : Fld := ⟨0x11c, 31, 0, 0⟩

/-! NVP -/

def NVP_CFG.EN : Fld := ⟨0x040, 8, 8, 1⟩
def NVP_CFG.MAX_SPEED : Fld := ⟨0x040, 2, 0, 5⟩
def NVP_LINK.WIDTH : Fld := ⟨0x044, 19, 16, 0⟩
def NVP_LINK.UP : Fld := ⟨0x044, 8, 8, 0⟩
def NVP_LINK.SPEED : Fld := ⟨0x044, 2, 0, 0⟩
def NVP_DRIVE.LEDGER : Fld := ⟨0x048, 31, 24, 255⟩
def NVP_DRIVE.REFUSE : Fld := ⟨0x048, 15, 12, 0⟩
def NVP_DRIVE.ROLE : Fld := ⟨0x048, 9, 8, 0⟩
def NVP_DRIVE.STATE : Fld := ⟨0x048, 2, 0, 0⟩
def NVP_ID_SEL.WORD : Fld := ⟨0x04c, 4, 0, 0⟩
def NVP_ID_DATA.DATA : Fld := ⟨0x050, 31, 0, 0⟩
def NVP_NSZE_LO.BLOCKS : Fld := ⟨0x054, 31, 0, 0⟩
def NVP_NSZE_HI.BLOCKS : Fld := ⟨0x058, 31, 0, 0⟩
def NVP_CAPS.MAX_XFER : Fld := ⟨0x05c, 31, 16, 0⟩
def NVP_CAPS.DSM : Fld := ⟨0x05c, 2, 2, 0⟩
def NVP_CAPS.VWC : Fld := ⟨0x05c, 1, 1, 0⟩
def NVP_CAPS.VWC_ON : Fld := ⟨0x05c, 0, 0, 0⟩
def NVP_HEALTH.TEMP : Fld := ⟨0x060, 31, 16, 0⟩
def NVP_HEALTH.CRIT : Fld := ⟨0x060, 15, 8, 0⟩
def NVP_HEALTH.PCT_USED : Fld := ⟨0x060, 7, 0, 0⟩
def NVP_WRITTEN_LO.BYTES : Fld := ⟨0x064, 31, 0, 0⟩
def NVP_WRITTEN_HI.BYTES : Fld := ⟨0x068, 31, 0, 0⟩
def NVP_ALLOC_LO.LBA : Fld := ⟨0x06c, 31, 0, 0⟩
def NVP_ALLOC_HI.LBA : Fld := ⟨0x070, 31, 0, 0⟩
def NVP_IO.ERRORS : Fld := ⟨0x074, 31, 16, 0⟩
def NVP_IO.TIMEOUTS : Fld := ⟨0x074, 15, 8, 0⟩
def NVP_IO.OUTSTANDING : Fld := ⟨0x074, 7, 0, 0⟩
def NVP_LAST_ERR.OPCODE : Fld := ⟨0x078, 23, 16, 0⟩
def NVP_LAST_ERR.SCT : Fld := ⟨0x078, 10, 8, 0⟩
def NVP_LAST_ERR.SC : Fld := ⟨0x078, 7, 0, 0⟩
def NVP_FRAMES.FRAMES : Fld := ⟨0x07c, 31, 0, 0⟩
def NVP_RETIRE.REQ : Fld := ⟨0x080, 0, 0, 0⟩

/-! IO -/

def IO_INBOX_WR.OFS : Fld := ⟨0x000, 19, 0, 0⟩
def IO_INBOX_RD.OFS : Fld := ⟨0x004, 19, 0, 0⟩
def IO_REC_HDR.VALID : Fld := ⟨0x010, 31, 31, 0⟩
def IO_REC_HDR.HAS_SLOT : Fld := ⟨0x010, 30, 30, 0⟩
def IO_REC_HDR.CAPTURE : Fld := ⟨0x010, 29, 25, 0⟩
def IO_REC_HDR.REGION : Fld := ⟨0x010, 24, 19, 0⟩
def IO_REC_SEGMENT.SEGMENT : Fld := ⟨0x014, 19, 0, 0⟩
def IO_REC_SEG_LO.OFS : Fld := ⟨0x018, 31, 0, 0⟩
def IO_REC_SEG_HI.OFS : Fld := ⟨0x01c, 31, 0, 0⟩
def IO_REC_SLOT_LO.OFS : Fld := ⟨0x020, 31, 0, 0⟩
def IO_REC_SLOT_HI.OFS : Fld := ⟨0x024, 31, 0, 0⟩
def IO_REC_TRIG_LO.TIME : Fld := ⟨0x028, 31, 0, 0⟩
def IO_REC_TRIG_HI.TIME : Fld := ⟨0x02c, 31, 0, 0⟩
def IO_REC_POP.POP : Fld := ⟨0x030, 0, 0, 0⟩
def IO_DMA_LOCAL.ADDR : Fld := ⟨0x040, 19, 0, 0⟩
def IO_DMA_REGION.REGION : Fld := ⟨0x044, 5, 0, 0⟩
def IO_DMA_OFS_LO.OFS : Fld := ⟨0x048, 31, 0, 0⟩
def IO_DMA_OFS_HI.OFS : Fld := ⟨0x04c, 31, 0, 0⟩
def IO_DMA_LEN.LEN : Fld := ⟨0x050, 20, 0, 0⟩
def IO_DMA_GO.DIR : Fld := ⟨0x054, 8, 8, 0⟩
def IO_DMA_GO.TAG : Fld := ⟨0x054, 7, 0, 0⟩
def IO_DMA_DONE.VALID : Fld := ⟨0x058, 31, 31, 0⟩
def IO_DMA_DONE.QUEUED : Fld := ⟨0x058, 19, 16, 0⟩
def IO_DMA_DONE.STATUS : Fld := ⟨0x058, 10, 8, 0⟩
def IO_DMA_DONE.TAG : Fld := ⟨0x058, 7, 0, 0⟩
def IO_DMA_POP.POP : Fld := ⟨0x05c, 0, 0, 0⟩
def IO_TIME_LO.TIME : Fld := ⟨0x060, 31, 0, 0⟩
def IO_TIME_HI.TIME : Fld := ⟨0x064, 31, 0, 0⟩
def IO_TIMER_LO.TIME : Fld := ⟨0x068, 31, 0, 0⟩
def IO_TIMER_HI.TIME : Fld := ⟨0x06c, 31, 0, 0⟩
def IO_IRQ_PEND.PEND : Fld := ⟨0x070, 10, 0, 0⟩
def IO_IRQ_CLR.CLR : Fld := ⟨0x074, 6, 3, 0⟩
def IO_IRQ_EN.EN : Fld := ⟨0x078, 6, 0, 0⟩
def IO_IRQ_LEVEL.L2 : Fld := ⟨0x07c, 6, 0, 0⟩
def IO_SOFT.SET : Fld := ⟨0x080, 0, 0, 0⟩
def IO_MBOX_IN.DATA : Fld := ⟨0x084, 31, 0, 0⟩
def IO_MBOX_OUT.DATA : Fld := ⟨0x088, 31, 0, 0⟩
def IO_CORE_ID.KIND : Fld := ⟨0x08c, 8, 8, 0⟩
def IO_CORE_ID.CORE : Fld := ⟨0x08c, 4, 0, 0⟩

/-! CORE -/

def CORE_ENTRY.ADDR : Fld := ⟨0x040, 17, 0, 0⟩
def CORE_PC.PC : Fld := ⟨0x044, 31, 0, 0⟩
def CORE_SR.SR : Fld := ⟨0x048, 31, 0, 0⟩
def CORE_INBOX.EN : Fld := ⟨0x04c, 31, 31, 0⟩
def CORE_INBOX.BASE : Fld := ⟨0x04c, 19, 0, 0⟩
def CORE_INBOX_SIZE.SIZE : Fld := ⟨0x050, 20, 0, 65536⟩
def CORE_REC_CAPS.CAPTURES : Fld := ⟨0x054, 31, 0, 0⟩
def CORE_REC_SLOT.SLOT : Fld := ⟨0x058, 3, 0, 0⟩
def CORE_MBOX_IN.DATA : Fld := ⟨0x05c, 31, 0, 0⟩
def CORE_MBOX_OUT.DATA : Fld := ⟨0x060, 31, 0, 0⟩
def CORE_MEM_SEL.SPACE : Fld := ⟨0x064, 31, 31, 0⟩
def CORE_MEM_SEL.AUTO_INC : Fld := ⟨0x064, 30, 30, 0⟩
def CORE_MEM_SEL.ADDR : Fld := ⟨0x064, 19, 0, 0⟩
def CORE_MEM_DATA.DATA : Fld := ⟨0x068, 31, 0, 0⟩
def CORE_BOOT_SRC.REGION : Fld := ⟨0x06c, 5, 0, 0⟩
def CORE_BOOT_OFS_LO.OFS : Fld := ⟨0x070, 31, 0, 0⟩
def CORE_BOOT_OFS_HI.OFS : Fld := ⟨0x074, 31, 0, 0⟩
def CORE_BOOT_LEN.LEN : Fld := ⟨0x078, 18, 0, 0⟩
def CORE_BOOT_CTRL.GO : Fld := ⟨0x07c, 0, 0, 0⟩
def CORE_BOOT_STATUS.RESULT : Fld := ⟨0x080, 7, 4, 0⟩
def CORE_BOOT_STATUS.STATE : Fld := ⟨0x080, 1, 0, 0⟩
def CORE_EXC_PC.PC : Fld := ⟨0x084, 31, 0, 0⟩
def CORE_EXC_INFO.DOUBLE : Fld := ⟨0x088, 31, 31, 0⟩
def CORE_EXC_INFO.SOURCE : Fld := ⟨0x088, 19, 16, 0⟩
def CORE_EXC_INFO.COUNT : Fld := ⟨0x088, 15, 0, 0⟩
def CORE_EXC_ADDR.ADDR : Fld := ⟨0x08c, 31, 0, 0⟩
def CORE_BUSY_LO.CYCLES : Fld := ⟨0x090, 31, 0, 0⟩
def CORE_BUSY_HI.CYCLES : Fld := ⟨0x094, 31, 0, 0⟩
def CORE_INBOX_DROPS.ENTRIES : Fld := ⟨0x098, 31, 0, 0⟩
def CORE_REC_LOST.NOTICES : Fld := ⟨0x09c, 31, 0, 0⟩
def CORE_DMA_REFUSED.PUSHES : Fld := ⟨0x0a0, 31, 0, 0⟩
def CORE_ECC.UNCORR : Fld := ⟨0x0a4, 31, 16, 0⟩
def CORE_ECC.CORR : Fld := ⟨0x0a4, 15, 0, 0⟩
def CORE_PHYS.SPARE_LEFT : Fld := ⟨0x0a8, 8, 8, 1⟩
def CORE_PHYS.PHYS : Fld := ⟨0x0a8, 4, 0, 0⟩

/-! FLT -/

def FLT_SRC_SEL.SOURCE : Fld := ⟨0x040, 9, 0, 0⟩
def FLT_SRC_THRESH.N : Fld := ⟨0x044, 15, 0, 0⟩
def FLT_SRC_WINDOW.MS : Fld := ⟨0x048, 22, 0, 0⟩
def FLT_SRC_REACT.ON_SEVERE : Fld := ⟨0x04c, 13, 8, 0⟩
def FLT_SRC_REACT.ON_EVENT : Fld := ⟨0x04c, 5, 0, 1⟩
def FLT_SRC_STATE.BUCKET : Fld := ⟨0x050, 31, 16, 0⟩
def FLT_SRC_STATE.LIVE : Fld := ⟨0x050, 2, 2, 0⟩
def FLT_SRC_STATE.SEVERE : Fld := ⟨0x050, 1, 1, 0⟩
def FLT_SRC_STATE.LATCHED : Fld := ⟨0x050, 0, 0, 0⟩
def FLT_REC_FLAGS.COUNT : Fld := ⟨0x054, 31, 16, 0⟩
def FLT_REC_FLAGS.KIND : Fld := ⟨0x054, 4, 4, 0⟩
def FLT_REC_FLAGS.REAL_AND_INJECTED : Fld := ⟨0x054, 3, 3, 0⟩
def FLT_REC_FLAGS.INJECTED : Fld := ⟨0x054, 2, 2, 0⟩
def FLT_REC_FLAGS.SEVERE_SEEN : Fld := ⟨0x054, 1, 1, 0⟩
def FLT_REC_TIME_LO.TIME : Fld := ⟨0x058, 31, 0, 0⟩
def FLT_REC_TIME_HI.TIME : Fld := ⟨0x05c, 31, 0, 0⟩
def FLT_REC_SYND.SYNDROME : Fld := ⟨0x060, 31, 0, 0⟩
def FLT_REC_LAST_LO.TIME : Fld := ⟨0x064, 31, 0, 0⟩
def FLT_REC_LAST_HI.TIME : Fld := ⟨0x068, 31, 0, 0⟩
def FLT_SRC_INJECTED.COUNT : Fld := ⟨0x06c, 31, 0, 0⟩
def FLT_SRC_SEVERE.COUNT : Fld := ⟨0x070, 15, 0, 0⟩
def FLT_REC_CLR.CLR : Fld := ⟨0x074, 0, 0, 0⟩
def FLT_CLR_ALL.CLR : Fld := ⟨0x078, 0, 0, 0⟩
def FLT_FIRST.VALID : Fld := ⟨0x080, 31, 31, 0⟩
def FLT_FIRST.SOURCE : Fld := ⟨0x080, 9, 0, 0⟩
def FLT_FIRST_TIME_LO.TIME : Fld := ⟨0x084, 31, 0, 0⟩
def FLT_FIRST_TIME_HI.TIME : Fld := ⟨0x088, 31, 0, 0⟩
def FLT_PENDING.RECORDS : Fld := ⟨0x08c, 15, 0, 0⟩
def FLT_FAULTN.SOURCE : Fld := ⟨0x090, 25, 16, 0⟩
def FLT_FAULTN.ASSERTED : Fld := ⟨0x090, 0, 0, 0⟩
def FLT_LOG_HDR.SOURCE : Fld := ⟨0x0a0, 25, 16, 0⟩
def FLT_LOG_HDR.SEQ : Fld := ⟨0x0a0, 15, 8, 0⟩
def FLT_LOG_HDR.LEVEL : Fld := ⟨0x0a0, 5, 5, 0⟩
def FLT_LOG_HDR.KIND : Fld := ⟨0x0a0, 4, 4, 0⟩
def FLT_LOG_HDR.REAL_AND_INJECTED : Fld := ⟨0x0a0, 3, 3, 0⟩
def FLT_LOG_HDR.INJECTED : Fld := ⟨0x0a0, 2, 2, 0⟩
def FLT_LOG_HDR.VALID : Fld := ⟨0x0a0, 0, 0, 0⟩
def FLT_LOG_TIME_LO.TIME : Fld := ⟨0x0a4, 31, 0, 0⟩
def FLT_LOG_TIME_HI.TIME : Fld := ⟨0x0a8, 31, 0, 0⟩
def FLT_LOG_SYND.SYNDROME : Fld := ⟨0x0ac, 31, 0, 0⟩
def FLT_LOG_POP.POP : Fld := ⟨0x0b0, 0, 0, 0⟩
def FLT_LOG_STATUS.OVERFLOW : Fld := ⟨0x0b4, 31, 16, 0⟩
def FLT_LOG_STATUS.LEVEL : Fld := ⟨0x0b4, 8, 0, 0⟩
def FLT_SAFE_STOP.ACTIVE : Fld := ⟨0x0c0, 31, 31, 0⟩
def FLT_SAFE_STOP.SOURCE : Fld := ⟨0x0c0, 9, 0, 0⟩
def FLT_LEG_STATUS.FATAL : Fld := ⟨0x200, 2, 2, 0⟩
def FLT_LEG_STATUS.CONTAINED : Fld := ⟨0x200, 1, 1, 0⟩
def FLT_LEG_STATUS.CORRECTED : Fld := ⟨0x200, 0, 0, 0⟩
def FLT_LEG_CORR.COUNT : Fld := ⟨0x204, 31, 0, 0⟩
def FLT_LEG_CONT.COUNT : Fld := ⟨0x208, 31, 0, 0⟩
def FLT_LEG_FATAL.COUNT : Fld := ⟨0x20c, 31, 0, 0⟩
def FLT_LEG_SEL.CLASS : Fld := ⟨0x210, 1, 0, 0⟩
def FLT_LEG_FIRST_SRC.SOURCE : Fld := ⟨0x214, 9, 0, 0⟩
def FLT_LEG_FIRST_TIME_LO.TIME : Fld := ⟨0x218, 31, 0, 0⟩
def FLT_LEG_FIRST_TIME_HI.TIME : Fld := ⟨0x21c, 31, 0, 0⟩
def FLT_LEG_FIRST_SYND.SYNDROME : Fld := ⟨0x220, 31, 0, 0⟩

/-! SAF -/

def SAF_WALL.SECONDS : Fld := ⟨0x040, 31, 0, 0⟩
def SAF_VIN.POWER : Fld := ⟨0x044, 31, 16, 0⟩
def SAF_VIN.VOLTS : Fld := ⟨0x044, 15, 0, 0⟩
def SAF_TEMP_SEL.DIE : Fld := ⟨0x048, 2, 0, 0⟩
def SAF_TEMP.PEAK : Fld := ⟨0x04c, 31, 16, 0⟩
def SAF_TEMP.NOW : Fld := ⟨0x04c, 15, 0, 0⟩
def SAF_THERM.WARN : Fld := ⟨0x050, 15, 0, 25600⟩
def SAF_FLOOR.FLOOR : Fld := ⟨0x054, 15, 0, 0⟩
def SAF_FLOOR_HITS.COUNT : Fld := ⟨0x058, 31, 0, 0⟩
def SAF_INJ_SEL.CHECKER : Fld := ⟨0x05c, 25, 24, 0⟩
def SAF_INJ_SEL.INSTANCE : Fld := ⟨0x05c, 21, 16, 0⟩
def SAF_INJ_SEL.MODE : Fld := ⟨0x05c, 0, 0, 0⟩
def SAF_INJ_COUNT.REMAINING : Fld := ⟨0x060, 31, 16, 0⟩
def SAF_INJ_COUNT.COUNT : Fld := ⟨0x060, 15, 0, 0⟩
def SAF_LEDGER_SEL.ENTRY : Fld := ⟨0x070, 13, 0, 0⟩
def SAF_LEDGER_DATA.DATA (k : Nat) : Fld := ⟨0x074 + 4 * k, 31, 0, 0⟩
def SAF_LEDGER_COUNT.UNRECORDED : Fld := ⟨0x094, 31, 16, 0⟩
def SAF_LEDGER_COUNT.ENTRIES : Fld := ⟨0x094, 14, 0, 0⟩
def SAF_DRIVE_SEL.RECORD : Fld := ⟨0x098, 5, 0, 0⟩
def SAF_DRIVE_DATA.DATA (k : Nat) : Fld := ⟨0x09c + 4 * k, 31, 0, 0⟩

/-! MGT -/

def MGT_REQ_OFS.OFFSET : Fld := ⟨0x040, 25, 0, 0⟩
def MGT_REQ_DATA.DATA : Fld := ⟨0x044, 31, 0, 0⟩
def MGT_REQ_KIND.KIND : Fld := ⟨0x048, 1, 0, 0⟩
def MGT_REQ_GO.GO : Fld := ⟨0x04c, 0, 0, 0⟩
def MGT_RESP.SEQ : Fld := ⟨0x050, 31, 16, 0⟩
def MGT_RESP.REASON : Fld := ⟨0x050, 15, 8, 0⟩
def MGT_RESP.STATE : Fld := ⟨0x050, 2, 0, 0⟩
def MGT_REQ_TIMEOUT.MS : Fld := ⟨0x054, 15, 0, 1000⟩
def MGT_REQ_STATS.REFUSED_BUSY : Fld := ⟨0x058, 15, 0, 0⟩
def MGT_ALERT.CAUSE : Fld := ⟨0x05c, 4, 0, 0⟩
def MGT_SUBST.KIND : Fld := ⟨0x060, 31, 24, 0⟩
def MGT_SUBST.GO : Fld := ⟨0x060, 23, 23, 0⟩
def MGT_SUBST.LOGICAL : Fld := ⟨0x060, 15, 0, 0⟩
def MGT_SUBST_STATUS.RESULT : Fld := ⟨0x064, 1, 0, 0⟩
def MGT_PORT.PEC_ERRORS : Fld := ⟨0x068, 31, 16, 0⟩
def MGT_PORT.ADDR : Fld := ⟨0x068, 14, 8, 0⟩
def MGT_PORT.LATE : Fld := ⟨0x068, 1, 1, 0⟩
def MGT_PORT.SEL : Fld := ⟨0x068, 0, 0, 0⟩

/-! SYS -/

def SYS_PART.PART : Fld := ⟨0x040, 31, 16, 37462⟩
def SYS_PART.STEPPING : Fld := ⟨0x040, 15, 8, 161⟩
def SYS_PART.FAMILY : Fld := ⟨0x040, 7, 0, 1⟩
def SYS_SERIAL_LO.SERIAL : Fld := ⟨0x044, 31, 0, 0⟩
def SYS_SERIAL_HI.SERIAL : Fld := ⟨0x048, 31, 0, 0⟩
def SYS_DEV_FEATURES.FEATURES (k : Nat) : Fld := ⟨0x050 + 4 * k, 31, 0, 0⟩
def SYS_DRV_FEATURES.FEATURES (k : Nat) : Fld := ⟨0x060 + 4 * k, 31, 0, 0⟩
def SYS_FEATURES_CTRL.FEATURES_ERR : Fld := ⟨0x070, 1, 1, 0⟩
def SYS_FEATURES_CTRL.FEATURES_OK : Fld := ⟨0x070, 0, 0, 0⟩
def SYS_FEATURES_IN_FORCE.FEATURES (k : Nat) : Fld := ⟨0x080 + 4 * k, 31, 0, 0⟩
def SYS_REG_WIN.WIN_BASE : Fld := ⟨0x414, 16, 0, 0⟩
def SYS_GROUP_COMMIT.GROUP : Fld := ⟨0x420, 3, 0, 0⟩
def SYS_GROUP_STATUS.PAGE : Fld := ⟨0x424, 29, 16, 0⟩
def SYS_GROUP_STATUS.GROUP : Fld := ⟨0x424, 7, 4, 0⟩
def SYS_GROUP_STATUS.STATE : Fld := ⟨0x424, 1, 0, 0⟩
def SYS_IRQ_SEL.PAGE : Fld := ⟨0x440, 13, 0, 0⟩
def SYS_IRQ_ROUTE.VECTOR : Fld := ⟨0x444, 8, 0, 0⟩
def SYS_VEC_SEL.VECTOR : Fld := ⟨0x448, 8, 0, 64⟩
def SYS_VEC_STATUS.COUNT : Fld := ⟨0x44c, 31, 16, 0⟩
def SYS_VEC_STATUS.FIRST : Fld := ⟨0x44c, 13, 0, 0⟩
def SYS_VEC_EOI.VECTOR : Fld := ⟨0x450, 8, 0, 0⟩

/-! PCIE -/

def PCIE_LINK.WIDTH : Fld := ⟨0x040, 20, 16, 0⟩
def PCIE_LINK.TRAINED_WIDTH : Fld := ⟨0x040, 12, 8, 0⟩
def PCIE_LINK.SPEED : Fld := ⟨0x040, 2, 0, 0⟩
def PCIE_BAR2.LOG2_SIZE : Fld := ⟨0x044, 7, 0, 30⟩
def PCIE_ERRORS.UNCORR : Fld := ⟨0x048, 31, 16, 0⟩
def PCIE_ERRORS.CORR : Fld := ⟨0x048, 15, 0, 0⟩
def PCIE_UNCLAIMED.COUNT : Fld := ⟨0x04c, 31, 0, 0⟩
def PCIE_WIN_MISSES.COUNT : Fld := ⟨0x050, 31, 0, 0⟩
def PCIE_FLR.COUNT : Fld := ⟨0x054, 15, 0, 0⟩
def PCIE_Q_SEL.QUEUE : Fld := ⟨0x080, 5, 0, 0⟩
def PCIE_Q_CFG.LOG2_ENTRIES : Fld := ⟨0x084, 19, 16, 8⟩
def PCIE_Q_CFG.ACTIVITY : Fld := ⟨0x084, 13, 8, 0⟩
def PCIE_Q_CFG.KIND : Fld := ⟨0x084, 2, 1, 0⟩
def PCIE_Q_CFG.EN : Fld := ⟨0x084, 0, 0, 0⟩
def PCIE_Q_SQ_BASE_LO.ADDR : Fld := ⟨0x088, 31, 0, 0⟩
def PCIE_Q_SQ_BASE_HI.ADDR : Fld := ⟨0x08c, 31, 0, 0⟩
def PCIE_Q_CQ_BASE_LO.ADDR : Fld := ⟨0x090, 31, 0, 0⟩
def PCIE_Q_CQ_BASE_HI.ADDR : Fld := ⟨0x094, 31, 0, 0⟩
def PCIE_Q_IRQ.IRQ_USEC : Fld := ⟨0x098, 31, 16, 0⟩
def PCIE_Q_IRQ.IRQ_COUNT : Fld := ⟨0x098, 15, 0, 1⟩
def PCIE_Q_FLUSH.FLUSH_US : Fld := ⟨0x09c, 15, 0, 100⟩
def PCIE_Q_HEADS.CQ_TAIL : Fld := ⟨0x0a0, 31, 16, 0⟩
def PCIE_Q_HEADS.SQ_HEAD : Fld := ⟨0x0a0, 15, 0, 0⟩
def PCIE_Q_STATE.LAST_STATUS : Fld := ⟨0x0a4, 10, 8, 0⟩
def PCIE_Q_STATE.STATE : Fld := ⟨0x0a4, 1, 0, 0⟩
def PCIE_Q_DONE.COUNT : Fld := ⟨0x0a8, 31, 0, 0⟩
def PCIE_Q_DB_ERR.COUNT : Fld := ⟨0x0ac, 31, 0, 0⟩
def PCIE_Q_BYTES_LO.BYTES : Fld := ⟨0x0b0, 31, 0, 0⟩
def PCIE_Q_BYTES_HI.BYTES : Fld := ⟨0x0b4, 31, 0, 0⟩

/-! PWR -/

def PWR_TARGET.STATE : Fld := ⟨0x040, 2, 0, 0⟩
def PWR_LEAN.MAX_OVERLAP : Fld := ⟨0x044, 1, 0, 2⟩
def PWR_STATE.TRANSITIONS : Fld := ⟨0x048, 31, 16, 0⟩
def PWR_STATE.MOVING : Fld := ⟨0x048, 8, 8, 0⟩
def PWR_STATE.STATE : Fld := ⟨0x048, 2, 0, 5⟩
def PWR_START.READY_MS : Fld := ⟨0x04c, 31, 16, 0⟩
def PWR_START.REF_TIMEOUT : Fld := ⟨0x04c, 9, 9, 0⟩
def PWR_START.FAIL : Fld := ⟨0x04c, 8, 8, 0⟩
def PWR_START.STEP : Fld := ⟨0x04c, 3, 0, 1⟩
def PWR_REF_WAIT.MS : Fld := ⟨0x050, 15, 0, 2000⟩
def PWR_OFF.WAKE : Fld := ⟨0x054, 1, 1, 0⟩
def PWR_OFF.REQ : Fld := ⟨0x054, 0, 0, 0⟩
def PWR_EVENTS.PFW : Fld := ⟨0x058, 31, 16, 0⟩
def PWR_EVENTS.RESTARTS : Fld := ⟨0x058, 15, 0, 0⟩
def PWR_SNAP.SNAP : Fld := ⟨0x060, 0, 0, 0⟩
def PWR_SNAP_TIME_LO.TIME : Fld := ⟨0x064, 31, 0, 0⟩
def PWR_SNAP_TIME_HI.TIME : Fld := ⟨0x068, 31, 0, 0⟩
def PWR_ENERGY_SEL.COUNTER : Fld := ⟨0x06c, 5, 0, 0⟩
def PWR_ENERGY_LO.NJ : Fld := ⟨0x070, 31, 0, 0⟩
def PWR_ENERGY_HI.NJ : Fld := ⟨0x074, 31, 0, 0⟩
def PWR_WORK_SEL.COUNTER : Fld := ⟨0x078, 3, 0, 0⟩
def PWR_WORK_LO.COUNT : Fld := ⟨0x07c, 31, 0, 0⟩
def PWR_WORK_HI.COUNT : Fld := ⟨0x080, 31, 0, 0⟩

/-! DBG -/

def DBG_CORE_SEL.CORE : Fld := ⟨0x040, 4, 0, 0⟩
def DBG_CORE_CTRL.XH_GROUP : Fld := ⟨0x044, 13, 12, 0⟩
def DBG_CORE_CTRL.STEP_IRQ_MASK : Fld := ⟨0x044, 9, 9, 1⟩
def DBG_CORE_CTRL.BKPT_EN : Fld := ⟨0x044, 8, 8, 0⟩
def DBG_CORE_CTRL.STEP : Fld := ⟨0x044, 2, 2, 0⟩
def DBG_CORE_CTRL.RESUME : Fld := ⟨0x044, 1, 1, 0⟩
def DBG_CORE_CTRL.HALT : Fld := ⟨0x044, 0, 0, 0⟩
def DBG_CORE_STATUS.STEPPED : Fld := ⟨0x048, 15, 8, 0⟩
def DBG_CORE_STATUS.EXC_PENDING : Fld := ⟨0x048, 7, 7, 0⟩
def DBG_CORE_STATUS.SKID : Fld := ⟨0x048, 6, 6, 0⟩
def DBG_CORE_STATUS.INDEX : Fld := ⟨0x048, 5, 4, 0⟩
def DBG_CORE_STATUS.CAUSE : Fld := ⟨0x048, 3, 1, 0⟩
def DBG_CORE_STATUS.DEBUG_HALTED : Fld := ⟨0x048, 0, 0, 0⟩
def DBG_CORE_PC.PC : Fld := ⟨0x04c, 31, 0, 0⟩
def DBG_IBP.ADDR (k : Nat) : Fld := ⟨0x050 + 4 * k, 17, 2, 0⟩
def DBG_IBP.EN (k : Nat) : Fld := ⟨0x050 + 4 * k, 0, 0, 0⟩
def DBG_WP_ADDR.ADDR (k : Nat) : Fld := ⟨0x060 + 8 * k, 19, 0, 0⟩
def DBG_WP_CFG.KIND (k : Nat) : Fld := ⟨0x064 + 8 * k, 9, 8, 0⟩
def DBG_WP_CFG.LOG2_LEN (k : Nat) : Fld := ⟨0x064 + 8 * k, 4, 0, 0⟩
def DBG_XH_RESUME.GROUP : Fld := ⟨0x070, 1, 0, 0⟩
def DBG_JDL_STATS.DROPPED : Fld := ⟨0x074, 31, 16, 0⟩
def DBG_JDL_STATS.REFUSED : Fld := ⟨0x074, 15, 0, 0⟩

end Sys2Proof.Machine
end

