-- ==== Sys2Proof/Machine/RegMap.lean ====
section
/-! DEFINITION. The page map (R475) and the field tables of each kind of page: which field stands at which offset with
which access code, and which selection register picks the bank of a field (spec/01 to spec/16). -/

namespace Sys2Proof.Machine

/-- The kinds of page, by the names of spec 00. -/
inductive Kind where

  | sys
  | pcie
  | clk
  | tb
  | cal
  | evt
  | bud
  | flt
  | saf
  | mgt
  | pwr
  | dbg
  | acq
  | meas
  | cmp
  | dcm
  | str
  | disp
  | cnv
  | chn
  | wte
  | crs
  | trg
  | den
  | layer
  | nvp
  | core
  | brk
  deriving DecidableEq, Repr

def rowsSYS0 : List Row := [
  ⟨SYS_STATUS.READY, .ro, false⟩,
  ⟨SYS_STATUS.FEATURES_OK, .ro, false⟩,
  ⟨SYS_STATUS.SAFE_STOPPED, .ro, false⟩,
  ⟨SYS_REG_SEL.REGION, .rw, false⟩,
  ⟨SYS_REG_BASE.BASE, .rws, false⟩,
  ⟨SYS_REG_SIZE.SIZE, .rws, false⟩,
  ⟨SYS_REG_CTRL.HOST_WINDOW, .rws, false⟩,
  ⟨SYS_REG_CTRL.OWNER, .rws, false⟩,
  ⟨SYS_REG_CTRL.STACKS, .rws, false⟩,
  ⟨SYS_REG_CTRL.MAPPED, .rws, false⟩,
  ⟨SYS_REG_STATUS.UNMAPPED_HITS, .ro, false⟩,
  ⟨SYS_REG_STATUS.LIVE_MAPPED, .ro, false⟩,
  ⟨SYS_PART.PART, .ro, false⟩,
  ⟨SYS_PART.STEPPING, .ro, false⟩,
  ⟨SYS_PART.FAMILY, .ro, false⟩,
  ⟨SYS_SERIAL_LO.SERIAL, .ro, false⟩,
  ⟨SYS_SERIAL_HI.SERIAL, .ro, false⟩,
  ⟨(SYS_DEV_FEATURES.FEATURES 0), .ro, false⟩,
  ⟨(SYS_DEV_FEATURES.FEATURES 1), .ro, false⟩,
  ⟨(SYS_DEV_FEATURES.FEATURES 2), .ro, false⟩,
  ⟨(SYS_DEV_FEATURES.FEATURES 3), .ro, false⟩,
  ⟨(SYS_DRV_FEATURES.FEATURES 0), .rw, false⟩,
  ⟨(SYS_DRV_FEATURES.FEATURES 1), .rw, false⟩,
  ⟨(SYS_DRV_FEATURES.FEATURES 2), .rw, false⟩,
  ⟨(SYS_DRV_FEATURES.FEATURES 3), .rw, false⟩,
  ⟨SYS_FEATURES_CTRL.FEATURES_ERR, .ro, false⟩,
  ⟨SYS_FEATURES_CTRL.FEATURES_OK, .w1s, true⟩,
  ⟨(SYS_FEATURES_IN_FORCE.FEATURES 0), .ro, false⟩,
  ⟨(SYS_FEATURES_IN_FORCE.FEATURES 1), .ro, false⟩,
  ⟨(SYS_FEATURES_IN_FORCE.FEATURES 2), .ro, false⟩,
  ⟨(SYS_FEATURES_IN_FORCE.FEATURES 3), .ro, false⟩,
  ⟨SYS_REG_WIN.WIN_BASE, .rws, false⟩,
  ⟨SYS_GROUP_COMMIT.GROUP, .wo, true⟩,
  ⟨SYS_GROUP_STATUS.PAGE, .ro, false⟩,
  ⟨SYS_GROUP_STATUS.GROUP, .ro, false⟩,
  ⟨SYS_GROUP_STATUS.STATE, .ro, false⟩,
  ⟨SYS_IRQ_SEL.PAGE, .rw, false⟩,
  ⟨SYS_IRQ_ROUTE.VECTOR, .rw, true⟩,
  ⟨SYS_VEC_SEL.VECTOR, .rw, false⟩,
  ⟨SYS_VEC_STATUS.COUNT, .ro, false⟩]

def rowsSYS1 : List Row := [
  ⟨SYS_VEC_STATUS.FIRST, .ro, false⟩,
  ⟨SYS_VEC_EOI.VECTOR, .wo, true⟩]

def rowsSYS : List Row := rowsSYS0 ++ rowsSYS1

def rowsPCIE : List Row := [
  ⟨PCIE_STATUS.LINK_UP, .ro, false⟩,
  ⟨PCIE_STATUS.FLIT, .ro, false⟩,
  ⟨PCIE_STATUS.L0P_REDUCED, .ro, false⟩,
  ⟨PCIE_LINK.WIDTH, .ro, false⟩,
  ⟨PCIE_LINK.TRAINED_WIDTH, .ro, false⟩,
  ⟨PCIE_LINK.SPEED, .ro, false⟩,
  ⟨PCIE_BAR2.LOG2_SIZE, .ro, false⟩,
  ⟨PCIE_ERRORS.UNCORR, .ro, false⟩,
  ⟨PCIE_ERRORS.CORR, .ro, false⟩,
  ⟨PCIE_UNCLAIMED.COUNT, .ro, false⟩,
  ⟨PCIE_WIN_MISSES.COUNT, .ro, false⟩,
  ⟨PCIE_FLR.COUNT, .ro, false⟩,
  ⟨PCIE_Q_SEL.QUEUE, .rw, false⟩,
  ⟨PCIE_Q_CFG.LOG2_ENTRIES, .rws, false⟩,
  ⟨PCIE_Q_CFG.ACTIVITY, .rws, false⟩,
  ⟨PCIE_Q_CFG.KIND, .rws, false⟩,
  ⟨PCIE_Q_CFG.EN, .rws, false⟩,
  ⟨PCIE_Q_SQ_BASE_LO.ADDR, .rws, false⟩,
  ⟨PCIE_Q_SQ_BASE_HI.ADDR, .rws, false⟩,
  ⟨PCIE_Q_CQ_BASE_LO.ADDR, .rws, false⟩,
  ⟨PCIE_Q_CQ_BASE_HI.ADDR, .rws, false⟩,
  ⟨PCIE_Q_IRQ.IRQ_USEC, .rws, false⟩,
  ⟨PCIE_Q_IRQ.IRQ_COUNT, .rws, false⟩,
  ⟨PCIE_Q_FLUSH.FLUSH_US, .rws, false⟩,
  ⟨PCIE_Q_HEADS.CQ_TAIL, .ro, false⟩,
  ⟨PCIE_Q_HEADS.SQ_HEAD, .ro, false⟩,
  ⟨PCIE_Q_STATE.LAST_STATUS, .ro, false⟩,
  ⟨PCIE_Q_STATE.STATE, .ro, false⟩,
  ⟨PCIE_Q_DONE.COUNT, .ro, false⟩,
  ⟨PCIE_Q_DB_ERR.COUNT, .ro, false⟩,
  ⟨PCIE_Q_BYTES_LO.BYTES, .ro, false⟩,
  ⟨PCIE_Q_BYTES_HI.BYTES, .ro, false⟩]

def rowsCLK0 : List Row := [
  ⟨CLK_STATUS.REF_VALID, .ro, false⟩,
  ⟨CLK_STATUS.ALL_LOCKED, .ro, false⟩,
  ⟨CLK_STATUS.ANY_HOLDOVER, .ro, false⟩,
  ⟨CLK_REF_CFG.CLEAN_BW, .rws, false⟩,
  ⟨CLK_REF_CFG.FREQ_SEL, .rws, false⟩,
  ⟨CLK_REF_STATUS.OFFSET, .ro, false⟩,
  ⟨CLK_REF_STATUS.IN_RANGE, .ro, false⟩,
  ⟨CLK_REF_STATUS.PRESENT, .ro, false⟩,
  ⟨CLK_REF_PHASE.TRIM, .rws, false⟩,
  ⟨CLK_LOOP_SEL.LOOP, .rw, false⟩,
  ⟨CLK_LOOP_LOCK.LOCK_COUNT, .rws, false⟩,
  ⟨CLK_LOOP_LOCK.WINDOW, .rws, false⟩,
  ⟨CLK_LOOP_LOSS.FORCE_HOLDOVER, .rws, false⟩,
  ⟨CLK_LOOP_LOSS.LOSS_COUNT, .rws, false⟩,
  ⟨CLK_LOOP_SLEW.SLEW_PPB, .rws, false⟩,
  ⟨CLK_LOOP_STATUS.PHASE_ERR, .ro, false⟩,
  ⟨CLK_LOOP_STATUS.FREE_RUN, .ro, false⟩,
  ⟨CLK_LOOP_STATUS.EVER_LOCKED, .ro, false⟩,
  ⟨CLK_LOOP_STATUS.STATE, .ro, false⟩,
  ⟨CLK_LOOP_WORD.WORD, .ro, false⟩,
  ⟨CLK_LOOP_EST_FREQ.EST_FREQ, .ro, false⟩,
  ⟨CLK_LOOP_EST_TIME_LO.EST_TIME, .ro, false⟩,
  ⟨CLK_LOOP_EST_TIME_HI.EST_TIME, .ro, false⟩,
  ⟨CLK_LOOP_ONSET_LO.ONSET, .ro, false⟩,
  ⟨CLK_LOOP_ONSET_HI.ONSET, .ro, false⟩,
  ⟨CLK_LOOP_DECLARED_LO.DECLARED, .ro, false⟩,
  ⟨CLK_LOOP_DECLARED_HI.DECLARED, .ro, false⟩,
  ⟨CLK_LOOP_EVENTS.LOCKS, .ro, false⟩,
  ⟨CLK_LOOP_EVENTS.LOSSES, .ro, false⟩,
  ⟨(CLK_OUT_CFG.ALIGN_SYNC 0), .rws, false⟩,
  ⟨(CLK_OUT_CFG.ALIGN_SYNC 1), .rws, false⟩,
  ⟨(CLK_OUT_CFG.ALIGN_SYNC 2), .rws, false⟩,
  ⟨(CLK_OUT_CFG.ALIGN_SYNC 3), .rws, false⟩,
  ⟨(CLK_OUT_CFG.SOURCE 0), .rws, false⟩,
  ⟨(CLK_OUT_CFG.SOURCE 1), .rws, false⟩,
  ⟨(CLK_OUT_CFG.SOURCE 2), .rws, false⟩,
  ⟨(CLK_OUT_CFG.SOURCE 3), .rws, false⟩,
  ⟨(CLK_OUT_CFG.LEVEL 0), .rws, false⟩,
  ⟨(CLK_OUT_CFG.LEVEL 1), .rws, false⟩,
  ⟨(CLK_OUT_CFG.LEVEL 2), .rws, false⟩]

def rowsCLK1 : List Row := [
  ⟨(CLK_OUT_CFG.LEVEL 3), .rws, false⟩,
  ⟨(CLK_OUT_CFG.FORMAT 0), .rws, false⟩,
  ⟨(CLK_OUT_CFG.FORMAT 1), .rws, false⟩,
  ⟨(CLK_OUT_CFG.FORMAT 2), .rws, false⟩,
  ⟨(CLK_OUT_CFG.FORMAT 3), .rws, false⟩,
  ⟨(CLK_OUT_CFG.EN 0), .rws, false⟩,
  ⟨(CLK_OUT_CFG.EN 1), .rws, false⟩,
  ⟨(CLK_OUT_CFG.EN 2), .rws, false⟩,
  ⟨(CLK_OUT_CFG.EN 3), .rws, false⟩,
  ⟨(CLK_OUT_DIV.DIV 0), .rws, false⟩,
  ⟨(CLK_OUT_DIV.DIV 1), .rws, false⟩,
  ⟨(CLK_OUT_DIV.DIV 2), .rws, false⟩,
  ⟨(CLK_OUT_DIV.DIV 3), .rws, false⟩,
  ⟨CLK_OUT_STATUS.RUNNING, .ro, false⟩]

def rowsCLK : List Row := rowsCLK0 ++ rowsCLK1

def rowsTB : List Row := [
  ⟨TB_NOW_LO.NOW, .ro, false⟩,
  ⟨TB_NOW_HI.NOW, .ro, false⟩,
  ⟨TB_LOAD_LO.LOAD, .rws, false⟩,
  ⟨TB_LOAD_HI.LOAD, .rws, false⟩,
  ⟨TB_ALIGN_CTRL.MODE, .rws, false⟩,
  ⟨TB_ALIGN_STATUS.LOADS, .ro, false⟩,
  ⟨TB_ALIGN_STATUS.ALIGN_STALE, .w1c, false⟩,
  ⟨TB_ALIGN_STATUS.STATE, .ro, false⟩,
  ⟨TB_PRELOAD_LO.PRELOAD, .ro, false⟩,
  ⟨TB_PRELOAD_HI.PRELOAD, .ro, false⟩,
  ⟨TB_WRAP.WRAP_COUNT, .ro, false⟩,
  ⟨TB_MARK_ERRORS.COUNT, .ro, false⟩]

def rowsCAL0 : List Row := [
  ⟨CAL_STATUS.FG_ACTIVE, .ro, false⟩,
  ⟨CAL_STATUS.BG_RUNNING, .ro, false⟩,
  ⟨CAL_FG_GO.INPUTS, .w1s, true⟩,
  ⟨CAL_FG_TIMEOUT.FULL_MS, .rws, false⟩,
  ⟨CAL_BG_CTRL.CALCHG_ON_SWAP, .rws, false⟩,
  ⟨CAL_BG_CTRL.BG_EN, .rws, false⟩,
  ⟨CAL_SEL.INPUT, .rw, false⟩,
  ⟨CAL_FG_STATUS.TIMEOUT_STEP, .ro, false⟩,
  ⟨CAL_FG_STATUS.REASON, .ro, false⟩,
  ⟨CAL_FG_STATUS.LAST_RESULT, .ro, false⟩,
  ⟨CAL_FG_STATUS.STEP, .ro, false⟩,
  ⟨CAL_START_LAT.TICKS, .ro, false⟩,
  ⟨CAL_LAST_TIME64_LO.TIME, .ro, false⟩,
  ⟨CAL_LAST_TIME64_HI.TIME, .ro, false⟩,
  ⟨CAL_LAST_WALL.SECONDS, .ro, false⟩,
  ⟨CAL_INPUT_GEN.GEN, .ro, false⟩,
  ⟨CAL_FG_COUNTS.FAILED, .ro, false⟩,
  ⟨CAL_FG_COUNTS.APPLIED, .ro, false⟩,
  ⟨CAL_BG_STEPS.STEPS, .ro, false⟩,
  ⟨CAL_BG_DEFERS.CAL_FAIL_DEFERS, .ro, false⟩,
  ⟨CAL_BG_DEFERS.SHORT_DEFERS, .ro, false⟩,
  ⟨CAL_BG_LAST.STEP_LARGE_COUNT, .ro, false⟩,
  ⟨CAL_BG_LAST.PHYS_OUT, .ro, false⟩,
  ⟨CAL_BG_LAST.PHYS_IN, .ro, false⟩,
  ⟨CAL_BG_LAST.POSITION, .ro, false⟩,
  ⟨CAL_BG_LAST_TIME_LO.TIME, .ro, false⟩,
  ⟨CAL_BG_LAST_TIME_HI.TIME, .ro, false⟩,
  ⟨CAL_RESID_LEVEL.SPUR, .ro, false⟩,
  ⟨CAL_RESID_LEVEL.GAIN_ERR, .ro, false⟩,
  ⟨CAL_RESID_OFS.OFFSET, .ro, false⟩,
  ⟨CAL_SLICE_SEL.SLICE, .rw, false⟩,
  ⟨CAL_SLICE_TRIM.SKEW, .ro, false⟩,
  ⟨CAL_SLICE_TRIM.GAIN, .ro, false⟩,
  ⟨CAL_SLICE_TRIM.OFFSET, .ro, false⟩,
  ⟨CAL_SLICE_INFO.AGE_MS, .ro, false⟩,
  ⟨CAL_SLICE_INFO.POSITION, .ro, false⟩,
  ⟨CAL_GENERATION.GEN, .ro, false⟩,
  ⟨CAL_COUNT_TOTAL.COUNT, .ro, false⟩,
  ⟨CAL_STORE_STATUS.STORE_FAILS, .ro, false⟩,
  ⟨CAL_STORE_STATUS.STORE_STATE, .ro, false⟩]

def rowsCAL1 : List Row := [
  ⟨CAL_STORE_STATUS.FACTORY_FALLBACK, .ro, false⟩,
  ⟨CAL_STORE_STATUS.RESTORED_PREVIOUS, .ro, false⟩,
  ⟨CAL_STORE_STATUS.OTHER_VALID, .ro, false⟩,
  ⟨CAL_STORE_STATUS.ACTIVE_SLOT, .ro, false⟩,
  ⟨CAL_BG_MATCH.SKEW_TOL, .rws, false⟩,
  ⟨CAL_BG_MATCH.GAIN_TOL, .rws, false⟩,
  ⟨CAL_BG_MATCH.OFS_TOL, .rws, false⟩,
  ⟨CAL_STARTUP.STARTUP_FG_EN, .rm, false⟩,
  ⟨CAL_STARTUP.MAX_DTEMP, .rm, false⟩,
  ⟨CAL_STARTUP.MAX_AGE, .rm, false⟩]

def rowsCAL : List Row := rowsCAL0 ++ rowsCAL1

def rowsEVT0 : List Row := [
  ⟨EVT_CTRL.CNT_CLR, .w1s, true⟩,
  ⟨EVT_STATUS.IU_ACTIVE, .ro, false⟩,
  ⟨EVT_STATUS.CD_VALID, .ro, false⟩,
  ⟨EVT_STATUS.CD_BUILDING, .ro, false⟩,
  ⟨EVT_IN_SEL.INPUT, .rw, false⟩,
  ⟨EVT_IN_CFG.COURSES, .rws, false⟩,
  ⟨EVT_IN_CFG.PRESCALE, .rws, false⟩,
  ⟨EVT_IN_CFG.EDGE, .rws, false⟩,
  ⟨EVT_IN_CFG.EN, .rws, false⟩,
  ⟨EVT_IN_THRESH.THRESH, .rws, false⟩,
  ⟨EVT_IN_HYST.HYST, .rws, false⟩,
  ⟨EVT_IN_HOLDOFF.HOLDOFF_EN, .rws, false⟩,
  ⟨EVT_IN_HOLDOFF.TICKS, .rws, false⟩,
  ⟨EVT_IN_DELAY.DELAY, .rws, false⟩,
  ⟨EVT_IN_STATUS.LEVEL, .ro, false⟩,
  ⟨EVT_IN_EDGES_LO.EDGES, .ro, false⟩,
  ⟨EVT_IN_EDGES_HI.EDGES, .ro, false⟩,
  ⟨EVT_IN_DEADTIME.LOST, .ro, false⟩,
  ⟨EVT_IN_HELD.HELD, .ro, false⟩,
  ⟨EVT_IN_LAST_LO.TIME, .ro, false⟩,
  ⟨EVT_IN_LAST_HI.TIME, .ro, false⟩,
  ⟨EVT_IN_NOTICE_DROPS.DROPS, .ro, false⟩,
  ⟨EVT_IU_SEL.UNIT, .rw, false⟩,
  ⟨EVT_IU_CFG.STOPS, .rws, false⟩,
  ⟨EVT_IU_CFG.REPEAT, .rws, false⟩,
  ⟨EVT_IU_CFG.GATE_POL, .rws, false⟩,
  ⟨EVT_IU_CFG.GATE_SRC, .rws, false⟩,
  ⟨EVT_IU_CFG.GATE_EVT, .rws, false⟩,
  ⟨EVT_IU_CFG.STOP_EVT, .rws, false⟩,
  ⟨EVT_IU_CFG.START_EVT, .rws, false⟩,
  ⟨EVT_IU_CFG.MODE, .rws, false⟩,
  ⟨EVT_IU_TIMEOUT.TICKS, .rws, false⟩,
  ⟨EVT_IU_GATE_TICKS.TICKS, .rws, false⟩,
  ⟨EVT_IU_SWGATE.CLOSE, .w1s, true⟩,
  ⟨EVT_IU_SWGATE.OPEN, .w1s, true⟩,
  ⟨EVT_IU_STATUS.FIFO_LEVEL, .ro, false⟩,
  ⟨EVT_IU_STATUS.GATE_OPEN, .ro, false⟩,
  ⟨EVT_IU_STATUS.STATE, .ro, false⟩,
  ⟨EVT_IU_COUNTS.EARLY_STOP, .ro, false⟩,
  ⟨EVT_IU_COUNTS.FIFO_OVERFLOW, .ro, false⟩]

def rowsEVT1 : List Row := [
  ⟨EVT_IU_RESULTS.RESULTS, .ro, false⟩,
  ⟨EVT_CD_STATUS.BUILDS, .ro, false⟩,
  ⟨EVT_CD_STATUS.VALID, .ro, false⟩,
  ⟨EVT_CD_CTRL.TEMP_STEP, .rws, false⟩,
  ⟨EVT_CD_CTRL.REBUILD, .w1s, true⟩,
  ⟨EVT_RES_HDR.SEQ, .ro, false⟩,
  ⟨EVT_RES_HDR.STOPS_TAKEN, .ro, false⟩,
  ⟨EVT_RES_HDR.HOLDOVER, .ro, false⟩,
  ⟨EVT_RES_HDR.INCOMPLETE, .ro, false⟩,
  ⟨EVT_RES_HDR.TIMEOUT, .ro, false⟩,
  ⟨EVT_RES_HDR.ABORTED, .ro, false⟩,
  ⟨EVT_RES_HDR.DEADTIME, .ro, false⟩,
  ⟨EVT_RES_HDR.FREQ, .ro, false⟩,
  ⟨EVT_RES_HDR.COINCIDENT_ANY, .ro, false⟩,
  ⟨EVT_RES_HDR.VALID, .ro, false⟩,
  ⟨EVT_RES_COINC.COINC, .ro, false⟩,
  ⟨EVT_RES_START_LO.START, .ro, false⟩,
  ⟨EVT_RES_START_HI.START, .ro, false⟩,
  ⟨(EVT_RES_STOP_LO.VALUE 0), .ro, false⟩,
  ⟨(EVT_RES_STOP_LO.VALUE 1), .ro, false⟩,
  ⟨(EVT_RES_STOP_LO.VALUE 2), .ro, false⟩,
  ⟨(EVT_RES_STOP_LO.VALUE 3), .ro, false⟩,
  ⟨(EVT_RES_STOP_LO.VALUE 4), .ro, false⟩,
  ⟨(EVT_RES_STOP_LO.VALUE 5), .ro, false⟩,
  ⟨(EVT_RES_STOP_LO.VALUE 6), .ro, false⟩,
  ⟨(EVT_RES_STOP_LO.VALUE 7), .ro, false⟩,
  ⟨(EVT_RES_STOP_LO.VALUE 8), .ro, false⟩,
  ⟨(EVT_RES_STOP_LO.VALUE 9), .ro, false⟩,
  ⟨(EVT_RES_STOP_LO.VALUE 10), .ro, false⟩,
  ⟨(EVT_RES_STOP_LO.VALUE 11), .ro, false⟩,
  ⟨(EVT_RES_STOP_LO.VALUE 12), .ro, false⟩,
  ⟨(EVT_RES_STOP_LO.VALUE 13), .ro, false⟩,
  ⟨(EVT_RES_STOP_LO.VALUE 14), .ro, false⟩,
  ⟨(EVT_RES_STOP_LO.VALUE 15), .ro, false⟩,
  ⟨(EVT_RES_STOP_HI.VALUE 0), .ro, false⟩,
  ⟨(EVT_RES_STOP_HI.VALUE 1), .ro, false⟩,
  ⟨(EVT_RES_STOP_HI.VALUE 2), .ro, false⟩,
  ⟨(EVT_RES_STOP_HI.VALUE 3), .ro, false⟩,
  ⟨(EVT_RES_STOP_HI.VALUE 4), .ro, false⟩,
  ⟨(EVT_RES_STOP_HI.VALUE 5), .ro, false⟩]

def rowsEVT2 : List Row := [
  ⟨(EVT_RES_STOP_HI.VALUE 6), .ro, false⟩,
  ⟨(EVT_RES_STOP_HI.VALUE 7), .ro, false⟩,
  ⟨(EVT_RES_STOP_HI.VALUE 8), .ro, false⟩,
  ⟨(EVT_RES_STOP_HI.VALUE 9), .ro, false⟩,
  ⟨(EVT_RES_STOP_HI.VALUE 10), .ro, false⟩,
  ⟨(EVT_RES_STOP_HI.VALUE 11), .ro, false⟩,
  ⟨(EVT_RES_STOP_HI.VALUE 12), .ro, false⟩,
  ⟨(EVT_RES_STOP_HI.VALUE 13), .ro, false⟩,
  ⟨(EVT_RES_STOP_HI.VALUE 14), .ro, false⟩,
  ⟨(EVT_RES_STOP_HI.VALUE 15), .ro, false⟩,
  ⟨EVT_RES_POP.POP, .w1s, true⟩]

def rowsEVT : List Row := rowsEVT0 ++ rowsEVT1 ++ rowsEVT2

def rowsBUD : List Row := [
  ⟨BUD_CTRL.ENFORCE, .rws, false⟩,
  ⟨BUD_CTRL.PEAK_CLR, .w1s, true⟩,
  ⟨BUD_STATUS.ENFORCING, .ro, false⟩,
  ⟨BUD_STATUS.OVERCOMMIT, .ro, false⟩,
  ⟨BUD_SEL.RESOURCE, .rw, false⟩,
  ⟨BUD_SEL.ACTIVITY, .rw, false⟩,
  ⟨BUD_LIMIT.ALLOW, .rws, false⟩,
  ⟨BUD_LIMIT.LIMIT, .rws, false⟩,
  ⟨BUD_USED.USED, .ro, false⟩,
  ⟨BUD_PEAK.PEAK, .ro, false⟩,
  ⟨BUD_WAITS.WAITS, .ro, false⟩,
  ⟨BUD_DROPPED_LO.BYTES, .ro, false⟩,
  ⟨BUD_DROPPED_HI.BYTES, .ro, false⟩,
  ⟨BUD_CAP.CAP, .ro, false⟩,
  ⟨BUD_RESERVE.RESERVE, .ro, false⟩,
  ⟨BUD_SUM.SUM, .ro, false⟩,
  ⟨BUD_SUM_SHADOW.SUM, .ro, false⟩,
  ⟨BUD_OVERCOMMIT.VALID, .ro, false⟩,
  ⟨BUD_OVERCOMMIT.RESOURCE, .ro, false⟩,
  ⟨BUD_PERIOD.PERIOD, .ro, false⟩]

def rowsFLT0 : List Row := [
  ⟨FLT_STATUS.ANY_LATCHED, .ro, false⟩,
  ⟨FLT_STATUS.FAULT_N, .ro, false⟩,
  ⟨FLT_STATUS.SAFE_STOPPED, .ro, false⟩,
  ⟨FLT_SRC_SEL.SOURCE, .rw, false⟩,
  ⟨FLT_SRC_THRESH.N, .rm, true⟩,
  ⟨FLT_SRC_WINDOW.MS, .rm, true⟩,
  ⟨FLT_SRC_REACT.ON_SEVERE, .rm, false⟩,
  ⟨FLT_SRC_REACT.ON_EVENT, .rm, false⟩,
  ⟨FLT_SRC_STATE.BUCKET, .ro, false⟩,
  ⟨FLT_SRC_STATE.LIVE, .ro, false⟩,
  ⟨FLT_SRC_STATE.SEVERE, .ro, false⟩,
  ⟨FLT_SRC_STATE.LATCHED, .ro, false⟩,
  ⟨FLT_REC_FLAGS.COUNT, .ro, false⟩,
  ⟨FLT_REC_FLAGS.KIND, .ro, false⟩,
  ⟨FLT_REC_FLAGS.REAL_AND_INJECTED, .ro, false⟩,
  ⟨FLT_REC_FLAGS.INJECTED, .ro, false⟩,
  ⟨FLT_REC_FLAGS.SEVERE_SEEN, .ro, false⟩,
  ⟨FLT_REC_TIME_LO.TIME, .ro, false⟩,
  ⟨FLT_REC_TIME_HI.TIME, .ro, false⟩,
  ⟨FLT_REC_SYND.SYNDROME, .ro, false⟩,
  ⟨FLT_REC_LAST_LO.TIME, .ro, false⟩,
  ⟨FLT_REC_LAST_HI.TIME, .ro, false⟩,
  ⟨FLT_SRC_INJECTED.COUNT, .ro, false⟩,
  ⟨FLT_SRC_SEVERE.COUNT, .ro, false⟩,
  ⟨FLT_REC_CLR.CLR, .w1s, true⟩,
  ⟨FLT_CLR_ALL.CLR, .w1s, true⟩,
  ⟨FLT_FIRST.VALID, .ro, false⟩,
  ⟨FLT_FIRST.SOURCE, .ro, false⟩,
  ⟨FLT_FIRST_TIME_LO.TIME, .ro, false⟩,
  ⟨FLT_FIRST_TIME_HI.TIME, .ro, false⟩,
  ⟨FLT_PENDING.RECORDS, .ro, false⟩,
  ⟨FLT_FAULTN.SOURCE, .ro, false⟩,
  ⟨FLT_FAULTN.ASSERTED, .ro, false⟩,
  ⟨FLT_LOG_HDR.SOURCE, .ro, false⟩,
  ⟨FLT_LOG_HDR.SEQ, .ro, false⟩,
  ⟨FLT_LOG_HDR.LEVEL, .ro, false⟩,
  ⟨FLT_LOG_HDR.KIND, .ro, false⟩,
  ⟨FLT_LOG_HDR.REAL_AND_INJECTED, .ro, false⟩,
  ⟨FLT_LOG_HDR.INJECTED, .ro, false⟩,
  ⟨FLT_LOG_HDR.VALID, .ro, false⟩]

def rowsFLT1 : List Row := [
  ⟨FLT_LOG_TIME_LO.TIME, .ro, false⟩,
  ⟨FLT_LOG_TIME_HI.TIME, .ro, false⟩,
  ⟨FLT_LOG_SYND.SYNDROME, .ro, false⟩,
  ⟨FLT_LOG_POP.POP, .w1s, true⟩,
  ⟨FLT_LOG_STATUS.OVERFLOW, .ro, false⟩,
  ⟨FLT_LOG_STATUS.LEVEL, .ro, false⟩,
  ⟨FLT_SAFE_STOP.ACTIVE, .ro, false⟩,
  ⟨FLT_SAFE_STOP.SOURCE, .ro, false⟩,
  ⟨FLT_LEG_STATUS.FATAL, .w1c, true⟩,
  ⟨FLT_LEG_STATUS.CONTAINED, .w1c, true⟩,
  ⟨FLT_LEG_STATUS.CORRECTED, .w1c, true⟩,
  ⟨FLT_LEG_CORR.COUNT, .ro, false⟩,
  ⟨FLT_LEG_CONT.COUNT, .ro, false⟩,
  ⟨FLT_LEG_FATAL.COUNT, .ro, false⟩,
  ⟨FLT_LEG_SEL.CLASS, .rw, false⟩,
  ⟨FLT_LEG_FIRST_SRC.SOURCE, .ro, false⟩,
  ⟨FLT_LEG_FIRST_TIME_LO.TIME, .ro, false⟩,
  ⟨FLT_LEG_FIRST_TIME_HI.TIME, .ro, false⟩,
  ⟨FLT_LEG_FIRST_SYND.SYNDROME, .ro, false⟩]

def rowsFLT : List Row := rowsFLT0 ++ rowsFLT1

def rowsSAF0 : List Row := [
  ⟨SAF_CTRL.SAFE_RELEASE, .w1s, true⟩,
  ⟨SAF_CTRL.THERMAL_RESTART, .w1s, true⟩,
  ⟨SAF_STATUS.WALL_SET, .ro, false⟩,
  ⟨SAF_STATUS.PFW, .ro, false⟩,
  ⟨SAF_STATUS.THERM, .ro, false⟩,
  ⟨SAF_STATUS.THERMAL_SHUTDOWN, .ro, false⟩,
  ⟨SAF_STATUS.SAFE_STOPPED, .ro, false⟩,
  ⟨SAF_STATUS.INJ_ARMED, .ro, false⟩,
  ⟨SAF_WALL.SECONDS, .rm, true⟩,
  ⟨SAF_VIN.POWER, .ro, false⟩,
  ⟨SAF_VIN.VOLTS, .ro, false⟩,
  ⟨SAF_TEMP_SEL.DIE, .rw, false⟩,
  ⟨SAF_TEMP.PEAK, .ro, false⟩,
  ⟨SAF_TEMP.NOW, .ro, false⟩,
  ⟨SAF_THERM.WARN, .rm, false⟩,
  ⟨SAF_FLOOR.FLOOR, .rm, false⟩,
  ⟨SAF_FLOOR_HITS.COUNT, .ro, false⟩,
  ⟨SAF_INJ_SEL.CHECKER, .rm, false⟩,
  ⟨SAF_INJ_SEL.INSTANCE, .rm, false⟩,
  ⟨SAF_INJ_SEL.MODE, .rm, false⟩,
  ⟨SAF_INJ_COUNT.REMAINING, .ro, false⟩,
  ⟨SAF_INJ_COUNT.COUNT, .rm, true⟩,
  ⟨SAF_LEDGER_SEL.ENTRY, .rw, false⟩,
  ⟨(SAF_LEDGER_DATA.DATA 0), .ro, false⟩,
  ⟨(SAF_LEDGER_DATA.DATA 1), .ro, false⟩,
  ⟨(SAF_LEDGER_DATA.DATA 2), .ro, false⟩,
  ⟨(SAF_LEDGER_DATA.DATA 3), .ro, false⟩,
  ⟨(SAF_LEDGER_DATA.DATA 4), .ro, false⟩,
  ⟨(SAF_LEDGER_DATA.DATA 5), .ro, false⟩,
  ⟨(SAF_LEDGER_DATA.DATA 6), .ro, false⟩,
  ⟨(SAF_LEDGER_DATA.DATA 7), .ro, false⟩,
  ⟨SAF_LEDGER_COUNT.UNRECORDED, .ro, false⟩,
  ⟨SAF_LEDGER_COUNT.ENTRIES, .ro, false⟩,
  ⟨SAF_DRIVE_SEL.RECORD, .rw, false⟩,
  ⟨(SAF_DRIVE_DATA.DATA 0), .ro, false⟩,
  ⟨(SAF_DRIVE_DATA.DATA 1), .ro, false⟩,
  ⟨(SAF_DRIVE_DATA.DATA 2), .ro, false⟩,
  ⟨(SAF_DRIVE_DATA.DATA 3), .ro, false⟩,
  ⟨(SAF_DRIVE_DATA.DATA 4), .ro, false⟩,
  ⟨(SAF_DRIVE_DATA.DATA 5), .ro, false⟩]

def rowsSAF1 : List Row := [
  ⟨(SAF_DRIVE_DATA.DATA 6), .ro, false⟩,
  ⟨(SAF_DRIVE_DATA.DATA 7), .ro, false⟩,
  ⟨(SAF_DRIVE_DATA.DATA 8), .ro, false⟩,
  ⟨(SAF_DRIVE_DATA.DATA 9), .ro, false⟩,
  ⟨(SAF_DRIVE_DATA.DATA 10), .ro, false⟩,
  ⟨(SAF_DRIVE_DATA.DATA 11), .ro, false⟩,
  ⟨(SAF_DRIVE_DATA.DATA 12), .ro, false⟩,
  ⟨(SAF_DRIVE_DATA.DATA 13), .ro, false⟩,
  ⟨(SAF_DRIVE_DATA.DATA 14), .ro, false⟩,
  ⟨(SAF_DRIVE_DATA.DATA 15), .ro, false⟩,
  ⟨(SAF_DRIVE_DATA.DATA 16), .ro, false⟩,
  ⟨(SAF_DRIVE_DATA.DATA 17), .ro, false⟩,
  ⟨(SAF_DRIVE_DATA.DATA 18), .ro, false⟩,
  ⟨(SAF_DRIVE_DATA.DATA 19), .ro, false⟩,
  ⟨(SAF_DRIVE_DATA.DATA 20), .ro, false⟩,
  ⟨(SAF_DRIVE_DATA.DATA 21), .ro, false⟩,
  ⟨(SAF_DRIVE_DATA.DATA 22), .ro, false⟩,
  ⟨(SAF_DRIVE_DATA.DATA 23), .ro, false⟩,
  ⟨(SAF_DRIVE_DATA.DATA 24), .ro, false⟩,
  ⟨(SAF_DRIVE_DATA.DATA 25), .ro, false⟩,
  ⟨(SAF_DRIVE_DATA.DATA 26), .ro, false⟩,
  ⟨(SAF_DRIVE_DATA.DATA 27), .ro, false⟩,
  ⟨(SAF_DRIVE_DATA.DATA 28), .ro, false⟩,
  ⟨(SAF_DRIVE_DATA.DATA 29), .ro, false⟩,
  ⟨(SAF_DRIVE_DATA.DATA 30), .ro, false⟩,
  ⟨(SAF_DRIVE_DATA.DATA 31), .ro, false⟩]

def rowsSAF : List Row := rowsSAF0 ++ rowsSAF1

def rowsMGT : List Row := [
  ⟨MGT_REQ_OFS.OFFSET, .rw, false⟩,
  ⟨MGT_REQ_DATA.DATA, .rw, false⟩,
  ⟨MGT_REQ_KIND.KIND, .rw, false⟩,
  ⟨MGT_REQ_GO.GO, .w1s, true⟩,
  ⟨MGT_RESP.SEQ, .ro, false⟩,
  ⟨MGT_RESP.REASON, .rm, true⟩,
  ⟨MGT_RESP.STATE, .rm, true⟩,
  ⟨MGT_REQ_TIMEOUT.MS, .rm, false⟩,
  ⟨MGT_REQ_STATS.REFUSED_BUSY, .ro, false⟩,
  ⟨MGT_ALERT.CAUSE, .rm, true⟩,
  ⟨MGT_SUBST.KIND, .rm, true⟩,
  ⟨MGT_SUBST.GO, .rm, true⟩,
  ⟨MGT_SUBST.LOGICAL, .rm, true⟩,
  ⟨MGT_SUBST_STATUS.RESULT, .ro, false⟩,
  ⟨MGT_PORT.PEC_ERRORS, .ro, false⟩,
  ⟨MGT_PORT.ADDR, .ro, false⟩,
  ⟨MGT_PORT.LATE, .ro, false⟩,
  ⟨MGT_PORT.SEL, .ro, false⟩]

def rowsPWR : List Row := [
  ⟨PWR_STATUS.READY, .ro, false⟩,
  ⟨PWR_STATUS.PGOOD, .ro, false⟩,
  ⟨PWR_TARGET.STATE, .rws, false⟩,
  ⟨PWR_LEAN.MAX_OVERLAP, .rws, false⟩,
  ⟨PWR_STATE.TRANSITIONS, .ro, false⟩,
  ⟨PWR_STATE.MOVING, .ro, false⟩,
  ⟨PWR_STATE.STATE, .ro, false⟩,
  ⟨PWR_START.READY_MS, .ro, false⟩,
  ⟨PWR_START.REF_TIMEOUT, .ro, false⟩,
  ⟨PWR_START.FAIL, .ro, false⟩,
  ⟨PWR_START.STEP, .ro, false⟩,
  ⟨PWR_REF_WAIT.MS, .rm, false⟩,
  ⟨PWR_OFF.WAKE, .rm, true⟩,
  ⟨PWR_OFF.REQ, .rm, true⟩,
  ⟨PWR_EVENTS.PFW, .ro, false⟩,
  ⟨PWR_EVENTS.RESTARTS, .ro, false⟩,
  ⟨PWR_SNAP.SNAP, .w1s, true⟩,
  ⟨PWR_SNAP_TIME_LO.TIME, .ro, false⟩,
  ⟨PWR_SNAP_TIME_HI.TIME, .ro, false⟩,
  ⟨PWR_ENERGY_SEL.COUNTER, .rw, false⟩,
  ⟨PWR_ENERGY_LO.NJ, .ro, false⟩,
  ⟨PWR_ENERGY_HI.NJ, .ro, false⟩,
  ⟨PWR_WORK_SEL.COUNTER, .rw, false⟩,
  ⟨PWR_WORK_LO.COUNT, .ro, false⟩,
  ⟨PWR_WORK_HI.COUNT, .ro, false⟩]

def rowsDBG : List Row := [
  ⟨DBG_CTRL.HOST_DEBUG, .rm, false⟩,
  ⟨DBG_STATUS.TAP_ACTIVE, .ro, false⟩,
  ⟨DBG_STATUS.ANY_DEBUG_HALTED, .ro, false⟩,
  ⟨DBG_CORE_SEL.CORE, .rw, false⟩,
  ⟨DBG_CORE_CTRL.XH_GROUP, .rw, false⟩,
  ⟨DBG_CORE_CTRL.STEP_IRQ_MASK, .rw, false⟩,
  ⟨DBG_CORE_CTRL.BKPT_EN, .rw, false⟩,
  ⟨DBG_CORE_CTRL.STEP, .w1s, true⟩,
  ⟨DBG_CORE_CTRL.RESUME, .w1s, true⟩,
  ⟨DBG_CORE_CTRL.HALT, .w1s, true⟩,
  ⟨DBG_CORE_STATUS.STEPPED, .ro, false⟩,
  ⟨DBG_CORE_STATUS.EXC_PENDING, .ro, false⟩,
  ⟨DBG_CORE_STATUS.SKID, .ro, false⟩,
  ⟨DBG_CORE_STATUS.INDEX, .ro, false⟩,
  ⟨DBG_CORE_STATUS.CAUSE, .ro, false⟩,
  ⟨DBG_CORE_STATUS.DEBUG_HALTED, .ro, false⟩,
  ⟨DBG_CORE_PC.PC, .ro, false⟩,
  ⟨(DBG_IBP.ADDR 0), .rw, false⟩,
  ⟨(DBG_IBP.ADDR 1), .rw, false⟩,
  ⟨(DBG_IBP.ADDR 2), .rw, false⟩,
  ⟨(DBG_IBP.ADDR 3), .rw, false⟩,
  ⟨(DBG_IBP.EN 0), .rw, false⟩,
  ⟨(DBG_IBP.EN 1), .rw, false⟩,
  ⟨(DBG_IBP.EN 2), .rw, false⟩,
  ⟨(DBG_IBP.EN 3), .rw, false⟩,
  ⟨(DBG_WP_ADDR.ADDR 0), .rw, false⟩,
  ⟨(DBG_WP_ADDR.ADDR 1), .rw, false⟩,
  ⟨(DBG_WP_CFG.KIND 0), .rw, false⟩,
  ⟨(DBG_WP_CFG.KIND 1), .rw, false⟩,
  ⟨(DBG_WP_CFG.LOG2_LEN 0), .rw, false⟩,
  ⟨(DBG_WP_CFG.LOG2_LEN 1), .rw, false⟩,
  ⟨DBG_XH_RESUME.GROUP, .wo, true⟩,
  ⟨DBG_JDL_STATS.DROPPED, .ro, false⟩,
  ⟨DBG_JDL_STATS.REFUSED, .ro, false⟩]

def rowsACQ0 : List Row := [
  ⟨ACQ_CTRL.CNT_CLR, .w1s, true⟩,
  ⟨ACQ_STATUS.ANY_ARMED, .ro, false⟩,
  ⟨ACQ_STATUS.REPLAYING, .ro, false⟩,
  ⟨ACQ_CAP_SEL.CAPTURE, .rw, false⟩,
  ⟨ACQ_CAP_CFG.COURSE, .rws, false⟩,
  ⟨ACQ_CAP_CFG.SRC, .rws, false⟩,
  ⟨ACQ_CAP_CFG.FULL_POLICY, .rws, false⟩,
  ⟨ACQ_CAP_CFG.MODE, .rws, false⟩,
  ⟨ACQ_CAP_CFG.ARM, .rws, false⟩,
  ⟨ACQ_CAP_SOURCE.BRICK, .rws, false⟩,
  ⟨ACQ_CAP_SOURCE.SPEC_SRC, .rws, false⟩,
  ⟨ACQ_CAP_REGION.DRAIN_ACT, .rws, false⟩,
  ⟨ACQ_CAP_REGION.ACT, .rws, false⟩,
  ⟨ACQ_CAP_REGION.REGION, .rws, false⟩,
  ⟨ACQ_CAP_SEG_SIZE.SIZE, .rws, false⟩,
  ⟨ACQ_CAP_SEG_COUNT.COUNT, .rws, false⟩,
  ⟨ACQ_CAP_PRE.PRE, .rws, false⟩,
  ⟨ACQ_CAP_POST.POST, .rws, false⟩,
  ⟨ACQ_CAP_MARKS.SLOTS, .rws, false⟩,
  ⟨ACQ_CAP_CHANGE.KEY_EN, .rws, false⟩,
  ⟨ACQ_CAP_CHANGE.KEY_EVERY, .rws, false⟩,
  ⟨ACQ_CAP_CHANGE.DEADBAND, .rws, false⟩,
  ⟨ACQ_CAP_LEN_NEXT.LEN, .rws, false⟩,
  ⟨ACQ_CAP_ITEM_CAP.SLOTS, .ro, false⟩,
  ⟨ACQ_CAP_ITEM_BYTES.BYTES, .ro, false⟩,
  ⟨ACQ_CAP_LOOKAHEAD.A, .ro, false⟩,
  ⟨ACQ_CAP_RATE.UNITS, .ro, false⟩,
  ⟨ACQ_CAP_STATUS.STATE, .ro, false⟩,
  ⟨ACQ_CAP_STATUS.OPEN, .ro, false⟩,
  ⟨ACQ_CAP_STATUS.LEN_PENDING, .ro, false⟩,
  ⟨ACQ_CAP_LEN.LEN, .ro, false⟩,
  ⟨ACQ_CAP_WRITE.SEGMENT, .ro, false⟩,
  ⟨ACQ_CAP_READ.SEGMENT, .rw, true⟩,
  ⟨ACQ_CAP_USED.SEGMENTS, .ro, false⟩,
  ⟨ACQ_CAP_DONE.RECORDS, .ro, false⟩,
  ⟨ACQ_CAP_MISSED.TRIGGERS, .ro, false⟩,
  ⟨ACQ_CAP_OVERWRITTEN.SEGMENTS, .ro, false⟩,
  ⟨ACQ_CAP_DISCARDED.SEGMENTS, .ro, false⟩,
  ⟨ACQ_CAP_DROPPED.ITEMS, .ro, false⟩,
  ⟨ACQ_CAP_PRE_LOST.READ_REJECTS, .ro, false⟩]

def rowsACQ1 : List Row := [
  ⟨ACQ_CAP_PRE_LOST.RECORDS, .ro, false⟩,
  ⟨ACQ_CAP_IGNORED.ITEMS, .ro, false⟩,
  ⟨ACQ_CAP_LAST_TRIG_LO.TIME, .ro, false⟩,
  ⟨ACQ_CAP_LAST_TRIG_HI.TIME, .ro, false⟩,
  ⟨ACQ_REPLAY_CFG.EN, .rws, false⟩,
  ⟨ACQ_REPLAY_CFG.REGION, .rws, false⟩,
  ⟨ACQ_REPLAY_FIRST.SEGMENT, .rws, false⟩,
  ⟨ACQ_REPLAY_COUNT.SEGMENTS, .rws, false⟩,
  ⟨ACQ_REPLAY_POS.DONE, .ro, false⟩,
  ⟨ACQ_REPLAY_POS.ZERO_LENGTH, .ro, false⟩,
  ⟨ACQ_REPLAY_POS.SEGMENT, .ro, false⟩,
  ⟨ACQ_REPLAY_REJECTED.SEGMENTS, .ro, false⟩]

def rowsACQ : List Row := rowsACQ0 ++ rowsACQ1

def rowsMEAS : List Row := [
  ⟨MEAS_SEL.CAPTURE, .rw, false⟩,
  ⟨MEAS_EN.CORE_SLOTS, .rws, false⟩,
  ⟨MEAS_EN.ENABLES, .rws, false⟩,
  ⟨MEAS_CH_FIRST.FIRST, .rws, false⟩,
  ⟨MEAS_CH_COUNT.COUNT, .rws, false⟩,
  ⟨MEAS_OBW.FRAC, .rws, false⟩,
  ⟨MEAS_THRESH.HYST, .rws, false⟩,
  ⟨MEAS_THRESH.THRESH, .rws, false⟩,
  ⟨MEAS_RECORDS.COUNT, .ro, false⟩,
  ⟨MEAS_INVALID.COUNT, .ro, false⟩]

def rowsCMP0 : List Row := [
  ⟨CMP_STATUS.ANY_BUSY, .ro, false⟩,
  ⟨CMP_STATUS.ANY_FAILED, .ro, false⟩,
  ⟨CMP_LANE_SEL.LANE, .rw, false⟩,
  ⟨CMP_LANE_STATUS.PHYS, .ro, false⟩,
  ⟨CMP_LANE_STATUS.GROUP, .ro, false⟩,
  ⟨CMP_LANE_STATUS.QUEUED, .ro, false⟩,
  ⟨CMP_LANE_STATUS.STATE, .ro, false⟩,
  ⟨CMP_LANE_IN_LO.BYTES, .ro, false⟩,
  ⟨CMP_LANE_IN_HI.BYTES, .ro, false⟩,
  ⟨CMP_LANE_OUT_LO.BYTES, .ro, false⟩,
  ⟨CMP_LANE_OUT_HI.BYTES, .ro, false⟩,
  ⟨CMP_LANE_JOBS.JOBS, .ro, false⟩,
  ⟨CMP_LANE_STORED.BLOCKS, .ro, false⟩,
  ⟨CMP_LANE_STALL.CYCLES, .ro, false⟩,
  ⟨CMP_SW_SRC.REGION, .rw, false⟩,
  ⟨CMP_SW_SRC_OFS_LO.OFFSET, .rw, false⟩,
  ⟨CMP_SW_SRC_OFS_HI.OFFSET, .rw, false⟩,
  ⟨CMP_SW_LEN.LEN, .rw, false⟩,
  ⟨CMP_SW_DST.REGION, .rw, false⟩,
  ⟨CMP_SW_DST_OFS_LO.OFFSET, .rw, false⟩,
  ⟨CMP_SW_DST_OFS_HI.OFFSET, .rw, false⟩,
  ⟨CMP_SW_TAG.TAG, .rw, false⟩,
  ⟨CMP_SW_SUBMIT.LANE, .wo, true⟩,
  ⟨CMP_SW_SUBMIT.GO, .wo, true⟩,
  ⟨CMP_SW_STATUS.REFUSED, .ro, false⟩,
  ⟨CMP_SW_STATUS.LAST_REASON, .ro, false⟩,
  ⟨CMP_SW_STATUS.LAST_REFUSED, .ro, false⟩,
  ⟨CMP_RES_HDR.SEQ, .ro, false⟩,
  ⟨CMP_RES_HDR.LANE, .ro, false⟩,
  ⟨CMP_RES_HDR.STATUS, .ro, false⟩,
  ⟨CMP_RES_HDR.POISONED, .ro, false⟩,
  ⟨CMP_RES_HDR.UNMAPPED, .ro, false⟩,
  ⟨CMP_RES_HDR.VALID, .ro, false⟩,
  ⟨CMP_RES_TAG.TAG, .ro, false⟩,
  ⟨CMP_RES_IN.BYTES, .ro, false⟩,
  ⟨CMP_RES_OUT.BYTES, .ro, false⟩,
  ⟨CMP_RES_RAW_CRC.CRC, .ro, false⟩,
  ⟨CMP_RES_PAY_CRC.CRC, .ro, false⟩,
  ⟨CMP_RES_BLOCKS.STORED, .ro, false⟩,
  ⟨CMP_RES_BLOCKS.BLOCKS, .ro, false⟩]

def rowsCMP1 : List Row := [
  ⟨CMP_RES_POISON_OFS.OFFSET, .ro, false⟩,
  ⟨CMP_RES_POP.POP, .w1s, true⟩,
  ⟨CMP_RES_STATUS.OVERFLOW, .ro, false⟩,
  ⟨CMP_RES_STATUS.LEVEL, .ro, false⟩,
  ⟨CMP_SPARES.SPARE_25, .ro, false⟩,
  ⟨CMP_SPARES.SPARE_8, .ro, false⟩]

def rowsCMP : List Row := rowsCMP0 ++ rowsCMP1

def rowsDCM : List Row := [
  ⟨DCM_STATUS.ANY_BUSY, .ro, false⟩,
  ⟨DCM_STATUS.ANY_FAILED, .ro, false⟩,
  ⟨DCM_LANE_SEL.LANE, .rw, false⟩,
  ⟨DCM_LANE_STATUS.QUEUED, .ro, false⟩,
  ⟨DCM_LANE_STATUS.STATE, .ro, false⟩,
  ⟨DCM_LANE_OUT_LO.BYTES, .ro, false⟩,
  ⟨DCM_LANE_OUT_HI.BYTES, .ro, false⟩,
  ⟨DCM_LANE_ERRORS.COUNT, .ro, false⟩,
  ⟨DCM_SW_SRC.REGION, .rw, false⟩,
  ⟨DCM_SW_SRC_OFS_LO.OFFSET, .rw, false⟩,
  ⟨DCM_SW_SRC_OFS_HI.OFFSET, .rw, false⟩,
  ⟨DCM_SW_SRC_LEN.LEN, .rw, false⟩,
  ⟨DCM_SW_DST.REGION, .rw, false⟩,
  ⟨DCM_SW_DST_OFS_LO.OFFSET, .rw, false⟩,
  ⟨DCM_SW_DST_OFS_HI.OFFSET, .rw, false⟩,
  ⟨DCM_SW_OUT_LEN.LEN, .rw, false⟩,
  ⟨DCM_SW_MODE.CHECK_EN, .rw, false⟩,
  ⟨DCM_SW_MODE.WRAP, .rw, false⟩,
  ⟨DCM_SW_CHECK.CRC, .rw, false⟩,
  ⟨DCM_SW_TAG.TAG, .rw, false⟩,
  ⟨DCM_SW_SUBMIT.LANE, .wo, true⟩,
  ⟨DCM_SW_SUBMIT.GO, .wo, true⟩,
  ⟨DCM_SW_STATUS.REFUSED, .ro, false⟩,
  ⟨DCM_SW_STATUS.LAST_REASON, .ro, false⟩,
  ⟨DCM_SW_STATUS.LAST_REFUSED, .ro, false⟩,
  ⟨DCM_RES_HDR.SEQ, .ro, false⟩,
  ⟨DCM_RES_HDR.LANE, .ro, false⟩,
  ⟨DCM_RES_HDR.RESULT, .ro, false⟩,
  ⟨DCM_RES_HDR.DETAIL, .ro, false⟩,
  ⟨DCM_RES_HDR.SHORT, .ro, false⟩,
  ⟨DCM_RES_HDR.VALID, .ro, false⟩,
  ⟨DCM_RES_TAG.TAG, .ro, false⟩,
  ⟨DCM_RES_IN_BIT_LO.BIT, .ro, false⟩,
  ⟨DCM_RES_IN_BIT_HI.BIT, .ro, false⟩,
  ⟨DCM_RES_OUT_BYTE.BYTES, .ro, false⟩,
  ⟨DCM_RES_TRAILING.BYTES, .ro, false⟩,
  ⟨DCM_RES_POP.POP, .w1s, true⟩,
  ⟨DCM_RES_STATUS.OVERFLOW, .ro, false⟩,
  ⟨DCM_RES_STATUS.LEVEL, .ro, false⟩]

def rowsSTR0 : List Row := [
  ⟨STR_CTRL.CNT_CLR, .w1s, true⟩,
  ⟨STR_STATUS.MOUNTED, .ro, false⟩,
  ⟨STR_STATUS.DEGRADED, .ro, false⟩,
  ⟨STR_STATUS.VOLUME_FULL, .ro, false⟩,
  ⟨STR_STATUS.RB_BUSY, .ro, false⟩,
  ⟨STR_VOL_CFG.WRITE_CACHE, .rws, false⟩,
  ⟨STR_VOL_CFG.SPARE_PORT, .rws, false⟩,
  ⟨STR_VOL_CFG.MEMBERS, .rws, false⟩,
  ⟨STR_VOL_EXTENT.BLOCKS, .rws, false⟩,
  ⟨STR_VOL_CKPT.MS, .rws, false⟩,
  ⟨STR_VOL_CMD.PORT, .wo, true⟩,
  ⟨STR_VOL_CMD.CMD, .wo, true⟩,
  ⟨STR_VOL_STATUS.ACTIVE, .ro, false⟩,
  ⟨STR_VOL_STATUS.RETIRED, .ro, false⟩,
  ⟨STR_VOL_STATUS.SPARE, .ro, false⟩,
  ⟨STR_VOL_STATUS.RESULT, .ro, false⟩,
  ⟨STR_VOL_STATUS.FULL, .ro, false⟩,
  ⟨STR_VOL_STATUS.STATE, .ro, false⟩,
  ⟨STR_VOL_ID_LO.ID, .ro, false⟩,
  ⟨STR_VOL_ID_HI.ID, .ro, false⟩,
  ⟨STR_VOL_GEN.GENERATION, .ro, false⟩,
  ⟨STR_RETIRE.POLL_S, .rm, false⟩,
  ⟨STR_RETIRE.PCT, .rm, false⟩,
  ⟨STR_SEL.STREAM, .rw, false⟩,
  ⟨STR_CFG.HOST_QUEUE, .rws, false⟩,
  ⟨STR_CFG.ENCODING, .rws, false⟩,
  ⟨STR_CFG.DEST, .rws, false⟩,
  ⟨STR_CFG.OPEN, .rws, false⟩,
  ⟨STR_CAPTURES.CAPTURES, .rws, false⟩,
  ⟨STR_LANES.LANES, .rws, false⟩,
  ⟨STR_PORTS.PORTS, .rws, false⟩,
  ⟨STR_STATUS.PENDING, .ro, false⟩,
  ⟨STR_STATUS.STATE, .ro, false⟩,
  ⟨STR_ID.STREAM_ID, .ro, false⟩,
  ⟨STR_SEQ.SEQ, .ro, false⟩,
  ⟨STR_RAW_LO.BYTES, .ro, false⟩,
  ⟨STR_RAW_HI.BYTES, .ro, false⟩,
  ⟨STR_WRITTEN_LO.BYTES, .ro, false⟩,
  ⟨STR_WRITTEN_HI.BYTES, .ro, false⟩,
  ⟨STR_RECORDS.RECORDS, .ro, false⟩]

def rowsSTR1 : List Row := [
  ⟨STR_REISSUE.LANE_FAULTS, .ro, false⟩,
  ⟨STR_REISSUE.FRAMES, .ro, false⟩,
  ⟨STR_RB_CTRL.EN, .rws, false⟩,
  ⟨STR_RB_CTRL.DCM_LANE, .rws, false⟩,
  ⟨STR_RB_CTRL.SCRATCH, .rws, false⟩,
  ⟨STR_RB_CTRL.DST, .rws, false⟩,
  ⟨STR_RB_STREAM.STREAM_ID, .rws, false⟩,
  ⟨STR_RB_FIRST.SEQ, .rws, false⟩,
  ⟨STR_RB_COUNT.RECORDS, .rws, false⟩,
  ⟨STR_RB_SEG.SEGMENT, .rws, false⟩,
  ⟨STR_RB_SEG_SIZE.SIZE, .rws, false⟩,
  ⟨STR_RB_STATUS.RESULT, .ro, false⟩,
  ⟨STR_RB_STATUS.DCM_CODE, .ro, false⟩,
  ⟨STR_RB_STATUS.BUSY, .ro, false⟩,
  ⟨STR_RB_STATUS.DONE, .ro, false⟩,
  ⟨STR_RB_ERR_SEQ.SEQ, .ro, false⟩]

def rowsSTR : List Row := rowsSTR0 ++ rowsSTR1

def rowsDISP : List Row := [
  ⟨DISP_STATUS.RASTER_RUN, .ro, false⟩,
  ⟨DISP_STATUS.HPD, .ro, false⟩,
  ⟨DISP_PCLK.KHZ, .rws, false⟩,
  ⟨DISP_H_ACT.TOTAL, .rws, false⟩,
  ⟨DISP_H_ACT.ACTIVE, .rws, false⟩,
  ⟨DISP_H_SYNC.POL, .rws, false⟩,
  ⟨DISP_H_SYNC.START, .rws, false⟩,
  ⟨DISP_H_SYNC.WIDTH, .rws, false⟩,
  ⟨DISP_V_ACT.TOTAL, .rws, false⟩,
  ⟨DISP_V_ACT.ACTIVE, .rws, false⟩,
  ⟨DISP_V_SYNC.POL, .rws, false⟩,
  ⟨DISP_V_SYNC.START, .rws, false⟩,
  ⟨DISP_V_SYNC.WIDTH, .rws, false⟩,
  ⟨DISP_BG.RGB, .rws, false⟩,
  ⟨DISP_REFRESH.STATIC_FRAMES, .rws, false⟩,
  ⟨DISP_REFRESH.FLOOR, .rws, false⟩,
  ⟨DISP_LINK.MAX_RATE, .rws, false⟩,
  ⟨DISP_LINK.MAX_LANES, .rws, false⟩,
  ⟨DISP_LINK.ADAPTIVE_EN, .rws, false⟩,
  ⟨DISP_LINK.OUT_EN, .rws, false⟩,
  ⟨DISP_LINK_STATUS.TRAINS, .ro, false⟩,
  ⟨DISP_LINK_STATUS.SINK_ADAPTIVE, .ro, false⟩,
  ⟨DISP_LINK_STATUS.RATE, .ro, false⟩,
  ⟨DISP_LINK_STATUS.LANES, .ro, false⟩,
  ⟨DISP_LINK_STATUS.TRAINED, .ro, false⟩,
  ⟨DISP_LINK_STATUS.HPD, .ro, false⟩,
  ⟨DISP_FRAME.FRAME, .ro, false⟩,
  ⟨DISP_APPLIED_FRAME.FRAME, .ro, false⟩,
  ⟨DISP_COMPOSED_FRAME.FRAME, .ro, false⟩,
  ⟨DISP_LINE.EXTENDED, .ro, false⟩,
  ⟨DISP_LINE.IN_BLANK, .ro, false⟩,
  ⟨DISP_LINE.LINE, .ro, false⟩,
  ⟨DISP_UNDERRUN.COUNT, .ro, false⟩,
  ⟨DISP_UNDERRUN.LINE, .ro, false⟩,
  ⟨DISP_UNDERRUN_FRAME.FRAME, .ro, false⟩,
  ⟨DISP_RATE.MHZ, .ro, false⟩,
  ⟨DISP_EDID_SEL.AUTO_INC, .rw, false⟩,
  ⟨DISP_EDID_SEL.BYTE, .rw, false⟩,
  ⟨DISP_EDID_DATA.DATA, .ro, false⟩]

def rowsCNV0 : List Row := [
  ⟨CNV_CTRL.CNT_CLR, .w1s, true⟩,
  ⟨CNV_STATUS.RUN_STATE, .ro, false⟩,
  ⟨CNV_STATUS.LIMITER_ACTIVE, .ro, false⟩,
  ⟨CNV_STATUS.INJECT_ACTIVE, .ro, false⟩,
  ⟨CNV_STATUS.IN_SETTLE, .ro, false⟩,
  ⟨CNV_RUN.START_EVT, .rws, false⟩,
  ⟨CNV_RUN.START_SRC, .rws, false⟩,
  ⟨CNV_RUN.RUN, .rws, false⟩,
  ⟨CNV_START_AT_LO.START_AT, .rws, false⟩,
  ⟨CNV_START_AT_HI.START_AT, .rws, false⟩,
  ⟨CNV_START_ACTUAL_LO.ACTUAL, .ro, false⟩,
  ⟨CNV_START_ACTUAL_HI.ACTUAL, .ro, false⟩,
  ⟨CNV_FORMAT.RAW_FMT, .rws, false⟩,
  ⟨CNV_SCAN_CTRL.START_ENTRY, .rws, false⟩,
  ⟨CNV_SCAN_CTRL.LENGTH, .rws, false⟩,
  ⟨CNV_SCAN_SEL.ENTRY, .rw, false⟩,
  ⟨CNV_SCAN_CFG.ATTEN, .rws, false⟩,
  ⟨CNV_SCAN_CFG.SOURCE, .rws, false⟩,
  ⟨CNV_SCAN_TIME.SETTLE, .rws, false⟩,
  ⟨CNV_SCAN_TIME.REPEAT, .rws, false⟩,
  ⟨CNV_SCAN_STATUS.FRAMES_LEFT, .ro, false⟩,
  ⟨CNV_SCAN_STATUS.IN_SETTLE, .ro, false⟩,
  ⟨CNV_SCAN_STATUS.INJECTED, .ro, false⟩,
  ⟨CNV_SCAN_STATUS.ENTRY, .ro, false⟩,
  ⟨CNV_SCAN_SKIPS.SKIPS, .ro, false⟩,
  ⟨CNV_SCAN_CYCLES.CYCLES, .ro, false⟩,
  ⟨CNV_INJ_SW_CFG.ATTEN, .rw, false⟩,
  ⟨CNV_INJ_SW_CFG.SOURCE, .rw, false⟩,
  ⟨CNV_INJ_SW_TIME.SETTLE, .rw, false⟩,
  ⟨CNV_INJ_SW_TIME.REPEAT, .rw, false⟩,
  ⟨CNV_INJ_TRG_CFG.ATTEN, .rws, false⟩,
  ⟨CNV_INJ_TRG_CFG.SOURCE, .rws, false⟩,
  ⟨CNV_INJ_TRG_TIME.SETTLE, .rws, false⟩,
  ⟨CNV_INJ_TRG_TIME.REPEAT, .rws, false⟩,
  ⟨CNV_INJECT.GO, .w1s, true⟩,
  ⟨CNV_INJECT_STATUS.REFUSED, .ro, false⟩,
  ⟨CNV_INJECT_STATUS.REFUSE_REASON, .ro, false⟩,
  ⟨CNV_INJECT_STATUS.LAST_ZERO_LENGTH, .ro, false⟩,
  ⟨CNV_INJECT_STATUS.LAST_SW_REFUSED, .ro, false⟩,
  ⟨CNV_INJECT_STATUS.ORIGIN, .ro, false⟩]

def rowsCNV1 : List Row := [
  ⟨CNV_INJECT_STATUS.STATE, .ro, false⟩,
  ⟨CNV_INJECT_DONE.DONE, .ro, false⟩,
  ⟨CNV_INJECT_LAT.TICKS, .ro, false⟩,
  ⟨CNV_OFFSET.OFFSET, .rws, false⟩,
  ⟨CNV_GAIN.GAIN, .rws, false⟩,
  ⟨CNV_EQ_CTRL.MODE, .rws, false⟩,
  ⟨CNV_EQ_SEL.BANK, .rw, false⟩,
  ⟨CNV_EQ_SEL.VIEW_FACTORY, .rw, false⟩,
  ⟨CNV_EQ_SEL.AUTO_INC, .rw, false⟩,
  ⟨CNV_EQ_SEL.TAP, .rw, false⟩,
  ⟨CNV_EQ_DATA.COEFF, .rws, false⟩,
  ⟨CNV_OVR_COUNT_LO.COUNT, .ro, false⟩,
  ⟨CNV_OVR_COUNT_HI.COUNT, .ro, false⟩,
  ⟨CNV_OVR_RUNS.RUNS, .ro, false⟩,
  ⟨CNV_OVR_LAST_LO.LAST, .ro, false⟩,
  ⟨CNV_OVR_LAST_HI.LAST, .ro, false⟩,
  ⟨CNV_LIMITER.ENGAGED, .ro, false⟩,
  ⟨CNV_LIMITER.ACTIVE, .ro, false⟩,
  ⟨CNV_PWR_DET.OVER, .ro, false⟩,
  ⟨CNV_PWR_DET.UNDER, .ro, false⟩,
  ⟨CNV_PWR_DET.VALID, .ro, false⟩,
  ⟨CNV_PWR_DET.POWER, .ro, false⟩,
  ⟨CNV_SLICE_STATUS.ROTATION_STOPPED, .ro, false⟩,
  ⟨CNV_SLICE_STATUS.SPARES_LEFT, .ro, false⟩,
  ⟨CNV_SLICE_STATUS.CAL_SLICE, .ro, false⟩,
  ⟨CNV_DROP_MSGS.DROPS, .ro, false⟩]

def rowsCNV : List Row := rowsCNV0 ++ rowsCNV1

def rowsCHN : List Row := [
  ⟨CHN_CTRL.CNT_CLR, .w1s, true⟩,
  ⟨CHN_STATUS.DELIVERING, .ro, false⟩,
  ⟨CHN_ROUTE_SEL.CLUSTER, .rw, false⟩,
  ⟨CHN_ROUTE_LO.SUBBANDS, .ro, false⟩,
  ⟨CHN_ROUTE_HI.SUBBANDS, .ro, false⟩,
  ⟨CHN_ROUTE_UNITS.ROUTES, .ro, false⟩,
  ⟨CHN_ROUTE_UNITS.UNITS, .ro, false⟩,
  ⟨CHN_SUBS.REFUSED, .ro, false⟩,
  ⟨CHN_SUBS.ACCEPTED, .ro, false⟩,
  ⟨CHN_DROP_MSGS.DROPS, .ro, false⟩,
  ⟨CHN_TAINTED.STAMPS, .ro, false⟩,
  ⟨CHN_GAPS.GAPS, .ro, false⟩,
  ⟨CHN_LAST_INDEX.INDEX, .ro, false⟩]

def rowsWTE : List Row := [
  ⟨WTE_CTRL.CNT_CLR, .w1s, true⟩,
  ⟨WTE_STATUS.COMPUTING, .ro, false⟩,
  ⟨WTE_STATUS.HOLDING, .ro, false⟩,
  ⟨WTE_XFORM.WINDOW, .rws, false⟩,
  ⟨WTE_XFORM.OVERLAP, .rws, false⟩,
  ⟨WTE_XFORM.LOG2N, .rws, false⟩,
  ⟨WTE_KAISER.BETA, .rws, false⟩,
  ⟨WTE_BIN_CFG.DEST, .rws, false⟩,
  ⟨WTE_BIN_CFG.FORMAT, .rws, false⟩,
  ⟨WTE_BIN_CFG.EN, .rws, false⟩,
  ⟨WTE_BIN_FIRST.FIRST, .rws, false⟩,
  ⟨WTE_BIN_COUNT.COUNT, .rws, false⟩,
  ⟨WTE_COL_CFG.DEST, .rws, false⟩,
  ⟨WTE_COL_CFG.DETECTOR, .rws, false⟩,
  ⟨WTE_COL_CFG.EN, .rws, false⟩,
  ⟨WTE_COL_FIRST.FIRST, .rws, false⟩,
  ⟨WTE_COL_BINS.BINS, .rws, false⟩,
  ⟨WTE_COL_COUNT.COUNT, .rws, false⟩,
  ⟨WTE_WIN_SEL.AUTO_INC, .rw, false⟩,
  ⟨WTE_WIN_SEL.ENTRY, .rw, false⟩,
  ⟨WTE_WIN_DATA.COEFF, .rws, false⟩,
  ⟨WTE_WIN_GAIN.ENBW, .ro, false⟩,
  ⟨WTE_WIN_GAIN.CG, .ro, false⟩,
  ⟨WTE_WIN_POI.FRAC_3DB, .ro, false⟩,
  ⟨WTE_GRID.HOP, .ro, false⟩,
  ⟨WTE_ANCHOR_LO.ANCHOR, .ro, false⟩,
  ⟨WTE_ANCHOR_HI.ANCHOR, .ro, false⟩,
  ⟨WTE_SEQ.SEQUENCE, .ro, false⟩,
  ⟨WTE_EXP.MAX_EXP, .ro, false⟩,
  ⟨WTE_EXP.MIN_EXP, .ro, false⟩,
  ⟨WTE_EXP.LAST_EXP, .ro, false⟩,
  ⟨WTE_ABANDONED.FRAMES, .ro, false⟩,
  ⟨WTE_DROPPED.COLUMNS, .ro, false⟩,
  ⟨WTE_DROPPED.BINS, .ro, false⟩,
  ⟨WTE_TAINTED.SPECTRA, .ro, false⟩,
  ⟨WTE_LAST_TIME_LO.TIME, .ro, false⟩,
  ⟨WTE_LAST_TIME_HI.TIME, .ro, false⟩]

def rowsCRS : List Row := [
  ⟨CRS_STATUS.RUN_STATE, .ro, false⟩,
  ⟨CRS_RUN.START_EVT, .rws, false⟩,
  ⟨CRS_RUN.START_SRC, .rws, false⟩,
  ⟨CRS_RUN.RUN, .rws, false⟩,
  ⟨CRS_START_AT_LO.START_AT, .rws, false⟩,
  ⟨CRS_START_AT_HI.START_AT, .rws, false⟩,
  ⟨CRS_START_ACTUAL_LO.ACTUAL, .ro, false⟩,
  ⟨CRS_START_ACTUAL_HI.ACTUAL, .ro, false⟩,
  ⟨CRS_STOP_ACTUAL_LO.ACTUAL, .ro, false⟩,
  ⟨CRS_STOP_ACTUAL_HI.ACTUAL, .ro, false⟩,
  ⟨(CRS_MEMBERS.MEMBERS 0), .ro, false⟩,
  ⟨(CRS_MEMBERS.MEMBERS 1), .ro, false⟩,
  ⟨(CRS_MEMBERS.MEMBERS 2), .ro, false⟩,
  ⟨(CRS_MEMBERS.MEMBERS 3), .ro, false⟩,
  ⟨(CRS_MEMBERS.MEMBERS 4), .ro, false⟩,
  ⟨(CRS_MEMBERS.MEMBERS 5), .ro, false⟩,
  ⟨(CRS_MEMBERS.MEMBERS 6), .ro, false⟩,
  ⟨(CRS_MEMBERS.MEMBERS 7), .ro, false⟩,
  ⟨CRS_MEMBER_COUNT.COUNT, .ro, false⟩,
  ⟨CRS_EPOCH_SEL.BRICK, .rw, false⟩,
  ⟨CRS_EPOCH_VIEW.ROLE, .ro, false⟩,
  ⟨CRS_EPOCH_VIEW.EPOCH, .ro, false⟩,
  ⟨CRS_STALE.COUNT, .ro, false⟩,
  ⟨CRS_SWITCH_TIMEOUT.MS, .rws, false⟩,
  ⟨CRS_REPLAY.LOG2, .rws, false⟩,
  ⟨CRS_REPLAY.PACE, .rws, false⟩]

def rowsTRG0 : List Row := [
  ⟨TRG_CTRL.CNT_CLR, .w1s, true⟩,
  ⟨TRG_STATUS.EVALUATING, .ro, false⟩,
  ⟨TRG_STATUS.HOLDING, .ro, false⟩,
  ⟨TRG_STATUS.MASK_COPYING, .ro, false⟩,
  ⟨TRG_SEQ_CFG.CROSS_DEST, .rws, false⟩,
  ⟨TRG_SEQ_CFG.HOLDOFF_COND, .rws, false⟩,
  ⟨TRG_SEQ_CFG.HOLDOFF_MODE, .rws, false⟩,
  ⟨TRG_SEQ_CFG.START_STATE, .rws, false⟩,
  ⟨TRG_HOLDOFF.VALUE, .rws, false⟩,
  ⟨TRG_HORIZON.TICKS, .rws, false⟩,
  ⟨TRG_SWTRIG.COND, .w1s, true⟩,
  ⟨TRG_COND_SEL.COND, .rw, false⟩,
  ⟨TRG_COND_CFG.BRICK, .rws, false⟩,
  ⟨TRG_COND_CFG.RECT, .rws, false⟩,
  ⟨TRG_COND_CFG.UNIT, .rws, false⟩,
  ⟨TRG_COND_CFG.IGNORE_DROP, .rws, false⟩,
  ⟨TRG_COND_CFG.IGNORE_HOLDOVER, .rws, false⟩,
  ⟨TRG_COND_CFG.IGNORE_TAINT, .rws, false⟩,
  ⟨TRG_COND_CFG.MODE, .rws, false⟩,
  ⟨TRG_COND_CFG.SOURCE, .rws, false⟩,
  ⟨TRG_COND_CFG.TYPE, .rws, false⟩,
  ⟨TRG_COND_LEVEL.UPPER, .rws, false⟩,
  ⟨TRG_COND_LEVEL.LOWER, .rws, false⟩,
  ⟨TRG_COND_PARAM.HYST, .rws, false⟩,
  ⟨TRG_COND_PARAM.LOG2L, .rws, false⟩,
  ⟨TRG_COND_COUNT.COUNT, .rws, false⟩,
  ⟨TRG_COND_MASK_BASE.BASE, .rws, false⟩,
  ⟨TRG_COND_MASK_LEN.LEN, .rws, false⟩,
  ⟨TRG_COND_PERIOD.PERIOD, .rws, false⟩,
  ⟨TRG_COND_PHASE.PHASE, .rws, false⟩,
  ⟨TRG_COND_TRUE.SLOTS, .ro, false⟩,
  ⟨TRG_COND_IGNORED.ITEMS, .ro, false⟩,
  ⟨TRG_COND_LATE.ITEMS, .ro, false⟩,
  ⟨TRG_COND_LAST_LO.TIME, .ro, false⟩,
  ⟨TRG_COND_LAST_HI.TIME, .ro, false⟩,
  ⟨TRG_STATE_SEL.STATE, .rw, false⟩,
  ⟨TRG_ST_MASKS.RESET_MASK, .rws, false⟩,
  ⟨TRG_ST_MASKS.GO_MASK, .rws, false⟩,
  ⟨TRG_ST_CTRL.IRQ, .rws, false⟩,
  ⟨TRG_ST_CTRL.MARK, .rws, false⟩]

def rowsTRG1 : List Row := [
  ⟨TRG_ST_CTRL.CROSS, .rws, false⟩,
  ⟨TRG_ST_CTRL.INJECT, .rws, false⟩,
  ⟨TRG_ST_CTRL.TRIGGER, .rws, false⟩,
  ⟨TRG_ST_CTRL.TIMEOUT_EN, .rws, false⟩,
  ⟨TRG_ST_CTRL.TIMEOUT_TO, .rws, false⟩,
  ⟨TRG_ST_CTRL.RESET_TO, .rws, false⟩,
  ⟨TRG_ST_CTRL.NEXT, .rws, false⟩,
  ⟨TRG_ST_COUNT.COUNT, .rws, false⟩,
  ⟨TRG_ST_TIMEOUT.TICKS, .rws, false⟩,
  ⟨TRG_ST_VISITS.ENTRIES, .ro, false⟩,
  ⟨TRG_SEQ_STATUS.COUNT_NOW, .ro, false⟩,
  ⟨TRG_SEQ_STATUS.HOLDING, .ro, false⟩,
  ⟨TRG_SEQ_STATUS.STATE, .ro, false⟩,
  ⟨TRG_TRIGGERS.COUNT, .ro, false⟩,
  ⟨TRG_SAME_SLOT.COUNT, .ro, false⟩,
  ⟨TRG_INJECT.REFUSED, .ro, false⟩,
  ⟨TRG_INJECT.LAST_REASON, .ro, false⟩,
  ⟨TRG_INJECT.ACCEPTED, .ro, false⟩,
  ⟨TRG_LAT_MAX.TICKS, .ro, false⟩,
  ⟨TRG_SLOT_LO.TIME, .ro, false⟩,
  ⟨TRG_SLOT_HI.TIME, .ro, false⟩,
  ⟨TRG_MASK_SEL.AUTO_INC, .rw, false⟩,
  ⟨TRG_MASK_SEL.ENTRY, .rw, false⟩,
  ⟨TRG_MASK_DATA.LOWER, .rws, false⟩,
  ⟨TRG_MASK_DATA.UPPER, .rws, false⟩,
  ⟨TRG_MASK_STATUS.BANK, .ro, false⟩,
  ⟨TRG_MASK_STATUS.COPYING, .ro, false⟩,
  ⟨TRG_LOG_HDR.SEQ, .ro, false⟩,
  ⟨TRG_LOG_HDR.FROM, .ro, false⟩,
  ⟨TRG_LOG_HDR.TO, .ro, false⟩,
  ⟨TRG_LOG_HDR.COND, .ro, false⟩,
  ⟨TRG_LOG_HDR.TAINT, .ro, false⟩,
  ⟨TRG_LOG_HDR.HOLDOVER, .ro, false⟩,
  ⟨TRG_LOG_HDR.LATE, .ro, false⟩,
  ⟨TRG_LOG_HDR.INJ_REQ, .ro, false⟩,
  ⟨TRG_LOG_HDR.TRIGGER, .ro, false⟩,
  ⟨TRG_LOG_HDR.VALID, .ro, false⟩,
  ⟨TRG_LOG_MASK.MASK, .ro, false⟩,
  ⟨TRG_LOG_TIME_LO.TIME, .ro, false⟩,
  ⟨TRG_LOG_TIME_HI.TIME, .ro, false⟩]

def rowsTRG2 : List Row := [
  ⟨TRG_LOG_POP.POP, .w1s, true⟩,
  ⟨TRG_LOG_STATUS.OVERFLOW, .ro, false⟩,
  ⟨TRG_LOG_STATUS.LEVEL, .ro, false⟩]

def rowsTRG : List Row := rowsTRG0 ++ rowsTRG1 ++ rowsTRG2

def rowsDEN0 : List Row := [
  ⟨DEN_CTRL.CNT_CLR, .w1s, true⟩,
  ⟨DEN_CTRL.CLEAR, .w1s, true⟩,
  ⟨DEN_STATUS.FOLDING, .ro, false⟩,
  ⟨DEN_STATUS.PUBLISHING, .ro, false⟩,
  ⟨DEN_STATUS.FORWARDED, .ro, false⟩,
  ⟨DEN_SRC.BRICK, .rws, false⟩,
  ⟨DEN_SRC.INPUT, .rws, false⟩,
  ⟨DEN_SRC.TYPE, .rws, false⟩,
  ⟨DEN_GEOM.ROWS, .rws, false⟩,
  ⟨DEN_GEOM.COLUMNS, .rws, false⟩,
  ⟨DEN_VAL_FIRST.FIRST, .rws, false⟩,
  ⟨DEN_VAL_COUNT.COUNT, .rws, false⟩,
  ⟨DEN_SCALE.STEP, .rws, false⟩,
  ⟨DEN_SCALE.BOTTOM, .rws, false⟩,
  ⟨DEN_MODE.DRAW, .rws, false⟩,
  ⟨DEN_MODE.SHIFT, .rws, false⟩,
  ⟨DEN_MODE.DECAY, .rws, false⟩,
  ⟨DEN_FRAME.PERIODS, .rws, false⟩,
  ⟨DEN_CLOSE.TICKS, .rws, false⟩,
  ⟨DEN_REPORT.COURSES, .rws, false⟩,
  ⟨DEN_REPORT.RECT_EN, .rws, false⟩,
  ⟨DEN_RECT_SEL.RECT, .rw, false⟩,
  ⟨DEN_RECT_COLS.COL_HI, .rws, false⟩,
  ⟨DEN_RECT_COLS.COL_LO, .rws, false⟩,
  ⟨DEN_RECT_ROWS.ROW_HI, .rws, false⟩,
  ⟨DEN_RECT_ROWS.ROW_LO, .rws, false⟩,
  ⟨DEN_RECT_COUNT.COUNT, .ro, false⟩,
  ⟨DEN_PUB_CFG.EN, .rws, false⟩,
  ⟨DEN_PUB_CFG.REGION, .rws, false⟩,
  ⟨DEN_PUB_CFG.BUFS, .rws, false⟩,
  ⟨DEN_PUB_CFG.EVERY, .rws, false⟩,
  ⟨DEN_PUB_BYTES.B, .ro, false⟩,
  ⟨DEN_PUB_LAST.BUF, .ro, false⟩,
  ⟨DEN_PUB_LAST.VALID, .ro, false⟩,
  ⟨DEN_PUB_SEQ.SEQUENCE, .ro, false⟩,
  ⟨DEN_WF_CFG.EN, .rws, false⟩,
  ⟨DEN_WF_CFG.REGION, .rws, false⟩,
  ⟨DEN_WF_CFG.DETECT, .rws, false⟩,
  ⟨DEN_WF_LINES.LINES, .rws, false⟩,
  ⟨DEN_WF_LAST.VALID, .ro, false⟩]

def rowsDEN1 : List Row := [
  ⟨DEN_WF_LAST.LINE, .ro, false⟩,
  ⟨DEN_SEQ.SEQUENCE, .ro, false⟩,
  ⟨DEN_SPECTRA.COUNT, .ro, false⟩,
  ⟨DEN_DISCARDS.LATE, .ro, false⟩,
  ⟨DEN_DISCARDS.OVERRUN, .ro, false⟩,
  ⟨DEN_IGNORED.COMPLEX, .ro, false⟩,
  ⟨DEN_IGNORED.MISMATCH, .ro, false⟩,
  ⟨DEN_SKIPS.WF, .ro, false⟩,
  ⟨DEN_SKIPS.PUB, .ro, false⟩,
  ⟨DEN_SAT.CELLS, .ro, false⟩,
  ⟨DEN_REPORT_DROPS.COUNT, .ro, false⟩,
  ⟨DEN_PHYS.SPARE_LEFT, .ro, false⟩,
  ⟨DEN_PHYS.ENGINE, .ro, false⟩]

def rowsDEN : List Row := rowsDEN0 ++ rowsDEN1

def rowsLAYER : List Row := [
  ⟨LAYER_CFG.GLOBAL_ALPHA, .rws, false⟩,
  ⟨LAYER_CFG.REGION, .rws, false⟩,
  ⟨LAYER_CFG.ENGINE, .rws, false⟩,
  ⟨LAYER_CFG.TYPE, .rws, false⟩,
  ⟨LAYER_POS.Y, .rws, false⟩,
  ⟨LAYER_POS.X, .rws, false⟩,
  ⟨LAYER_SIZE.H, .rws, false⟩,
  ⟨LAYER_SIZE.W, .rws, false⟩,
  ⟨LAYER_BASE.OFFSET, .rws, false⟩,
  ⟨LAYER_STRIDE.BYTES, .rws, false⟩,
  ⟨LAYER_CMAP.SCALE, .rws, false⟩,
  ⟨LAYER_CMAP.SHIFT, .rws, false⟩,
  ⟨LAYER_CMAP.MODE, .rws, false⟩,
  ⟨LAYER_WF_SCALE.STEP, .rws, false⟩,
  ⟨LAYER_WF_SCALE.BOTTOM, .rws, false⟩,
  ⟨LAYER_PAL_SEL.AUTO_INC, .rw, false⟩,
  ⟨LAYER_PAL_SEL.ENTRY, .rw, false⟩,
  ⟨LAYER_PAL_DATA.RGBA, .rws, false⟩,
  ⟨LAYER_RETIRE.FRAME, .ro, false⟩,
  ⟨LAYER_SRC_SEQ.SEQUENCE, .ro, false⟩,
  ⟨LAYER_UNMAPPED.COUNT, .ro, false⟩]

def rowsNVP : List Row := [
  ⟨NVP_STATUS.LINK_UP, .ro, false⟩,
  ⟨NVP_STATUS.READY, .ro, false⟩,
  ⟨NVP_STATUS.WRITING, .ro, false⟩,
  ⟨NVP_CFG.EN, .rws, false⟩,
  ⟨NVP_CFG.MAX_SPEED, .rws, false⟩,
  ⟨NVP_LINK.WIDTH, .ro, false⟩,
  ⟨NVP_LINK.UP, .ro, false⟩,
  ⟨NVP_LINK.SPEED, .ro, false⟩,
  ⟨NVP_DRIVE.LEDGER, .ro, false⟩,
  ⟨NVP_DRIVE.REFUSE, .ro, false⟩,
  ⟨NVP_DRIVE.ROLE, .ro, false⟩,
  ⟨NVP_DRIVE.STATE, .ro, false⟩,
  ⟨NVP_ID_SEL.WORD, .rw, false⟩,
  ⟨NVP_ID_DATA.DATA, .ro, false⟩,
  ⟨NVP_NSZE_LO.BLOCKS, .ro, false⟩,
  ⟨NVP_NSZE_HI.BLOCKS, .ro, false⟩,
  ⟨NVP_CAPS.MAX_XFER, .ro, false⟩,
  ⟨NVP_CAPS.DSM, .ro, false⟩,
  ⟨NVP_CAPS.VWC, .ro, false⟩,
  ⟨NVP_CAPS.VWC_ON, .ro, false⟩,
  ⟨NVP_HEALTH.TEMP, .ro, false⟩,
  ⟨NVP_HEALTH.CRIT, .ro, false⟩,
  ⟨NVP_HEALTH.PCT_USED, .ro, false⟩,
  ⟨NVP_WRITTEN_LO.BYTES, .ro, false⟩,
  ⟨NVP_WRITTEN_HI.BYTES, .ro, false⟩,
  ⟨NVP_ALLOC_LO.LBA, .ro, false⟩,
  ⟨NVP_ALLOC_HI.LBA, .ro, false⟩,
  ⟨NVP_IO.ERRORS, .ro, false⟩,
  ⟨NVP_IO.TIMEOUTS, .ro, false⟩,
  ⟨NVP_IO.OUTSTANDING, .ro, false⟩,
  ⟨NVP_LAST_ERR.OPCODE, .ro, false⟩,
  ⟨NVP_LAST_ERR.SCT, .ro, false⟩,
  ⟨NVP_LAST_ERR.SC, .ro, false⟩,
  ⟨NVP_FRAMES.FRAMES, .ro, false⟩,
  ⟨NVP_RETIRE.REQ, .rm, true⟩]

def rowsCORE0 : List Row := [
  ⟨CORE_CTRL.RESTART, .w1s, true⟩,
  ⟨CORE_CTRL.HALT, .w1s, true⟩,
  ⟨CORE_CTRL.RESUME, .w1s, true⟩,
  ⟨CORE_CTRL.CNT_CLR, .w1s, true⟩,
  ⟨CORE_STATUS.STATE, .ro, false⟩,
  ⟨CORE_STATUS.LEVEL, .ro, false⟩,
  ⟨CORE_ENTRY.ADDR, .rw, false⟩,
  ⟨CORE_PC.PC, .ro, false⟩,
  ⟨CORE_SR.SR, .ro, false⟩,
  ⟨CORE_INBOX.EN, .rws, false⟩,
  ⟨CORE_INBOX.BASE, .rws, false⟩,
  ⟨CORE_INBOX_SIZE.SIZE, .rws, false⟩,
  ⟨CORE_REC_CAPS.CAPTURES, .rws, false⟩,
  ⟨CORE_REC_SLOT.SLOT, .rws, false⟩,
  ⟨CORE_MBOX_IN.DATA, .rw, true⟩,
  ⟨CORE_MBOX_OUT.DATA, .ro, false⟩,
  ⟨CORE_MEM_SEL.SPACE, .rw, false⟩,
  ⟨CORE_MEM_SEL.AUTO_INC, .rw, false⟩,
  ⟨CORE_MEM_SEL.ADDR, .rw, false⟩,
  ⟨CORE_MEM_DATA.DATA, .rw, true⟩,
  ⟨CORE_BOOT_SRC.REGION, .rw, false⟩,
  ⟨CORE_BOOT_OFS_LO.OFS, .rw, false⟩,
  ⟨CORE_BOOT_OFS_HI.OFS, .rw, false⟩,
  ⟨CORE_BOOT_LEN.LEN, .rw, false⟩,
  ⟨CORE_BOOT_CTRL.GO, .w1s, true⟩,
  ⟨CORE_BOOT_STATUS.RESULT, .ro, false⟩,
  ⟨CORE_BOOT_STATUS.STATE, .ro, false⟩,
  ⟨CORE_EXC_PC.PC, .ro, false⟩,
  ⟨CORE_EXC_INFO.DOUBLE, .ro, false⟩,
  ⟨CORE_EXC_INFO.SOURCE, .ro, false⟩,
  ⟨CORE_EXC_INFO.COUNT, .ro, false⟩,
  ⟨CORE_EXC_ADDR.ADDR, .ro, false⟩,
  ⟨CORE_BUSY_LO.CYCLES, .ro, false⟩,
  ⟨CORE_BUSY_HI.CYCLES, .ro, false⟩,
  ⟨CORE_INBOX_DROPS.ENTRIES, .ro, false⟩,
  ⟨CORE_REC_LOST.NOTICES, .ro, false⟩,
  ⟨CORE_DMA_REFUSED.PUSHES, .ro, false⟩,
  ⟨CORE_ECC.UNCORR, .ro, false⟩,
  ⟨CORE_ECC.CORR, .ro, false⟩,
  ⟨CORE_PHYS.SPARE_LEFT, .ro, false⟩]

def rowsCORE1 : List Row := [
  ⟨CORE_PHYS.PHYS, .ro, false⟩]

def rowsCORE : List Row := rowsCORE0 ++ rowsCORE1

def rowsBRK0 : List Row := [
  ⟨BRK_CTRL.CNT_CLR, .w1s, true⟩,
  ⟨BRK_STATUS.SUBSCRIBED, .ro, false⟩,
  ⟨BRK_STATUS.WARM, .ro, false⟩,
  ⟨BRK_STATUS.EMITTING, .ro, false⟩,
  ⟨BRK_STATUS.SWITCH_PENDING, .ro, false⟩,
  ⟨BRK_STATUS.FAILED, .ro, false⟩,
  ⟨BRK_ROLE.COURSE, .rws, false⟩,
  ⟨BRK_ROLE.ROLE, .rws, false⟩,
  ⟨BRK_SOURCE.REPLAY_LOG2, .rws, false⟩,
  ⟨BRK_SOURCE.SUBBAND, .rws, false⟩,
  ⟨BRK_NCO_LO.WORD, .rws, false⟩,
  ⟨BRK_NCO_HI.WORD, .rws, false⟩,
  ⟨BRK_SPAN.SPAN, .rws, false⟩,
  ⟨BRK_CHAIN.RESAMP, .ro, false⟩,
  ⟨BRK_CHAIN.STAGES, .ro, false⟩,
  ⟨BRK_RATIO.RATIO, .ro, false⟩,
  ⟨BRK_RATE.RATE, .ro, false⟩,
  ⟨BRK_XFORM.WINDOW, .rws, false⟩,
  ⟨BRK_XFORM.OVERLAP, .rws, false⟩,
  ⟨BRK_XFORM.LOG2M, .rws, false⟩,
  ⟨BRK_KAISER.BETA, .rws, false⟩,
  ⟨BRK_SPEC_CFG.DEST, .rws, false⟩,
  ⟨BRK_SPEC_CFG.FORMAT, .rws, false⟩,
  ⟨BRK_SPEC_BINS.COUNT, .rws, false⟩,
  ⟨BRK_SPEC_BINS.FIRST, .rws, false⟩,
  ⟨BRK_IQ_CFG.DEST, .rws, false⟩,
  ⟨BRK_EPOCH.ROLE_WRITES, .ro, false⟩,
  ⟨BRK_EPOCH.EPOCH, .ro, false⟩,
  ⟨BRK_STALE.COUNT, .ro, false⟩,
  ⟨BRK_STALE_LAST.SENDER, .ro, false⟩,
  ⟨BRK_STALE_LAST.KIND, .ro, false⟩,
  ⟨BRK_STALE_LAST.MSG_EPOCH, .ro, false⟩,
  ⟨BRK_STALE_LAST.EPOCH, .ro, false⟩,
  ⟨BRK_ROUTE.SUBSCRIBED, .ro, false⟩,
  ⟨BRK_ROUTE.SUBBAND, .ro, false⟩,
  ⟨BRK_ROUTE.INPUT, .ro, false⟩,
  ⟨BRK_ROUTE_INDEX.INDEX, .ro, false⟩,
  ⟨BRK_DROPPED.IQ_MSGS, .ro, false⟩,
  ⟨BRK_DROPPED.SPECTRA, .ro, false⟩,
  ⟨BRK_TAINTED.OUTPUTS, .ro, false⟩]

def rowsBRK1 : List Row := [
  ⟨BRK_GAPS.OUTPUTS, .ro, false⟩,
  ⟨BRK_SPEC_SEQ.SEQUENCE, .ro, false⟩,
  ⟨BRK_IQ_SEQ.SEQUENCE, .ro, false⟩,
  ⟨BRK_LAST_TIME_LO.TIME, .ro, false⟩,
  ⟨BRK_LAST_TIME_HI.TIME, .ro, false⟩,
  ⟨BRK_PHYS.SLOT, .ro, false⟩,
  ⟨BRK_PHYS.CLUSTER_SPARE, .ro, false⟩,
  ⟨BRK_SWITCH_LO.B, .ro, false⟩,
  ⟨BRK_SWITCH_HI.B, .ro, false⟩]

def rowsBRK : List Row := rowsBRK0 ++ rowsBRK1

/-- The block fields of a kind of page. -/
def Kind.rows : Kind → List Row
  | .sys => rowsSYS
  | .pcie => rowsPCIE
  | .clk => rowsCLK
  | .tb => rowsTB
  | .cal => rowsCAL
  | .evt => rowsEVT
  | .bud => rowsBUD
  | .flt => rowsFLT
  | .saf => rowsSAF
  | .mgt => rowsMGT
  | .pwr => rowsPWR
  | .dbg => rowsDBG
  | .acq => rowsACQ
  | .meas => rowsMEAS
  | .cmp => rowsCMP
  | .dcm => rowsDCM
  | .str => rowsSTR
  | .disp => rowsDISP
  | .cnv => rowsCNV
  | .chn => rowsCHN
  | .wte => rowsWTE
  | .crs => rowsCRS
  | .trg => rowsTRG
  | .den => rowsDEN
  | .layer => rowsLAYER
  | .nvp => rowsNVP
  | .core => rowsCORE
  | .brk => rowsBRK

end Sys2Proof.Machine
end

