-- ==== Sys2Proof/Machine/Pages.lean ====
section
/-! DEFINITION. The pages of BAR0 (R475): their indices, their islands, their default vectors, and the selection
registers behind which banked registers stand. -/

namespace Sys2Proof.Machine

/-! Page indices: BAR0 offset ÷ 4,096. -/
def pgSys : Nat := 0
def pgPcie : Nat := 1
def pgClk : Nat := 2
def pgTb : Nat := 3
def pgCal : Nat := 4
def pgEvt : Nat := 5
def pgBud : Nat := 6
def pgFlt : Nat := 7
def pgSaf : Nat := 8
def pgMgt : Nat := 9
def pgPwr : Nat := 10
def pgDbg : Nat := 11
def pgAcq : Nat := 12
def pgMeas : Nat := 13
def pgCmp : Nat := 14
def pgDcm : Nat := 15
def pgStr : Nat := 16
def pgDisp : Nat := 17
def pgCnv (x : Nat) : Nat := 32 + x
def pgChn (x : Nat) : Nat := 36 + x
def pgWte (x : Nat) : Nat := 40 + x
def pgCrs (d : Nat) : Nat := 48 + d
def pgTrg (d : Nat) : Nat := 56 + d
def pgDen (e : Nat) : Nat := 64 + e
def pgLayer (l : Nat) : Nat := 72 + l
def pgNvp (n : Nat) : Nat := 80 + n
def pgCore (c : Nat) : Nat := 96 + c
def pgBrk (n : Nat) : Nat := 256 + n

/-- One row of the page map: kind, instances, base page, first default vector. -/
structure PageRow where
  kind   : Kind
  count  : Nat
  base   : Nat
  vector : Nat
  deriving DecidableEq, Repr

/-- The page map of R475. MEAS has no vector (HAS_IRQ 0). -/
def pageMap : List PageRow := [
  ⟨.sys, 1, 0, 64⟩, ⟨.pcie, 1, 1, 65⟩, ⟨.clk, 1, 2, 66⟩, ⟨.tb, 1, 3, 67⟩, ⟨.cal, 1, 4, 68⟩, ⟨.evt, 1, 5, 69⟩,
  ⟨.bud, 1, 6, 70⟩, ⟨.flt, 1, 7, 71⟩, ⟨.saf, 1, 8, 72⟩, ⟨.mgt, 1, 9, 73⟩, ⟨.pwr, 1, 10, 74⟩, ⟨.dbg, 1, 11, 75⟩,
  ⟨.acq, 1, 12, 76⟩, ⟨.meas, 1, 13, 0⟩, ⟨.cmp, 1, 14, 77⟩, ⟨.dcm, 1, 15, 78⟩, ⟨.str, 1, 16, 79⟩,
  ⟨.disp, 1, 17, 80⟩, ⟨.cnv, 4, 32, 81⟩, ⟨.chn, 4, 36, 85⟩, ⟨.wte, 4, 40, 89⟩, ⟨.crs, 5, 48, 93⟩,
  ⟨.trg, 5, 56, 98⟩, ⟨.den, 8, 64, 103⟩, ⟨.layer, 8, 72, 111⟩, ⟨.nvp, 8, 80, 119⟩, ⟨.core, 20, 96, 127⟩,
  ⟨.brk, 256, 256, 147⟩]

/-- The row and the instance of a page index, where the map has one. -/
def pageRow (p : Nat) : Option (PageRow × Nat) :=
  (pageMap.find? fun r => decide (r.base ≤ p) && decide (p < r.base + r.count)).map fun r => (r, p - r.base)

/-- The kind of a page index. -/
def pageKind (p : Nat) : Option Kind := (pageRow p).map fun r => r.1.kind

/-- The island that holds a core's group (R395): cluster cores 4g to 4g + 3 and course core 16 + g in group g. -/
def coreIsland (c : Nat) : Nat := if c < 16 then 50 + c / 4 else 50 + (c - 16)

/-- The island of a course (R14): course P lies in island 24. -/
def courseIsland (d : Nat) : Nat := if d = 4 then 24 else 24 + d

/-- The island of a kind's instance (R475). -/
def Kind.island : Kind → Nat → Nat
  | .sys, _ => 36
  | .pcie, _ => 36
  | .clk, _ => 56
  | .tb, _ => 54
  | .cal, _ => 56
  | .evt, _ => 55
  | .bud, _ => 36
  | .flt, _ => 58
  | .saf, _ => 57
  | .mgt, _ => 57
  | .pwr, _ => 57
  | .dbg, _ => 59
  | .acq, _ => 24
  | .meas, _ => 24
  | .cmp, _ => 45
  | .dcm, _ => 49
  | .str, _ => 24
  | .disp, _ => 30
  | .cnv, i => i
  | .chn, i => 4 + i
  | .wte, i => 4 + i
  | .crs, i => courseIsland i
  | .trg, i => courseIsland i
  | .den, i => 28 + i / 4
  | .layer, _ => 30
  | .nvp, i => 37 + i
  | .core, i => coreIsland i
  | .brk, i => 8 + i / 16

/-- The island of a page. -/
def pageIsland (p : Nat) : Nat :=
  match pageRow p with
  | some (r, i) => r.kind.island i
  | none => 0

/-- The default MSI-X vector of a page (R475); 0 for a page without HAS_IRQ. -/
def defaultVector (p : Nat) : Nat :=
  match pageRow p with
  | some (r, i) => if r.vector = 0 then 0 else r.vector + i
  | none => 0

/-- HAS_IRQ: every page but MEAS. -/
def Kind.hasIrq : Kind → Bool
  | .meas => false
  | _ => true

/-- MGT_WRITE: the SAF page alone (R475). -/
def Kind.mgtWrite : Kind → Bool
  | .saf => true
  | _ => false

/-- ACTIVITY_ID.NO_TRAFFIC: as the chapters state it; for the pages whose chapter is silent, log entry 12. -/
def Kind.noTraffic : Kind → Bool
  | .cal | .crs | .trg | .meas | .nvp | .flt | .saf | .mgt | .pcie | .pwr => true
  | .sys | .clk | .tb | .bud => true
  | _ => false

/-- HAS_SHADOW: the page has RWS fields: block fields, or ACTIVITY where it counts. FLT, SAF, MGT and DBG have 0. -/
def Kind.hasShadow (k : Kind) : Bool :=
  match k with
  | .flt | .saf | .mgt | .dbg => false
  | _ => true

/-- GROUPABLE: 0 on SYS (spec 15); elsewhere 1 where there is a shadow (log entry 12). -/
def Kind.groupable (k : Kind) : Bool :=
  match k with
  | .sys => false
  | _ => k.hasShadow

/-- BLOCK_CAPS, as each block's chapter states it. -/
def Kind.blockCaps : Kind → Nat → Nat
  | .sys, _ => 4
  | .tb, _ => 1
  | .cnv, _ => 64 + 256
  | .wte, _ => 20
  | .chn, _ => 64
  | .brk, _ => 14 + 16
  | .crs, i => if i = 4 then 1 else 0
  | .evt, _ => 8 + 4 * 16
  | .trg, i => 16 + 8 * 256 + (if i = 4 then 4096 else 0)
  | .acq, _ => 32 + 64
  | .den, _ => 2048
  | .cmp, _ => 32 + 2 * 64
  | .dcm, _ => 8
  | .str, _ => 16
  | .core, i => (if i < 16 then 0 else 1) + 2 + 4 + (if i < 16 then 2 else 4) * 2048
  | _, _ => 0

/-- PAGE_ID.TYPE: the manual gives no codes; the place of the kind in the page map (log entry 11). -/
def Kind.typeCode (k : Kind) : Nat := pageMap.findIdx fun r => r.kind = k

/-- PAGE_ID. -/
def pageId (p : Nat) : Nat :=
  match pageRow p with
  | some (r, i) => (r.kind.typeCode + 1) * 65536 + i * 256 + 1
  | none => 0

/-- PAGE_CAPS. -/
def pageCaps (p : Nat) : Nat :=
  match pageRow p with
  | some (r, i) =>
    r.kind.blockCaps i * 65536 + r.kind.island i * 256 + r.kind.groupable.toNat * 16 + r.kind.mgtWrite.toNat * 8
      + (!r.kind.noTraffic).toNat * 4 + r.kind.hasIrq.toNat * 2 + r.kind.hasShadow.toNat
  | none => 0

/-- The selection fields behind which the register at an offset stands, most significant first. -/
def Kind.selectors (k : Kind) (off : Nat) : List Fld :=
  let within (lo hi : Nat) : Bool := decide (lo ≤ off) && decide (off ≤ hi)
  match k with
  | .sys => if within 0x404 0x414 then [SYS_REG_SEL.REGION] else []
  | .bud => if within 0x044 0x068 then [BUD_SEL.RESOURCE, BUD_SEL.ACTIVITY] else []
  | .clk => if within 0x050 0x080 then [CLK_LOOP_SEL.LOOP] else []
  | .cnv =>
    if within 0x060 0x064 then [CNV_SCAN_SEL.ENTRY]
    else if within 0x0A4 0x0A4 then [CNV_EQ_SEL.BANK, CNV_EQ_SEL.TAP] else []
  | .cal =>
    if within 0x050 0x084 then [CAL_SEL.INPUT]
    else if within 0x08C 0x090 then [CAL_SEL.INPUT, CAL_SLICE_SEL.SLICE] else []
  | .wte => if within 0x068 0x068 then [WTE_WIN_SEL.ENTRY] else []
  | .evt =>
    if within 0x044 0x074 then [EVT_IN_SEL.INPUT]
    else if within 0x084 0x09C then [EVT_IU_SEL.UNIT] else []
  | .trg =>
    if within 0x054 0x084 then [TRG_COND_SEL.COND]
    else if within 0x094 0x0A4 then [TRG_STATE_SEL.STATE]
    else if within 0x0D0 0x0D0 then [TRG_MASK_SEL.ENTRY] else []
  | .acq => if within 0x044 0x0B0 then [ACQ_CAP_SEL.CAPTURE] else []
  | .meas => if within 0x044 0x05C then [MEAS_SEL.CAPTURE] else []
  | .den => if within 0x068 0x070 then [DEN_RECT_SEL.RECT] else []
  | .layer => if within 0x060 0x060 then [LAYER_PAL_SEL.ENTRY] else []
  | .cmp => if within 0x044 0x060 then [CMP_LANE_SEL.LANE] else []
  | .dcm => if within 0x044 0x050 then [DCM_LANE_SEL.LANE] else []
  | .str => if within 0x084 0x0B4 then [STR_SEL.STREAM] else []
  | .flt =>
    if within 0x044 0x078 then [FLT_SRC_SEL.SOURCE]
    else if within 0x214 0x220 then [FLT_LEG_SEL.CLASS] else []
  | .saf => if within 0x04C 0x04C then [SAF_TEMP_SEL.DIE] else []
  | .pwr =>
    if within 0x070 0x074 then [PWR_ENERGY_SEL.COUNTER]
    else if within 0x07C 0x080 then [PWR_WORK_SEL.COUNTER] else []
  | .pcie => if within 0x084 0x0B4 then [PCIE_Q_SEL.QUEUE] else []
  | .dbg => if within 0x044 0x06C then [DBG_CORE_SEL.CORE] else []
  | _ => []

/-- The 64-bit registers: every register named …_LO with its …_HI beside it at the next word (R7, R8). -/
def Kind.isLow (k : Kind) (off : Nat) : Bool :=
  match k with
  | .clk => [0x068, 0x070, 0x078].contains off
  | .tb => [0x040, 0x048, 0x058].contains off
  | .bud => [0x054].contains off
  | .cnv => [0x044, 0x04C, 0x0A8, 0x0B4].contains off
  | .cal => [0x058, 0x078].contains off
  | .wte => [0x078, 0x094].contains off
  | .chn => [0x044].contains off
  | .brk => [0x048, 0x09C, 0x0A8].contains off
  | .crs => [0x044, 0x04C, 0x054].contains off
  | .evt => [0x05C, 0x06C, 0x108].contains off || (decide (0x110 ≤ off) && decide (off < 0x190) && off % 8 == 0)
  | .trg => [0x080, 0x0C4, 0x108].contains off
  | .acq => [0x0AC].contains off
  | .cmp => [0x048, 0x050, 0x084, 0x094].contains off
  | .dcm => [0x048, 0x084, 0x094, 0x0C8].contains off
  | .str => [0x054, 0x0A0, 0x0A8].contains off
  | .nvp => [0x054, 0x064, 0x06C].contains off
  | .core => [0x070, 0x090].contains off
  | .flt => [0x058, 0x064, 0x084, 0x0A4, 0x218].contains off
  | .sys => [0x044].contains off
  | .pcie => [0x088, 0x090, 0x0B0].contains off
  | .pwr => [0x064, 0x070, 0x07C].contains off
  | _ => false

end Sys2Proof.Machine
end

