-- ==== Sys2Proof/Machine/Store.lean ====
section
/-! DEFINITION. Sparse plain data: a store maps numbers to values, lists only what differs from a default, and keeps its
numbers strictly rising, so that equal contents are equal data. Registers, tables, memories and per-instance records of
the block are all stores. -/

namespace Sys2Proof.Machine

/-- A store: (number, value) pairs. -/
abbrev Store (α : Type) := List (Nat × α)

/-- The value at number `k`, `d` where none is listed. -/
def Store.get {α : Type} (d : α) : Store α → Nat → α
  | [], _ => d
  | (j, v) :: m, k => if j = k then v else Store.get d m k

/-- List `v` at `k`, in place. -/
def Store.insert {α : Type} (k : Nat) (v : α) : Store α → Store α
  | [] => [(k, v)]
  | (j, w) :: m =>
    if k < j then (k, v) :: (j, w) :: m
    else if j = k then (k, v) :: m
    else (j, w) :: Store.insert k v m

/-- Unlist `k`. -/
def Store.erase {α : Type} (k : Nat) : Store α → Store α
  | [] => []
  | (j, w) :: m => if j = k then Store.erase k m else (j, w) :: Store.erase k m

/-- Write `v` at `k`: the entry is unlisted when `v` is the default. -/
def Store.set {α : Type} [DecidableEq α] (d : α) (m : Store α) (k : Nat) (v : α) : Store α :=
  if v = d then m.erase k else m.insert k v

/-- Drop every entry whose number lies in lo .. hi - 1. -/
def Store.drop {α : Type} (m : Store α) (lo hi : Nat) : Store α :=
  m.filter fun p => decide (p.1 < lo) || decide (hi ≤ p.1)

/-- Keep only the entries whose number lies in lo .. hi - 1. -/
def Store.window {α : Type} (m : Store α) (lo hi : Nat) : Store α :=
  m.filter fun p => decide (lo ≤ p.1) && decide (p.1 < hi)

/-- List every entry of `n`, each at its number. -/
def Store.merge {α : Type} (m n : Store α) : Store α :=
  n.foldl (fun acc p => Store.insert p.1 p.2 acc) m

/-- The numbers are strictly rising. -/
def Store.sorted {α : Type} : Store α → Bool
  | [] => true
  | [_] => true
  | (j, _) :: (k, w) :: m => decide (j < k) && Store.sorted ((k, w) :: m)

/-- The canonical form: strictly rising numbers, and no entry equal to the default. -/
def Store.wf {α : Type} [DecidableEq α] (d : α) (m : Store α) : Bool :=
  m.sorted && m.all fun p => decide (p.2 ≠ d)

end Sys2Proof.Machine
end

