-- ==== Sys2Proof/Machine/State.lean ====
section
/-! DEFINITION. The state of the block as plain data: registers, messages on the mortar, and the internal state that the
spec gives each unit (INVENTORY.md, State). Every register field has one home in a store, keyed by page, offset, bit and
bank; a store lists only what differs from reset. -/

namespace Sys2Proof.Machine

/-- No command of this block ends in a fault: the spec gives every command an effect. -/
inductive Fault where
  /-- Raised by no meaning; kept because the interface names a fault type. Safe. -/
  | never
  deriving DecidableEq, Repr

/-- Why a command has no meaning. -/
inductive Refusal where
  /-- Raised by Machine/Dispatch.lean alone, for a row that has no meaning yet. Safe. -/
  | notModelled (mnemonic : String)
  deriving DecidableEq, Repr

/-- The four message classes of the mortar (spec 01). -/
inductive Cls where
  | req
  | cpl
  | dat
  | evt
  deriving DecidableEq, Repr

/-- A complex value in some fixed-point unit: real and imaginary part. -/
abbrev Cx := Int × Int

/-- An interval of sample indices, both ends included. -/
structure Span where
  lo : Nat
  hi : Nat
  deriving DecidableEq, Repr

/-- A corrected sample with its flags (R104, R158). -/
structure CSample where
  value      : Int
  ovr        : Bool
  entryStart : Bool
  deriving DecidableEq, Repr

/-- A scan entry or injected entry in force from a sample index on (R115, R158). -/
structure EntryInfo where
  index    : Nat
  entry    : Nat
  source   : Nat
  atten    : Nat
  injected : Bool
  resumed  : Bool
  deriving DecidableEq, Repr

/-- A swap mark (R134). -/
structure SwapInfo where
  time    : Nat
  lane    : Nat
  out     : Nat
  inn     : Nat
  ofs     : Int
  gain    : Int
  skew    : Option Int
  large   : Bool
  calchg  : Bool
  deriving DecidableEq, Repr

/-- A corrected-sample message (R122, R158): its first index and the per-message properties. -/
structure SampleMsg where
  seq      : Nat
  p12      : Bool
  block    : Nat
  first    : Nat
  samples  : List CSample
  entries  : List EntryInfo
  tainted  : List Span
  /-- The samples produced while a loop that flags them was outside LOCKED (R68). -/
  holdover : List Span
  deriving DecidableEq, Repr

/-- The values of a payload (R169–R171, R203): LOG values in 1/256 dB, or blocks of up to 64 pairs (I, Q) with their
exponent E. -/
structure Payload where
  log    : List Int
  blocks : List (Int × List Cx)
  deriving DecidableEq, Repr

/-- A WTE or brick spectrum: the fields of its header (R173, R202) and its payload. -/
structure Spectrum where
  time     : Nat
  seq      : Nat
  input    : Nat
  columns  : Bool
  complex  : Bool
  detector : Nat
  window   : Nat
  overlap  : Nat
  log2n    : Nat
  flags    : Nat
  finalExp : Nat
  first    : Nat
  count    : Nat
  entry    : Nat
  config   : Nat
  bytes    : Nat
  brick    : Option Nat
  course   : Nat
  epoch    : Nat
  stages   : Nat
  replay   : Bool
  payload  : Payload
  deriving DecidableEq, Repr

/-- A sub-band message (R184). -/
structure SubMsg where
  stamp   : Nat
  index   : Nat
  subband : Nat
  input   : Nat
  gap     : Bool
  first   : Nat
  count   : Nat
  taints  : List Nat
  /-- The valid slots from FIRST on, in Q2.14 (R182). -/
  slots   : List Cx
  deriving DecidableEq, Repr

/-- A mark that the channeliser forwards (R186). -/
inductive Mark where
  | swap (i : SwapInfo)
  | entry (i : EntryInfo)
  | pause (index : Nat)
  | drop (s : Span)
  | genChange (tick gen : Nat)
  | switched (brick b i : Nat)
  deriving DecidableEq, Repr

/-- A brick IQ message or a replay message (R203, R217). -/
structure IqMsg where
  stamp   : Nat
  seq     : Nat
  brick   : Nat
  epoch   : Nat
  flags   : Nat
  first   : Nat
  count   : Nat
  stages  : Nat
  course  : Nat
  replay  : Bool
  rate    : Nat
  entry   : Nat
  config  : Nat
  taints  : List Nat
  stamps  : List Nat
  payload : Payload
  deriving DecidableEq, Repr

/-- An event notice (R240). -/
structure Notice where
  block    : Nat
  input    : Nat
  holdover : Bool
  drop     : Bool
  dead     : Bool
  stamps   : List Nat
  deriving DecidableEq, Repr

/-- A density rectangle report (R315); its FLAGS are those of R315. -/
structure RectReport where
  engine   : Nat
  stop     : Nat
  seq      : Nat
  flags    : Nat
  rectEn   : Nat
  spectra  : Nat
  counts   : List Nat
  deriving DecidableEq, Repr

/-- A fault event on its way to island 58 (R451): source, syndrome, whether nature, an injection or both raised it, and
KIND. -/
structure FaultMsg where
  source   : Nat
  syndrome : Nat
  time     : Nat
  real     : Bool
  injected : Bool
  corrected : Bool
  deriving DecidableEq, Repr

/-- A compression job (R337): its requester is the stream engine or the CMP page; `dst` is a MEMORY region below 64, drive
port dst - 64 below 128, and host DMA queue dst - 128 from there. -/
structure Job where
  stream : Bool
  region : Nat
  ofs    : Nat
  len    : Nat
  dst    : Nat
  dstOfs : Nat
  tag    : Nat
  act    : Nat
  deriving DecidableEq, Repr

/-- The payload of a job on its way to a port or the host (R361), with the status that its completion carries (R339). -/
structure Payld where
  tag      : Nat
  rawLen   : Nat
  rawCrc   : Nat
  fault    : Bool
  poisoned : Bool
  unmapped : Bool
  data     : List Byte
  deriving DecidableEq, Repr

/-- A decompression job (R353). -/
structure DJob where
  region  : Nat
  ofs     : Nat
  len     : Nat
  dst     : Nat
  dstOfs  : Nat
  outLen  : Nat
  wrap    : Nat
  checkEn : Bool
  check   : Nat
  tag     : Nat
  stream  : Bool
  act     : Nat
  deriving DecidableEq, Repr

/-- A record of the drive ledger (R367). -/
structure DriveRec where
  serial     : List Byte
  model      : List Byte
  nguid      : List Byte
  eui64      : List Byte
  role       : Nat
  reason     : Nat
  pct        : Nat
  port       : Nat
  written    : Nat
  firstWall  : Nat
  retireWall : Nat
  volume     : Nat
  deriving DecidableEq, Repr

/-- A valid superblock of the FQ stream volume (R374), with the ledger records of the drives in ports 0–7. -/
structure Superblock where
  volumeId   : Nat
  generation : Nat
  nextStream : Nat
  extBlocks  : Nat
  extents    : Nat
  drives     : List (Option DriveRec)
  deriving DecidableEq, Repr

/-- One entry of the extent table (R375). -/
structure Extent where
  stream    : Nat
  state     : Nat
  port      : Nat
  firstLba  : Nat
  blocks    : Nat
  used      : Nat
  frames    : Nat
  firstSeq  : Nat
  lastSeq   : Nat
  openTime  : Nat
  closeTime : Nat
  deriving DecidableEq, Repr

/-- A stream frame as its header gives it (R376). -/
structure FrameHead where
  kind   : Nat
  flags  : Nat
  stream : Nat
  seq    : Nat
  rawLen : Nat
  payLen : Nat
  rawCrc : Nat
  recOfs : Nat
  deriving DecidableEq, Repr

/-- The descriptor of a stream frame (R376, R383): its tag, stream slot, header fields, activity, source, the bytes of a
marker frame, the record it belongs to, and the lane and the port that it must not use again. -/
structure Frame where
  tag      : Nat
  slot     : Nat
  streamId : Nat
  kind     : Nat
  flags    : Nat
  seq      : Nat
  rawLen   : Nat
  recOfs   : Nat
  act      : Nat
  region   : Nat
  ofs      : Nat
  data     : List Byte
  capture  : Nat
  segment  : Nat
  notLane  : Option Nat
  notPort  : Option Nat
  deriving DecidableEq, Repr

/-- A record notice to a core (R403) or to the streams (R383), with the record's length. -/
structure RecNote where
  capture  : Nat
  region   : Nat
  segment  : Nat
  segOfs   : Nat
  slot     : Option Nat
  trigTime : Nat
  len      : Nat
  deriving DecidableEq, Repr

/-- A refusal of a commit (R27): the offending register, CODE, REASON and AUX. -/
structure Bad where
  off    : Nat
  code   : Nat
  reason : Nat
  aux    : Nat
  deriving DecidableEq, Repr

/-- The messages of the mortar, by what they carry. -/
inductive Body where
  | alignArmed
  | alignDone
  | alignReleased
  | loopState (loop state : Nat)
  /-- A time mark: the count that it carries (R73). -/
  | timeMark (tick : Nat)
  | startTick (event tick : Nat)
  | samples (m : SampleMsg)
  | rawSamples (m : SampleMsg)
  | rawRequest (on : Bool)
  | entryMark (i : EntryInfo)
  | swapMark (i : SwapInfo)
  | calPause (index : Nat)
  | genNotice (input gen tick : Nat)
  | spectrum (s : Spectrum)
  | specPiece (input seq : Nat) (columns : Bool)
  | subband (s : SubMsg)
  | forward (m : Mark)
  | subscribe (subband brick : Nat)
  | unsubscribe (subband brick : Nat)
  /-- A completion of a SUBSCRIBE (on) or UNSUBSCRIBE (R187). -/
  | subDone (subband brick : Nat) (on accepted pending : Bool) (index : Nat)
  | roleChange (brick epoch role course : Nat)
  | emitStart (course brick epoch tick : Nat)
  | emitStop (course brick epoch tick : Nat)
  | switchReq (course brick e : Nat)
  | switchGrant (course brick epoch b : Nat)
  | staleRole (course brick msgEpoch epoch kind : Nat)
  | brickFailed (course brick kind : Nat)
  | replayData (m : IqMsg)
  | replayCredit (brick : Nat)
  | iq (m : IqMsg)
  | coreSpectrum (core : Nat) (s : Spectrum)
  | coreIq (core : Nat) (m : IqMsg)
  | coreRole (cores : List Nat) (brick epoch role course : Nat)
  | notice (n : Notice)
  | cross (course time mask : Nat)
  | injectReq (input : Nat)
  | injectDone (input : Nat) (reason : Nat)
  | rects (r : RectReport)
  | lock (engine : Nat)
  | lockDone (engine : Nat) (buffer : Option (Nat × Nat × Nat))
  | fault (f : FaultMsg)
  | calRequest (input : Nat)
  /-- A step change of a foreground run (R138). -/
  | calStep (input step : Nat)
  | storeRequest (input : Nat)
  | storeDone (input : Nat) (ok : Bool)
  | job (lane : Nat) (j : Job)
  | jobDone (lane tag status : Nat)
  | payload (p : Payld)
  | djob (lane : Nat) (j : DJob)
  | djobDone (lane tag result : Nat)
  | frame (f : Frame)
  | hostFrame (queue : Nat) (f : Frame)
  | record (n : RecNote) (core : Nat)
  | recordReady (n : RecNote)
  | frameDone (tag : Nat)
  | frameFailed (tag : Nat)
  | readAdvance (capture segment : Nat)
  | driveRecord (index : Nat) (r : DriveRec)
  | substOrder (kind unit syndrome : Nat)
  | safeStop (source : Nat)
  | stopCourse (course : Nat)
  /-- A message of the count before a load: it passes, and its receiver discards it (R549). -/
  | bygone
  /-- A register access on its way to its page (R16, R18, R41): a write or a read. -/
  | access (page : Nat) (write : Bool) (c : Instr)
  /-- An HBM request on its way to its controller: a write carries its bytes (R34). -/
  | hbm (c : Instr)
  /-- What a page of a group found in its snapshot (R30). -/
  | verdict (page : Nat) (bad : Option Bad)
  deriving DecidableEq, Repr

/-- A message: its pair, its class, the activity it is charged to (none: not charged, log entry 13), its payload bytes,
the resources charged beside the ingress of its destination (R41), whether its writer is a real-time writer (R42), and
what it carries. -/
structure Envelope where
  src      : Nat
  dst      : Nat
  cls      : Cls
  act      : Option Nat
  bytes    : Nat
  extra    : List Nat
  realTime : Bool
  body     : Body
  deriving DecidableEq, Repr

/-- A snapshot that waits for its commit point (R25): the tick of its validation, the shadow entries, the registers written since the previous
commit, whether it belongs to a group commit, and whether it replaced an earlier one. -/
structure PCommit where
  tick       : Nat
  snap       : Store Nat
  wrote      : List Nat
  group      : Bool
  superseded : Bool
  deriving DecidableEq, Repr

/-- A posted write to host memory, an MSI-X message among them. -/
structure HostWrite where
  addr : Nat
  data : List Byte
  deriving DecidableEq, Repr

/-- A group commit that is VALIDATING (R30): its group, the pages that took a snapshot, those whose verdict has not come
back, and those that refused, each with its refusal. -/
structure GroupCommit where
  group   : Nat
  pages   : List Nat
  waiting : List Nat
  refused : List (Nat × Bad)
  deriving DecidableEq, Repr

/-- Registers and host-visible latches. -/
structure RegFile where
  /-- RW, RO, W1C and RM fields. -/
  regs     : Store Nat
  /-- The shadow values of RWS fields. -/
  shadow   : Store Nat
  /-- The live values of RWS fields. -/
  live     : Store Nat
  /-- RWS registers written since the previous commit of their page, numbered page × 4,096 + offset. -/
  wrote    : Store Nat
  /-- Snapshots that wait for their commit point, by page. -/
  commits  : Store (Option PCommit)
  /-- The group commit that is VALIDATING. -/
  group    : Option GroupCommit
  /-- IRQ_STATUS and IRQ_ENABLE, by page. -/
  irqStat  : Store Nat
  irqEn    : Store Nat
  /-- The MSI-X route of each page (R476). -/
  route    : Store Nat
  /-- The read latch and the held high word of each requester: BAR0 offset of the low word, and the word (R7, R8). -/
  latch    : Store (Option (Nat × Nat))
  held     : Store (Option (Nat × Nat))
  /-- What the last read of each requester returned. -/
  answer   : Store Nat
  deriving DecidableEq, Repr

/-- A write of a unit to the HBM that its budget holds (R41): the island, its activity, the region, and one stretch within
one 4,096-byte chunk. -/
structure HeldWrite where
  island : Nat
  act    : Nat
  region : Nat
  ofs    : Nat
  data   : List Byte
  deriving DecidableEq, Repr

/-- The mortar and the budgets. -/
structure Net where
  transit : List Envelope
  arrived : List Envelope
  /-- Usage of the present period, and the entries on which a message did not fit in it, by resource × 64 + activity. -/
  used    : Store Nat
  misfit  : Store Nat
  /-- Protected transactions that an armed checker has still to corrupt, by checker × 256 + instance (R464). -/
  injectNext : Store Nat
  /-- Capacity that substitutions have taken from a resource (R45). -/
  capLost : Store Nat
  /-- Pairs, source × 64 + destination, whose next message its budget holds at the joint (R41). -/
  held    : Store Nat
  /-- Messages of a unit's transfer that have passed, while the rest of the transfer is held (R41), by the unit. -/
  passed  : Store Nat
  writes  : List HeldWrite
  /-- 1 + the offset of the periods of a resource, and 1 + the tick since VIN of its last period start (R40). -/
  phase   : Store Nat
  started : Store Nat
  deriving DecidableEq, Repr

/-- An effective clock output (R85). -/
structure OutCfg where
  en     : Nat
  source : Nat
  div    : Nat
  format : Nat
  level  : Nat
  phase  : Nat
  deriving DecidableEq, Repr

/-- Reference, loops and time base. -/
structure Clocks where
  /-- TIME64 (R70) and whether it counts (R72). -/
  time       : Word64
  counting   : Bool
  /-- Ticks since VIN, TIME64 counting or not. -/
  ticks      : Nat
  /-- Wraps of TIME64 (R74) since its last load, so that differences across a wrap are those of R75. -/
  wraps      : Nat
  /-- What each island holds of the loop states, by island × 16 + loop (R69). -/
  view       : Store Nat
  /-- The present range window began before REFIN was present (R56). -/
  partWindow : Bool
  /-- The readings of each die, newest first, with the ticks since VIN at which they were taken (R449); the die temperature at
  the loss onset of each loop, its accumulated estimate in 10^-11 fraction LSBs, and the tick up to which it is accumulated
  (R64). -/
  temps      : Store (List (Nat × Int))
  lossTemp   : Store Int
  estAcc     : Store Int
  estAt      : Store Nat
  /-- The local copy of the count in each island, as its offset in ticks (R73). -/
  skew       : Store Int
  /-- A course island for each ALIGN_ARMED whose completion has not come back, islands that hold course starts, and whether the
  last thing sent to them was an ALIGN_ARMED (R80, R548). -/
  alignWait  : List Nat
  alignHold  : Store Nat
  alignSent  : Bool
  /-- Ticks for which ALIGN_OUT stays high (R76). -/
  alignOut   : Nat
  /-- ALIGN_OUT has been driven since STATE became ARMED. -/
  alignPulse : Bool
  /-- An align event E0 has been taken and its load at E2 is to come (R77, R78). -/
  alignE0    : Bool
  /-- The die temperature of island 55 at the last build of the code-density tables, and the ticks since VIN at which the build
  that runs began (R233). -/
  cdTemp     : Int
  cdStart    : Nat
  /-- The clock outputs in effect. -/
  outs       : Store OutCfg
  deriving DecidableEq, Repr

def OutCfg.init : OutCfg := ⟨0, 0, 1, 0, 0, 0⟩

/-- An injected entry: pending or running (R117, R118). -/
structure Injection where
  trigger : Bool
  source  : Nat
  atten   : Nat
  settle  : Nat
  rep     : Nat
  tick    : Nat
  deriving DecidableEq, Repr

/-- One slice of a converter: its position (64 + spares above 63, 126 calibrating, 127 retired: R151), its trims, and
the tick at which its reference calibration last ended. -/
structure Slice where
  pos    : Nat
  trim   : Trim
  calAt  : Nat
  deriving DecidableEq, Repr

/-- The background settings in force on an input, which follow CAL_BG_CTRL and CAL_BG_MATCH at its step ticks (R156). -/
structure BgCfg where
  en     : Bool
  calchg : Bool
  ofs    : Nat
  gain   : Nat
  skew   : Nat
  deriving DecidableEq, Repr

/-- A converter beyond its registers. -/
structure Conv where
  /-- CONVERTER_FAILED has been reported (R93). -/
  failed     : Bool
  /-- Powered though ENABLE may read 0 (R110, R155). -/
  powered    : Bool
  /-- The start tick of an ARMED converter, when known, and whether it was moved (R107, R108). -/
  startTick  : Option Nat
  late       : Bool
  /-- Delivery ends at the next boundary (R110). -/
  stopping   : Bool
  /-- The entry in force: its start tick, its fields, its number of frames. -/
  entryTick  : Nat
  entry      : Nat
  source     : Nat
  atten      : Nat
  settle     : Nat
  frames     : Nat
  injected   : Bool
  /-- The next entry mark carries RESUMED (R115). -/
  resumed    : Bool
  /-- The pre-empted entry and the frames it still has to run (R119). -/
  preempt    : Option (Nat × Nat)
  /-- The table was changed by the commit: the new table starts at START_ENTRY (R116, R120). -/
  restart    : Bool
  inj        : Option Injection
  /-- The index of the next sample to deliver, message and P12 block numbers. -/
  nextIndex  : Nat
  msgSeq     : Nat
  p12Seq     : Nat
  p12Buf     : List CSample
  p12Hold    : List Span
  /-- ENTRY_START is due on the next delivered sample. -/
  startFlag  : Bool
  /-- The last over-range sample, and the flagged intervals not yet over (R100, R101). -/
  lastOvr    : Option Nat
  limFrom    : Option Nat
  flagged    : List Span
  entries    : List EntryInfo
  /-- The course asks for raw samples (R122, R250). -/
  rawOn      : Bool
  /-- The factory table of an attenuation state: 0 in flash, 1 missing, 2 missing and reported (R96). -/
  eqTable    : Store Nat
  /-- The slices and the rotation (R129). -/
  slices     : Store Slice
  calSlice   : Nat
  position   : Nat
  readyTick  : Nat
  inRange    : Bool
  /-- The differences of the shadow match, and whether one lay beyond its tolerance (R133). -/
  matched    : Option (Int × Int × Option Int × Bool)
  bg         : BgCfg
  /-- Foreground calibration: the step of the run, which the converter reports to the CAL page (R138, R142); the ticks since VIN
  of the request, of PRECHECK and of the step's beginning; the limit of the run; whether its end without a result is decided;
  whether a loop was lost since PRECHECK passed, and the die temperature at the pause (R143). Then quiet readings, the state
  before the pause, its result. -/
  step       : Nat
  fgTick     : Nat
  fgStart    : Nat
  stepAt     : Nat
  fullTicks  : Nat
  ended      : Bool
  unlocked   : Bool
  pauseTemp  : Int
  quiet      : Nat
  passed     : Bool
  rfLeak     : Bool
  startupRun : Bool
  before     : Nat
  pauseLeft  : Option (Nat × Nat)
  tableNew   : Bool
  cutStop    : Bool
  result     : Option CalResult
  stored     : Bool
  /-- The correction taps of the input in force (R128). -/
  corr       : List Int
  /-- GENERATION of the verified store of the run, the slice to be substituted with its syndrome (R137), and whether
  TIME64 has jumped since the slice in calibration entered it (R132). -/
  storedGen  : Nat
  /-- The resumption tick that the verification, or the end without a result, decided (R145, R146). -/
  resumeAt   : Nat
  substDue   : List (Nat × Nat)
  jumped     : Bool
  deriving DecidableEq, Repr

/-- The factory slices: slice p at position p up to 66, slice 67 in calibration (log entry 8). -/
def Slice.factory (p : Nat) : Slice := ⟨if p < 67 then p else 126, ⟨0, 0, 0⟩, 0⟩

def Conv.init : Conv := {
  failed := false, powered := false, startTick := none, late := false, stopping := false, entryTick := 0, entry := 0,
  source := 0, atten := 15, settle := 0, frames := 0, injected := false, resumed := false, preempt := none,
  restart := false, inj := none, nextIndex := 0, msgSeq := 0, p12Seq := 0, p12Buf := [], p12Hold := [], startFlag := false, lastOvr := none,
  limFrom := none, flagged := [], entries := [], rawOn := false, eqTable := [], slices := [], calSlice := 67,
  position := 66, readyTick := 0, inRange := true, matched := none, bg := ⟨true, false, 4, 16, 64⟩, step := 0, fgTick := 0,
  fgStart := 0, stepAt := 0, fullTicks := 0, ended := false, unlocked := false, pauseTemp := 0, quiet := 0, passed := false,
  rfLeak := false, startupRun := false, before := 0, pauseLeft := none, tableNew := false,
  cutStop := false, result := none, stored := false, corr := [], storedGen := 0, resumeAt := 0,
  substDue := [], jumped := false }

/-- What island 4 + X has received of the corrected samples of input X (R158): the runs of samples, with lost messages
inside them (R123), the properties, the next index, and the last index of a delivery that has ended. -/
structure Feed where
  got     : List Span
  /-- The values received, by the index of the first of each message (R161, R185: what no message brought is zero). -/
  vals    : List (Nat × List Int)
  tainted : List Span
  /-- Samples that carry HOLDOVER (R68, R69). -/
  hold    : List Span
  lost    : List Span
  entries : List EntryInfo
  swaps   : List SwapInfo
  nextIdx : Nat
  endAt   : Option Nat
  deriving DecidableEq, Repr

def Feed.init : Feed := ⟨[], [], [], [], [], [], [], 0, none⟩

/-- The settings of the WTE that a grid computes with (R160), the USER bank among them where it is selected, and the APPLY_COUNT
they came with. -/
structure WteCfg where
  log2n    : Nat
  overlap  : Nat
  window   : Nat
  beta     : Nat
  user     : Store Nat
  binOn    : Bool
  complex  : Bool
  binDest  : Nat
  binFirst : Nat
  binCount : Nat
  colOn    : Bool
  colDest  : Nat
  detector : Nat
  colFirst : Nat
  colBins  : Nat
  colCount : Nat
  config   : Nat
  deriving DecidableEq, Repr

/-- A frame grid (R159): frame k starts at anchor + k × H; `frame` is the next one, and frames that would start at `stop`
or later belong to it no more. The first spectrum carries GAP after a resumption, CONFIG_CHANGE after a commit. -/
structure Grid where
  cfg    : WteCfg
  anchor : Nat
  frame  : Nat
  stop   : Option Nat
  gap    : Bool
  change : Bool
  deriving DecidableEq, Repr

/-- The engines of island 4 + X beyond their registers. -/
structure Wide where
  feed      : Feed
  /-- The grids, oldest first: the spectra of one wait behind those of the grids before it (R160). -/
  grids     : List Grid
  seq       : Nat
  dropBins  : Bool
  dropCols  : Bool
  lastTaint : Bool
  /-- By route, cluster × 64 + sub-band (R187): the subscription count, the next stamp, a pending GAP, and 1 + the
  message index after which delivery ends. -/
  subs      : Store Nat
  nextStamp : Store Nat
  gapRoute  : Store Nat
  ending    : Store Nat
  /-- By route: 1 + the message index at which a subscription made while the last message was pending begins (R187). -/
  restart   : Store Nat
  /-- Stamps below this one have been counted in CHN_TAINTED. -/
  counted   : Nat
  /-- A run of lost samples that has not ended yet (R186), and the marks forwarded so far. -/
  lostRun   : Option Span
  marks     : List Mark
  deriving DecidableEq, Repr

def Wide.init : Wide := {
  feed := Feed.init, grids := [], seq := 0, dropBins := false, dropCols := false, lastTaint := false, subs := [],
  nextStamp := [], gapRoute := [], ending := [], restart := [], counted := 0, lostRun := none, marks := [] }

/-- The settings a brick computes with: role and route (R205), chain (R194), transform and outputs. -/
structure BrickCfg where
  role     : Nat
  course   : Nat
  subband  : Nat
  nco      : Nat
  span     : Nat
  j        : Nat
  k        : Nat
  specOn   : Bool
  specDest : Nat
  complex  : Bool
  log2m    : Nat
  overlap  : Nat
  window   : Nat
  beta     : Nat
  first    : Nat
  count    : Nat
  iqOn     : Bool
  iqDest   : Nat
  config   : Nat
  deriving DecidableEq, Repr

/-- A stretch of a brick's outputs of one kind, frames or IQ samples (R201, R203, R211): the settings, the lattice origin, the
next output, the output from which there are no more; what its first item carries (GAP, CONFIG_CHANGE) and whether SEQUENCE
starts with it; and 1 + the start of the run of inputs that its last item came from. -/
structure BrickGrid where
  cfg    : BrickCfg
  origin : Nat
  next   : Nat
  stop   : Option Nat
  gap    : Bool
  change : Bool
  fresh  : Bool
  run    : Nat
  deriving DecidableEq, Repr

/-- A brick beyond its registers. The chain's input is numbered by sub-band sample (stamp ÷ 64, or ÷ 64 × 2^j in
REPLAY). -/
structure BrickSt where
  /-- The physical brick of the cluster that serves it: its own number, or 16 for the spare (R219). -/
  slot      : Nat
  /-- The inputs: the runs received, with those lost inside them, and their values in 2^−143 (R182, R217). -/
  got       : List Span
  vals      : List (Nat × List Cx)
  tainted   : List Span
  lost      : List Span
  /-- Inputs that carry HOLDOVER (R69), and the flags and ENTRY of replayed ones (R217). -/
  hold      : List Span
  marked    : List (Span × Nat × Nat)
  /-- A CAL_PAUSE mark has been received since the last sub-band message. -/
  paused    : Bool
  nextIndex : Option Nat
  /-- Emission (R208, R215, R216): the TIME64 of the start and of the stop; the commit point from which outputs wait for an
  EMIT_START of the new epoch; and whether a configuration has come whose first output is still to be (R204). -/
  emitFrom  : Option Nat
  emitTo    : Option Nat
  gate      : Option Nat
  newConfig : Bool
  grids     : List BrickGrid
  iqs       : List BrickGrid
  /-- The ticks since VIN at which slot FIRST of the open IQ message was filled (R203). -/
  iqSince   : Option Nat
  specSeq   : Nat
  iqSeq     : Nat
  dropSpec  : Bool
  dropIq    : Bool
  lastTaint : Bool
  /-- A substitution by the spare is under way, with the syndrome that caused it (R219). -/
  switching : Option Nat
  deriving DecidableEq, Repr

def BrickSt.init (n : Nat) : BrickSt := {
  slot := n % 16, got := [], vals := [], tainted := [], lost := [], hold := [], marked := [], paused := false
  nextIndex := none, emitFrom := none, emitTo := none, gate := none, newConfig := false, grids := [], iqs := []
  iqSince := none, specSeq := 0, iqSeq := 0, dropSpec := false, dropIq := false, lastTaint := false, switching := none }

/-- A course beyond its registers. -/
structure CourseSt where
  startTick : Option Nat
  startLate : Bool
  stopTick  : Option Nat
  /-- The epoch table: epoch + 256 × role + 2,048 × course, by logical brick (R210). -/
  epochs    : Store Nat
  /-- SWITCH_REQ waiting for its grant: brick, E, and the ticks since VIN at which it came (R220). -/
  waiting   : List (Nat × Nat × Nat)
  /-- The marks received from the converter and the switches granted, in order (R115, R134, R295). -/
  marks     : List Mark
  /-- Raw samples have been requested of the converter (R122, R250). -/
  rawAsked  : Bool
  /-- INPUT_GEN in force before the first notice (R276). -/
  gen       : Nat
  deriving DecidableEq, Repr

def CourseSt.init : CourseSt := ⟨none, false, none, [], [], [], false, 0⟩

/-- What a stored item is (R277). -/
inductive ItemBody where
  | sample (value : Int) (ovr : Bool)
  | block (samples : List CSample)
  | spec (s : Spectrum)
  | iq (m : IqMsg)
  deriving DecidableEq, Repr

/-- An item of a segment's ring (R280, R285): its instant, the instant of the last converter sample it covers, its slot,
its header flags (R293), and whether the budget let it be stored (R297). -/
structure Item where
  time   : Nat
  fin    : Nat
  slot   : Nat
  flags  : Nat
  stored : Bool
  body   : ItemBody
  deriving DecidableEq, Repr

/-- An open segment (R285–R287): its index, what its ring holds, the items ever written, the trigger time and mask once
it is a record, and its fate. -/
structure Seg where
  index   : Nat
  items   : List Item
  written : Nat
  trig    : Option (Nat × Nat)
  seq     : Nat
  preLost : Bool
  dropped : Nat
  overrun : Bool
  part    : Nat
  /-- Items from the trigger item onward that earlier parts hold (R296). -/
  before  : Nat
  /-- The items of earlier parts (R296). -/
  prior   : List Item
  /-- CLOSE once the record closes, and the tick since VIN of the close; its header but for the CRC, with its directory, once
  those are formed; whether the header has gone to its controller (R288). -/
  close   : Option Nat
  closedAt : Nat
  filed   : Option (List Byte)
  headed  : Bool
  last    : Bool
  /-- CHANGE_ONLY (R298, R299): the last values stored, the bytes used, spectra judged, QUIET, spectra since a key frame. -/
  ref     : List Int
  used    : Nat
  judged  : Nat
  quiet   : Nat
  sinceKey : Nat
  deriving DecidableEq, Repr

def Seg.open_ (index : Nat) : Seg := {
  index := index, items := [], written := 0, trig := none, seq := 0, preLost := false, dropped := 0, overrun := false,
  part := 0, before := 0, prior := [], close := none, closedAt := 0, filed := none, headed := false, last := true, ref := [], used := 0, judged := 0, quiet := 0,
  sinceKey := 0 }

/-- A capture beyond its registers: its segments from the oldest not yet done, the next segment to open, the next SEQUENCE,
the parts of stream records that wait for a free segment (R296), and what it was armed with: its fields and the samples
an item holds (R281, R284). -/
structure CapSt where
  segs  : List Seg
  next  : Nat
  seq   : Nat
  stall : List Seg
  conf  : Option (Store Nat)
  each  : Nat
  deriving DecidableEq, Repr

def CapSt.init : CapSt := ⟨[], 0, 0, [], none, 1⟩

/-- The replay engine of island 24 (R302, R218): the next segment, messages waiting by member, messages outstanding by
member, the first STAMP, and the stamps and CAL_GEN of the records replayed, newest first. -/
structure ReplaySt where
  next    : Nat
  queue   : Store (List IqMsg)
  out     : Store Nat
  first   : Option Nat
  gens    : List (Span × Nat)
  deriving DecidableEq, Repr

def ReplaySt.init : ReplaySt := ⟨0, [], [], none, []⟩

/-- An event input beyond its registers: the comparator level and the level the hold-off passed on, the end of the
hold-off in fraction LSBs (R229), the prescaler's count (R230), the instant of the last stamped edge (R231), the stamps that no
notice has taken yet, with their HOLDOVER (R234), and the courses whose next notice carries BUDGET_DROP (R241). -/
structure EvtIn where
  level    : Bool
  passed   : Bool
  holdEnd  : Option Nat
  count    : Nat
  last     : Option Nat
  dead     : Bool
  stamps   : List (Nat × Bool)
  dropped  : List Nat
  deriving DecidableEq, Repr

def EvtIn.init : EvtIn := ⟨false, false, none, 0, none, false, [], []⟩

/-- An edge that an interval unit has still to order (R235), or one that the dead time lost (R231); input 8 is the software gate
(R236). `hold` is the HOLDOVER of its stamp (R234), `arrived` the ticks since VIN at its arrival. -/
structure UnitEdge where
  stamp : Nat
  input : Nat
  rise  : Bool
  dead  : Bool
  hold    : Bool
  arrived : Nat
  deriving DecidableEq, Repr

/-- An entry of a result FIFO (R239). -/
structure UnitResult where
  seq        : Nat
  stops      : Nat
  holdover   : Bool
  incomplete : Bool
  timeout    : Bool
  aborted    : Bool
  dead       : Bool
  freq       : Bool
  coinc      : Nat
  start      : Nat
  values     : List Nat
  deriving DecidableEq, Repr

/-- An interval unit beyond its registers: edges to be ordered, whether the gate is open for the edges decided so far, whether a
loop has been outside LOCKED during the measurement (R234), the start and the stops taken with their COINCIDENT bits,
the first and last edge and their count in FREQUENCY mode, a dead-time loss, the edge that completed the previous
measurement, the end of the software gate, the next result number, and the result FIFO. -/
structure UnitSt where
  edges    : List UnitEdge
  gate     : Bool
  hold     : Bool
  start    : Option Nat
  stops    : List (Nat × Bool)
  first    : Option Nat
  last     : Nat
  count    : Nat
  dead     : Bool
  after    : Option Nat
  swEnd    : Option Nat
  seq      : Nat
  fifo     : List UnitResult
  deriving DecidableEq, Repr

def UnitSt.init : UnitSt := ⟨[], false, false, none, [], none, 0, 0, false, none, none, 0, []⟩

/-- A raw sample at a trigger engine (R244, R261): its instant, its code, whether it lies in a flagged interval, and whether
it carries HOLDOVER. -/
structure MarkedSample where
  time     : Nat
  value    : Int
  taint    : Bool
  holdover : Bool
  deriving DecidableEq, Repr

/-- What an item brings to the conditions (R244): raw samples; a spectrum; an IQ sample with its power num × 2^exp; a
rectangle report; an event; a software request; a cross notice. -/
inductive AtomKind where
  | raw (samples : List MarkedSample)
  | spec (s : Spectrum)
  | iq (brick num : Nat) (exp : Int)
  | rects (r : RectReport)
  | event (input : Nat)
  | soft (mask : Nat)
  | cross (course : Nat)
  deriving DecidableEq, Repr

/-- An item on the slot timeline: its slot, its instant, the tick at which its result is ready (R254), its marks. -/
structure Atom where
  slot     : Nat
  instant  : Nat
  ready    : Nat
  taint    : Bool
  holdover : Bool
  drop     : Bool
  restart  : Bool
  kind     : AtomKind
  deriving DecidableEq, Repr

/-- The arming, crossing and window state of a condition (R251, R252): a window item is its power as num × 2^exp; one that a
qualifier excluded is none. -/
structure CondSt where
  rise   : Bool
  fall   : Bool
  window : List (Option (Nat × Int))
  deriving DecidableEq, Repr

def CondSt.init : CondSt := ⟨false, false, []⟩

/-- An entry of the trigger log (R274). -/
structure TrgLog where
  seq      : Nat
  left     : Nat
  entered  : Nat
  cond     : Nat
  taint    : Bool
  holdover : Bool
  late     : Bool
  inj      : Bool
  trigger  : Bool
  mask     : Nat
  time     : Nat
  deriving DecidableEq, Repr

/-- A trigger engine beyond its registers: whether it evaluates, the first slot (none on course P before its first item), the
next slot, the items on its timeline, the entry slot of the present state, the hold (the slot of the trigger, the
occurrences counted since, and a fixed end that a commit set: R272), the last trigger, the conditions, the log, the brick
outputs whose first item of a new epoch is due (2n + 1 for the IQ of brick n), the last over-range sample, where the mask
comparisons stand in 1/128 tick (R254), the tick of the last evaluation and the slots evaluated in it (R245), on course P
the highest slot of each brick, of all items, and the tick of the last item of a named brick (R248), and the tick at which
the mask copy began (R255). -/
structure TrgSt where
  running   : Bool
  start     : Option Nat
  nextSlot  : Nat
  atoms     : List Atom
  entrySlot : Nat
  hold      : Option (Nat × Nat)
  holdTo    : Option Nat
  lastTrig  : Option Nat
  conds     : Store CondSt
  logSeq    : Nat
  log       : List TrgLog
  newEpochs : List Nat
  lastOvr   : Option Nat
  compared  : Nat
  evalTick  : Nat
  evals     : Nat
  seen      : Store Nat
  top       : Nat
  seenAt    : Nat
  copyFrom  : Nat
  deriving DecidableEq, Repr

def TrgSt.init : TrgSt := ⟨false, none, 0, [], 0, none, none, none, [], 0, [], [], none, 0, 0, 0, [], 0, 0, 0⟩

/-- The settings a density frame is drawn and folded with (R306–R317). -/
structure DenCfg where
  kind      : Nat
  input     : Nat
  brick     : Nat
  rows      : Nat
  columns   : Nat
  valFirst  : Nat
  valCount  : Nat
  step      : Nat
  bottom    : Int
  line      : Bool
  shift     : Nat
  decay     : Nat
  period    : Nat
  courses   : Nat
  rectEn    : Nat
  rects     : List (Nat × Nat × Nat × Nat)
  pub       : Bool
  pubRegion : Nat
  pubBufs   : Nat
  pubEvery  : Nat
  wf        : Bool
  wfRegion  : Nat
  wfDetect  : Nat
  wfLines   : Nat
  config    : Nat
  close     : Nat
  deriving DecidableEq, Repr

/-- A tile frame (R310): its ticks, wraps of TIME64 included, the difference array by column × 512 + row (R309), the highest,
lowest and last value that each column drew (R317), its flags at the places of R174, its counts, whether its source replays
(R314), the tick since VIN at which its fold ends (R311), and INPUT_GEN at its start where a load has settled that. -/
structure DenFrame where
  start    : Nat
  stop     : Nat
  seq      : Nat
  cfg      : DenCfg
  clears   : Bool
  flags    : Nat
  diff     : Store Int
  cols     : Store (Int × Int × Int)
  spectra  : Nat
  mismatch : Nat
  overrun  : Nat
  late     : Nat
  source   : Option (Nat × Nat)
  replay   : Bool
  foldEnd  : Nat
  gen      : Option Nat
  deriving DecidableEq, Repr

/-- A publication (R316): the buffer, its region offset and bytes, its header, and whether the header has been given to the
HBM. -/
structure Publication where
  buffer : Nat
  region : Nat
  ofs    : Nat
  bytes  : Nat
  seq    : Nat
  header : List Byte
  headed : Bool
  deriving DecidableEq, Repr

/-- A waterfall line (R317): its place in the ring, how many lines of this ring were written with it, and the
ring. -/
structure FallLine where
  line    : Nat
  count   : Nat
  region  : Nat
  lines   : Nat
  columns : Nat
  deriving DecidableEq, Repr

/-- A density engine beyond its registers: the open frames, oldest first, the closed frames that wait for their fold, the
start of the next frame and what it carries, the tile by column × 512 + row, spectra that have arrived with the island
they came from, the ends of the drawings not yet over, in 128ths of a tick (R313), the publication under way, the newest
complete one, the next and the locked buffer, the last waterfall line begun and the one before it, the courses whose next
report carries REPORT_LOST, INPUT_GEN by input as (tick, generation), and the frame boundary of a substitution that waits
(R319). -/
structure DenSt where
  on       : Bool
  first    : Nat
  frames   : List DenFrame
  folding  : List DenFrame
  next     : Nat
  seq      : Nat
  gapNext  : Bool
  clearing : Bool
  wipeNext : Bool
  late     : Nat
  tile     : Store Nat
  inbox    : List (Nat × Spectrum)
  drawing  : List Nat
  pub      : Option Publication
  newest   : Option Publication
  nextBuf  : Nat
  locked   : Option Nat
  fall     : Option FallLine
  fallen   : Option FallLine
  lost     : List Nat
  gens     : List (Nat × Nat × Nat)
  switching : Option Nat
  deriving DecidableEq, Repr

def DenSt.init : DenSt := {
  on := false, first := 0, frames := [], folding := [], next := 0, seq := 0, gapNext := false, clearing := false
  wipeNext := false, late := 0, tile := [], inbox := [], drawing := [], pub := none, newest := none, nextBuf := 0, locked := none
  fall := none, fallen := none, lost := [], gens := [], switching := none }

/-- The composer and the pixel island beyond their registers: the frame store by line × 4,096 + pixel (R322), the EDID read
(R330), the region, offset and frame number of the buffer that each engine returned to the last LOCK (R318), the engines
whose answer to the last LOCK is outstanding, whether the present frame changed, static frames in a row (R329), whether it
was aborted (R328), the tick of the last commit point since the raster started and how long the blanking after it lasts, in
ticks × kHz (R329), the newest waterfall line that each layer's engine had
completed then (R323), the bands that are still to be recomposed, in raster order, the layers that have fetched for the
first of them, the quarter of a tick at which its composition ends (R325), and the frame-store lines sent (R332). -/
structure DispSt where
  pixels  : Store Nat
  edid    : Store Nat
  locks   : Store (Option (Nat × Nat × Nat))
  asked   : List Nat
  changed : Bool
  still   : Nat
  aborted : Bool
  vblank  : Option Nat
  blank   : Nat
  falls   : Store (Option FallLine)
  todo    : List Nat
  fetched : List Nat
  work    : Option Nat
  sent    : Nat
  deriving DecidableEq, Repr

def DispSt.init : DispSt := {
  pixels := [], edid := [], locks := [], asked := [], changed := false, still := 0, aborted := false
  vblank := none, blank := 0, falls := [], todo := [], fetched := [], work := none, sent := 0 }

/-- A running job of a compressor lane: the input read and how much of it the lane has consumed, the payload of the blocks
encoded and how much of it its destination has taken, and what the completion carries (R339). -/
structure LaneRun where
  job      : Job
  data     : List Byte
  used     : Nat
  payload  : List Byte
  sent     : Nat
  rawCrc   : Nat
  payCrc   : Nat
  blocks   : Nat
  stored   : Nat
  poison   : Option Nat
  unmapped : Bool
  deriving DecidableEq, Repr

/-- A logical compressor lane beyond its registers: the physical lane that serves it, its jobs, the ticks at which its
stall began (R346), FAILED (R352), whether it is to be substituted (R351), and the completions, with their status, that wait
until their payloads are accepted (R339). -/
structure LaneSt where
  phys      : Nat
  queue     : List Job
  run       : Option LaneRun
  stalled   : Option Nat
  failed    : Bool
  switching : Bool
  closing   : List (LaneRun × Nat)
  deriving DecidableEq, Repr

/-- Logical lane l starts on the l-th physical lane that is not 8 or 25. -/
def LaneSt.init (l : Nat) : LaneSt :=
  ⟨if l < 8 then l else if l < 24 then l + 1 else l + 2, [], none, none, false, false, []⟩

/-- A result in the FIFO of the CMP page (R359). -/
structure CmpRes where
  seq    : Nat
  lane   : Nat
  status : Nat
  tag    : Nat
  run    : LaneRun
  deriving DecidableEq, Repr

/-- A running job of a decompressor lane (R354–R356): the source read, the output and how much of it has been written, the
tick at which it began, whether the decoding is over, and its outcome; result 14 is ZERO_LENGTH, 15 LANE_FAILED. -/
structure DRun where
  job      : DJob
  data     : List Byte
  output   : List Byte
  sent     : Nat
  since    : Nat
  ended    : Bool
  result   : Nat
  detail   : Nat
  short    : Bool
  inBit    : Nat
  trailing : Nat
  deriving DecidableEq, Repr

/-- A decompressor lane beyond its registers. -/
structure DLaneSt where
  queue     : List DJob
  run       : Option DRun
  suspended : Bool
  failed    : Bool
  deriving DecidableEq, Repr

def DLaneSt.init : DLaneSt := ⟨[], none, false, false⟩

/-- A result in the FIFO of the DCM page (R360): its number, its lane, and what the lane made. -/
structure DcmRes where
  seq  : Nat
  lane : Nat
  run  : DRun
  deriving DecidableEq, Repr

/-- The compressor and the decompressor: lanes, result FIFOs and next result numbers. -/
structure Codec where
  lanes   : Store LaneSt
  results : List CmpRes
  seq     : Nat
  dlanes  : Store DLaneSt
  dres    : List DcmRes
  dseq    : Nat
  deriving DecidableEq, Repr

def Codec.reset : Codec := ⟨[], [], 0, [], [], 0⟩

/-- A frame that has been assigned (R384): its port (none: the host), the lane that encodes it, and whether a lane is
still to be found for it. -/
structure Flight where
  frame    : Frame
  port     : Option Nat
  lane     : Option Nat
  needLane : Bool
  deriving DecidableEq, Repr

/-- A record that a stream has taken (R383, R386): the frames of it not yet written. -/
structure RecSt where
  capture : Nat
  segment : Nat
  left    : Nat
  deriving DecidableEq, Repr

/-- A stream slot beyond its registers: records taken and not yet written, frames that wait for a lane and a port, frames
assigned, the marker that ends it (3 CLOSE, 4 SAFE_STOP) and whether it has been queued, the records abandoned, the
records written and raw bytes taken since it was opened, and the checkpoint that follows its last marker: 0 not yet asked for,
1 asked for, 2 under way, 3 done. -/
structure StreamSt where
  records   : List RecSt
  chunks    : List Frame
  flying    : List Flight
  ending    : Option Nat
  ended     : Bool
  abandoned : Nat
  written   : Nat
  raw       : Nat
  saved     : Nat
  deriving DecidableEq, Repr

def StreamSt.init : StreamSt := ⟨[], [], [], none, false, 0, 0, 0, 0⟩

/-- A frame placed on a drive (R377): its extent, its first block, its blocks, the write commands not yet completed, whether
one of them failed, and whether the stream engine knows that it is written. -/
structure Placed where
  frame  : Frame
  extent : Nat
  lba    : Nat
  blocks : Nat
  cmds   : Nat
  failed : Bool
  done   : Bool
  deriving DecidableEq, Repr

/-- An NVMe command that a port issues (R363): a write of blocks, a write of zeros, a read, a deallocation, a flush. -/
inductive DriveCmd where
  | write (lba : Nat) (data : List Byte)
  | zeros (lba blocks : Nat)
  | read (lba blocks : Nat)
  | deallocate (lba blocks : Nat)
  | flush
  deriving DecidableEq, Repr

/-- What a command belongs to: a frame, a checkpoint, a superblock in a slot, or a volume command. -/
inductive CmdOwner where
  | frame (tag : Nat)
  | checkpoint
  | super (slot : Nat) (b : Superblock)
  | volume
  deriving DecidableEq, Repr

/-- A command to a drive, with the activity that pays for it and the tick of its issue. -/
structure OutCmd where
  cmd   : DriveCmd
  owner : CmdOwner
  act   : Nat
  since : Nat
  deriving DecidableEq, Repr

/-- A drive port beyond its registers: what the drive answered, the superblocks that its two slots hold, the descriptors in
order of arrival, payloads that have arrived, frames placed, FULL (R378), a retirement under way with its reason and the port
that joined, the commands that are still to be issued and those in flight, oldest first, and the tick of the last health
poll. -/
structure PortSt where
  info     : Option DriveInfo
  super0   : Option Superblock
  super1   : Option Superblock
  queue    : List Frame
  payloads : List Payld
  placed   : List Placed
  full     : Bool
  retiring : Option (Nat × Option Nat)
  todo     : List OutCmd
  out      : List OutCmd
  polled   : Nat
  deriving DecidableEq, Repr

def PortSt.init : PortSt := ⟨none, none, none, [], [], [], false, none, [], [], 0⟩

/-- The readback engine (R392): running, the next SEQ, the offset of the next record's segment, the frame being decoded
with REC_END, and the result once it stops. -/
structure ReadSt where
  running : Bool
  seq     : Nat
  segment : Nat
  waiting : Option Bool
  first   : Bool
  result  : Option (Nat × Nat)
  deriving DecidableEq, Repr

def ReadSt.init : ReadSt := ⟨false, 0, 0, none, true, none⟩

/-- A checkpoint under way (R379): its drives, its generation, and how far it has come: extent table, flush, superblocks,
flush. -/
structure Ckpt where
  drives : List Nat
  gen    : Nat
  phase  : Nat
  deriving DecidableEq, Repr

/-- A volume command under way (R372, R380, R381): MOUNT with what the drives answered, FORMAT, or ADOPT of a port. -/
inductive VolCmd where
  | mount (read : Option MountRead)
  | format
  | adopt (port : Nat)
  deriving DecidableEq, Repr

/-- It: the command, whether its first part is over, whether a drive command of it failed, and the STATE that it leads to. -/
structure VolJob where
  cmd    : VolCmd
  loaded : Bool
  failed : Bool
  state  : Nat
  deriving DecidableEq, Repr

/-- The volume and the stream engine beyond their registers: the extent table by entry, the entries changed since the last
checkpoint, EXT_BLOCKS in force, NEXT_STREAM_ID, the next tag, the readback, the checkpoint under way, whether another one is
to follow, retired drives that it is to write as well, and the tick at which the last one began; the volume command under way;
and the drive ledger's records as the stream engine knows them. -/
structure Volume where
  table      : List Extent
  changed    : List Nat
  extBlocks  : Nat
  nextStream : Nat
  tag        : Nat
  read       : ReadSt
  ckpt       : Option Ckpt
  again      : Bool
  extra      : List Nat
  ckptAt     : Nat
  job        : Option VolJob
  records    : Store (Option DriveRec)
  deriving DecidableEq, Repr

def Volume.reset : Volume := {
  table := [], changed := [], extBlocks := 262144, nextStream := 1, tag := 0, read := ReadSt.init, ckpt := none, again := false
  extra := [], ckptAt := 0, job := none, records := [] }

/-- An entry of the spare ledger (R54) but for its number. -/
structure LedgerEntry where
  time     : Nat
  wall     : Nat
  kind     : Nat
  reason   : Nat
  logical  : Nat
  out      : Nat
  inn      : Nat
  syndrome : Nat
  /-- The CRC that stands behind it in flash; 0 until it is written. -/
  crc      : Nat
  deriving DecidableEq, Repr

/-- The section of one input in a calibration slot (R151): the slice records are (trims, position) by slice. -/
structure CalSection where
  gen     : Nat
  wall    : Nat
  dieTemp : Int
  slices  : List (Trim × Nat)
  taps    : List Int
  deriving DecidableEq, Repr

/-- The header of a calibration slot in NOR flash (R150). -/
structure CalHeader where
  magic   : Nat
  format  : Nat
  slot    : Nat
  updated : Nat
  gen     : Nat
  length  : Nat
  count   : Nat
  wall    : Nat
  crc     : Nat
  deriving DecidableEq, Repr

/-- A slot sector (R150): OPEN programmed, the sections of the body once it is programmed, and the header once that is. -/
structure CalSlot where
  opened : Bool
  body   : List CalSection
  head   : Option CalHeader
  deriving DecidableEq, Repr

def CalSlot.blank : CalSlot := ⟨false, [], none⟩

/-- The safety partition beyond its registers. -/
structure Safety where
  slots    : Store CalSlot
  /-- Inputs whose store waits or runs, oldest first (R147). -/
  stores   : List Nat
  /-- The spare ledger in flash, and the entries not yet written (R52). -/
  ledger   : List LedgerEntry
  unsaved  : List LedgerEntry
  /-- The drive ledger (R367). -/
  drives   : Store (Option DriveRec)
  /-- The substitution that the management controller has requested: KIND and logical unit (R446). -/
  request  : Option (Nat × Nat)
  /-- The tick of the mailbox GO (R445), and since when each die has read 115 °C or more (R450). -/
  askedAt  : Nat
  hotSince : Store (Option Nat)
  /-- The tick of the last monitor update (R449). -/
  monitor  : Option Nat
  deriving DecidableEq, Repr

def Safety.reset : Safety := ⟨[], [], [], [], [], none, 0, [], none⟩

/-- An HBM repair or retirement under way (R50, R51): pseudo-channel, range (none: a retirement), the repair block that the
copy fills, and the 64-byte units still to be copied; while they last, a write to the range goes to the block too. -/
structure Repair where
  channel : Nat
  range   : Option Nat
  block   : Nat
  left    : Nat
  deriving DecidableEq, Repr

/-- An HBM stack: the repair blocks in use (16 × pseudo-channel + block), the repairs made (pseudo-channel, range, block),
the retired pseudo-channel, and copies under way. -/
structure StackSt where
  used    : List Nat
  repairs : List (Nat × Nat × Nat)
  retired : Option Nat
  waiting : List Repair
  deriving DecidableEq, Repr

def StackSt.init : StackSt := ⟨[], [], none, []⟩

/-- What follows a branch delay slot (R420, R430, R431). -/
inductive After where
  | jump (target : Nat)
  | rti (level : Nat)
  deriving DecidableEq, Repr

/-- A DMA descriptor of a core (R405). -/
structure DmaDesc where
  addr   : Nat
  region : Nat
  ofs    : Nat
  len    : Nat
  out    : Bool
  tag    : Nat
  deriving DecidableEq, Repr

/-- What the debug hardware of a core holds (R522–R524): halts asked for by HALT and by a cross-halt, a cross-halt on its way,
the watchpoint matched, a BKPT issued, a breakpoint address that issued between boundaries, the boundary that a resume
leaves, and the step under way, with its count and whether an entry was taken in it. -/
structure DebugSt where
  halt    : Bool
  cross   : Bool
  coming  : Bool
  watch   : Option Nat
  bkpt    : Bool
  ibp     : Option Nat
  skip    : Bool
  step    : Option (Nat × Bool)
  deriving DecidableEq, Repr

def DebugSt.init : DebugSt := ⟨false, false, false, none, false, none, false, none⟩

/-- A measurement core beyond its pages (R409, R420): the physical core; the main registers and the shadow copies by register
number; the accumulators as an accumulate input sees them and as other reads see them (0–3 main, 4–5 shadow); the bank in
use; the next instruction's address; what follows its delay slot; the load not yet visible (register, value, bank); the
accumulator written in the cycle before; an AOV not yet visible, with its bank; the exception to be taken; latched interrupt
sources; whether the timer may still match; the memories; the inbox's entry number and discards; record notices; DMA
descriptors and completions; a HALT or a severity decision that waits for a boundary; the latched and the held high words of its
64-bit I/O registers. -/
structure CoreSt where
  phys     : Nat
  regs     : Store Nat
  shadow   : Store Nat
  acc      : Store Nat
  seen     : Store Nat
  bank     : Bool
  pc       : Nat
  after    : Option After
  load     : Option (Nat × Nat × Bool)
  wrote    : Option Nat
  aov      : Option Bool
  exc      : Option Nat
  latched  : Nat
  timer    : Bool
  imem     : Store Nat
  dmem     : List Host.Cell
  seq      : Nat
  dropped  : Nat
  recs     : List RecNote
  dma      : List DmaDesc
  dmaAt    : Nat
  done     : List (Nat × Nat)
  boot     : Nat × Nat × Nat
  haltReq  : Bool
  severe   : Option Nat
  high     : Store Nat
  held     : Store Nat
  dbg      : DebugSt
  deriving DecidableEq, Repr

/-- Core n: physical core n of the clusters, n - 16 of the courses (log entry 8); memories of zeros (log entry 43). -/
def CoreSt.init (n : Nat) : CoreSt := {
  phys := if n < 16 then n else n - 16, regs := [], shadow := [], acc := [], seen := [], bank := false, pc := 0, after := none
  load := none, wrote := none, aov := none, exc := none, latched := 0, timer := false, imem := [], dmem := [], seq := 0
  dropped := 0, recs := [], dma := [], dmaAt := 0, done := [], boot := (0, 0, 0), haltReq := false, severe := none, high := [], held := []
  dbg := DebugSt.init }

/-- An entry of the fault log (R463). -/
structure FltLog where
  seq       : Nat
  source    : Nat
  time      : Nat
  syndrome  : Nat
  corrected : Bool
  real      : Bool
  injected  : Bool
  severe    : Bool
  deriving DecidableEq, Repr

/-- The fault collector beyond its registers: the log and its next number, the sources whose latched record holds FAULT_N
(R459), the instant of the next leak of each bucket that is not empty (R453), and the islands that a safe-stop has reached
(R461). -/
structure Collector where
  log    : List FltLog
  seq    : Nat
  holds  : List Nat
  leak   : Store Nat
  safe   : List Nat
  deriving DecidableEq, Repr

def Collector.reset : Collector := ⟨[], 0, [], [], []⟩

/-- A host DMA queue beyond its registers (R485–R492): the doorbells, PHASE, the descriptor in progress with the status
found before its move, the host bytes and frames placed and the tick of the last placement, completions not yet signalled
with the tick of the oldest, frames that wait, in order, a disable that waits for the descriptor, and the status, bytes and
frames of a completion whose write has not passed yet. -/
structure HostQ where
  sqTail   : Nat
  cqHead   : Nat
  phase    : Bool
  cur      : Option Descriptor
  early    : Nat
  placed   : Nat
  frames   : Nat
  placedAt : Nat
  unsig    : Nat
  unsigAt  : Nat
  waiting  : List Frame
  stopping : Bool
  ready    : Option (Nat × Nat × Nat)
  deriving DecidableEq, Repr

def HostQ.init : HostQ := ⟨0, 0, true, none, 0, 0, 0, 0, 0, 0, [], false, none⟩

/-- A JDL request (R518). -/
structure JdlReq where
  write : Bool
  space : Nat
  addr  : Nat
  data  : Nat
  deriving DecidableEq, Repr

/-- The TAP and the debug link (R517, R518): the instruction; the request in flight and the tick of its issue; the data of
the last completed READ, the RESULT and kind of the last completed request, and what Capture-DR last loaded. -/
structure Jdl where
  ir      : Nat
  /-- The request in flight failed the check at a joint, and nothing will complete it (R23). -/
  lost    : Bool
  req     : Option JdlReq
  issued  : Nat
  data    : Nat
  result  : Nat
  write   : Bool
  capture : Nat
  deriving DecidableEq, Repr

def Jdl.reset : Jdl := ⟨1, false, none, 0, 0, 0, false, 0⟩

/-- Power, beyond its registers: VIN is applied; the module is shed or off, or a thermal shutdown has cut the outputs; the
target of the move under way and the tick of its end; the ticks at which VIN or a wake came and at which the present
start-up step began; the work counters (R515). -/
structure Power where
  vin      : Bool
  shed     : Bool
  move     : Option Nat
  moveEnd  : Nat
  startAt  : Nat
  stepAt   : Nat
  work     : Store Nat
  deriving DecidableEq, Repr

def Power.reset : Power := ⟨true, false, none, 0, 0, 0, []⟩

/-- The HBM: its bytes by module address (only what differs from zero is listed: log entry 2), and the 32-byte units
that carry the POISON mark (R32). -/
structure Hbm where
  cells  : List Host.Cell
  poison : Store Nat
  deriving DecidableEq, Repr

/-- The host link beyond its registers. -/
structure HostIf where
  /-- Posted writes that left for host memory, oldest first. -/
  out       : List HostWrite
  /-- BAR0 accesses that wait for the acceptance of an earlier write to another island (R19), and BAR2 accesses that their
  budget holds (R20, R41), oldest first. -/
  waiting   : List Instr
  window    : List Instr
  /-- Configuration space by word (R472, R473), the MSI-X table by vector × 4 + word, and the pending bits (R478). -/
  config    : Store Nat
  msixTable : Store Nat
  msixPend  : Store Nat
  /-- The configuration has been loaded from flash (R473), and PERST_N is low. -/
  loaded    : Bool
  perst     : Bool
  queues    : Store HostQ
  payloads  : List Payld
  /-- What the last configuration read, BAR2 read, HBM read or management read returned, and whether an HBM read returned it
  with its POISON mark (R32). -/
  reply     : List Byte
  poison    : Bool
  /-- Memory requests of the host answered with Unsupported Request (R475): the model's own count. -/
  refused   : Nat
  deriving DecidableEq, Repr

/-- Everything but the queue and the HBM contents. -/
structure Module where
  reg    : RegFile
  net    : Net
  clk    : Clocks
  /-- The number of the next free value (log entry 3): the model's own field, no state of the part. -/
  fresh  : Nat
  hostif : HostIf
  conv   : Store Conv
  wide   : Store Wide
  brick  : Store BrickSt
  /-- The marks that a cluster has received of an input, by 4 × cluster + input (R186, R199). -/
  marks  : Store (List Mark)
  course : Store CourseSt
  evtIn  : Store EvtIn
  unit   : Store UnitSt
  trg    : Store TrgSt
  cap    : Store CapSt
  play   : ReplaySt
  den    : Store DenSt
  disp   : DispSt
  codec  : Codec
  stream : Store StreamSt
  port   : Store PortSt
  volume : Volume
  core   : Store CoreSt
  flt    : Collector
  jdl    : Jdl
  power  : Power
  safety : Safety
  stack  : Store StackSt
  deriving DecidableEq, Repr

/-- The state: the waiting commands, first in first out; the HBM; and the rest of the module. -/
structure State where
  pending : List Instr
  hbm     : Hbm
  m       : Module
  deriving DecidableEq, Repr

def RegFile.reset : RegFile := ⟨[], [], [], [], [], none, [], [], [], [], [], []⟩
def Net.reset : Net := ⟨[], [], [], [], [], [], [], [], [], [], []⟩
def Clocks.reset : Clocks := {
  time := 0, counting := false, ticks := 0, wraps := 0, view := [], partWindow := false, temps := [], lossTemp := [], estAcc := []
  estAt := [], skew := [], alignWait := [], alignHold := [], alignSent := false, alignOut := 0, alignPulse := false
  alignE0 := false, cdTemp := 0, cdStart := 0, outs := [] }

def HostIf.reset : HostIf := ⟨[], [], [], [], [], [], false, false, [], [], [], false, 0⟩

def Module.reset : Module := {
  reg := RegFile.reset, net := Net.reset, clk := Clocks.reset, fresh := 0, hostif := HostIf.reset, conv := [], wide := [],
  brick := [], marks := [], course := [], evtIn := [], unit := [], trg := [], cap := [], play := ReplaySt.init, den := [], disp := DispSt.init
  codec := Codec.reset, stream := [], port := [], volume := Volume.reset, core := [], flt := Collector.reset, jdl := Jdl.reset, power := Power.reset
  safety := Safety.reset, stack := [] }

/-- The machine right after VIN is applied: every store lists nothing, so every register reads its reset value. -/
def State.reset : State := ⟨[], ⟨[], []⟩, Module.reset⟩

end Sys2Proof.Machine
end

