-- ==== Sys2Proof/Machine/Ops.lean ====
section
/-! DEFINITION. The shared operations: numbers, register fields, interrupts, messages, fault reports, free values, time
and the HBM. Every meaning is written over these. -/

namespace Sys2Proof.Machine

/-! ## Numbers -/

/-- The two's complement reading of a w-bit field (R2). -/
def toSigned (w n : Nat) : Int := if n % 2 ^ w < 2 ^ (w - 1) then (n % 2 ^ w : Nat) else (n % 2 ^ w : Nat) - (2 ^ w : Nat)

/-- The w-bit field that holds an integer in two's complement (R2). -/
def ofSigned (w : Nat) (i : Int) : Nat := (i % (2 ^ w : Nat)).toNat

/-- Bit i. -/
def bit (n i : Nat) : Bool := n / 2 ^ i % 2 == 1

/-- Round a quotient to the nearest integer, ties away from zero. -/
def roundAway (num : Int) (den : Nat) : Int :=
  if 0 ≤ num then (2 * num + den) / (2 * den) else -((2 * -num + den) / (2 * den))

/-- n ÷ d rounded up. -/
def ceilDiv (n d : Nat) : Nat := (n + d - 1) / d

/-- The first multiple of k at or after n. -/
def nextMultiple (n k : Nat) : Nat := ceilDiv n k * k

/-- The little-endian bytes of a number (R3). -/
def leBytes : Nat → Nat → List Byte
  | 0, _ => []
  | n + 1, v => BitVec.ofNat 8 v :: leBytes n (v / 256)

/-- The number that little-endian bytes hold (R3). -/
def leNat : List Byte → Nat
  | [] => 0
  | b :: bs => b.toNat + 256 * leNat bs

/-! ## CRC-32C: reflected polynomial 0x82F63B78, initial and final complement -/

def crcBits : Nat → Nat → Nat
  | 0, c => c
  | k + 1, c => crcBits k (if c % 2 = 1 then c / 2 ^^^ 0x82F63B78 else c / 2)

/-- f n, where n is brought to a numeral first: long folds stay shallow when they are evaluated. -/
def strictly (n : Nat) (f : Nat → Nat) : Nat :=
  match n with
  | 0 => f 0
  | k + 1 => f (k + 1)

def crcFold : Nat → List Byte → Nat
  | c, [] => c
  | c, b :: l => strictly (crcBits 8 (c ^^^ b.toNat)) fun n => crcFold n l

def crc32c (l : List Byte) : Nat := crcFold 0xFFFFFFFF l ^^^ 0xFFFFFFFF

/-! ## Capacities and reserves -/

/-- The mortar ingress of an island, in units per budget period (R14). -/
def ingressUnits (i : Nat) : Nat :=
  if i < 4 then 128 else if i < 8 then 2048 else if i < 24 then 1536 else if i < 28 then 10240
  else if i < 30 then 40960 else if i = 30 then 4096 else if i = 31 then 512 else if i < 36 then 25600
  else if i = 36 then 2048 else if i < 45 then 256 else if i < 49 then 768 else if i < 54 then 1024
  else if i < 56 then 128 else if i < 58 then 64 else if i = 58 then 128 else 64

/-- The capacity of a resource before any substitution (R37). -/
def capacity (r : Nat) : Nat :=
  if r < 4 then 19200 else if r < 64 then ingressUnits (r - 4) else if r < 72 then 224
  else if r < 74 then 1792 else if r < 78 then 512 else 0

/-- The reserve of a resource (R39). -/
def reserve (cap : Nat) : Nat := ceilDiv cap 50

/-- The reset LIMIT of an entry (R43): activity 62 takes a quarter of the reserve, at least 1; activity 63 the rest. -/
def resetLimit (r a : Nat) : Nat :=
  if 78 ≤ r then 0
  else if a = 62 then Nat.max 1 (reserve (capacity r) / 4)
  else if a = 63 then reserve (capacity r) - Nat.max 1 (reserve (capacity r) / 4)
  else 0

/-! ## Register fields -/

def Fld.width (f : Fld) : Nat := f.hi - f.lo + 1

/-- The number of a field in a register store: page, offset, low bit and bank. -/
def fieldKey (p : Nat) (f : Fld) (b : Nat) : Nat := ((p * 4096 + f.off) * 32 + f.lo) * 65536 + b

/-- The reset ON_SEVERE reactions, threshold and window of a fault source (R452). -/
def sourceReset (n : Nat) : Nat × Nat × Nat :=
  let host := 0b000011
  let hostMgt := 0b000111
  let all := 0b001111
  if n < 10 then (4, 60000, all) else if n = 10 then (1, 1000, all) else if n = 11 then (16, 1000, host)
  else if n = 12 then (4, 60000, host) else if n = 13 then (1, 1000, hostMgt) else if n = 14 then (1, 1000, all)
  else if n = 15 then (1, 1000, host) else if n < 288 then (8, 60000, host) else if n < 292 then (1, 1000, all)
  else if n < 296 then (4, 3600000, hostMgt) else if n < 300 then (100, 1000, host)
  else if n < 304 then (16, 1000, all) else if n < 576 then (16, 1000, host) else if n < 580 then (16, 1000, all)
  else if n < 589 then (16, 1000, host) else if n < 591 then (64, 1000, host) else if n < 719 then (16, 1000, host)
  else if n = 719 then (16, 1000, hostMgt) else if n < 728 then (8, 60000, host)
  else if n < 792 then (16, 1000, host) else if n < 852 then (16, 1000, all) else if n = 852 then (1024, 1000, host)
  else if n = 853 then (1, 1000, 0b000101) else if n = 854 then (1, 1000, all)
  else if n = 855 then (16, 1000, 0b000101) else (1, 1, 0)

/-- What a field reads at reset: the value of its table, or the rule its table names (R43, R124, R452). -/
def resetValue (p : Nat) (f : Fld) (b : Nat) : Nat :=
  if p = pgBud ∧ f.off = BUD_LIMIT.LIMIT.off then
    (if f.lo = 31 then (if 62 ≤ b % 64 ∧ b / 64 < 78 then 1 else 0) else resetLimit (b / 64) (b % 64))
  else if f.off = CNV_EQ_DATA.COEFF.off ∧ pgCnv 0 ≤ p ∧ p ≤ pgCnv 3 then (if b % 64 = 32 then 0x10000 else 0)
  else if p = pgCal ∧ f = CAL_BG_LAST.POSITION then 66
  else if f = DEN_PHYS.ENGINE ∧ pgDen 0 ≤ p ∧ p ≤ pgDen 7 then p - pgDen 0
  else if p = pgFlt ∧ f = FLT_SRC_THRESH.N then (sourceReset b).1
  else if p = pgFlt ∧ f = FLT_SRC_WINDOW.MS then (sourceReset b).2.1
  else if p = pgFlt ∧ f = FLT_SRC_REACT.ON_SEVERE then (sourceReset b).2.2
  else f.reset

/-- Read an RW, RO, W1C or RM field. -/
def Module.rd (m : Module) (p : Nat) (f : Fld) (b : Nat := 0) : Nat :=
  m.reg.regs.get (resetValue p f b) (fieldKey p f b)

/-- Write an RW, RO, W1C or RM field. -/
def Module.wr (m : Module) (p : Nat) (f : Fld) (v : Nat) (b : Nat := 0) : Module :=
  { m with reg.regs := m.reg.regs.set (resetValue p f b) (fieldKey p f b) (v % 2 ^ f.width) }

/-- Read the live value of an RWS field. -/
def Module.lv (m : Module) (p : Nat) (f : Fld) (b : Nat := 0) : Nat :=
  m.reg.live.get (resetValue p f b) (fieldKey p f b)

/-- Write the live value of an RWS field. -/
def Module.wlv (m : Module) (p : Nat) (f : Fld) (v : Nat) (b : Nat := 0) : Module :=
  { m with reg.live := m.reg.live.set (resetValue p f b) (fieldKey p f b) (v % 2 ^ f.width) }

/-- Read the shadow value of an RWS field. -/
def Module.sh (m : Module) (p : Nat) (f : Fld) (b : Nat := 0) : Nat :=
  m.reg.shadow.get (resetValue p f b) (fieldKey p f b)

/-- Write the shadow value of an RWS field. -/
def Module.wsh (m : Module) (p : Nat) (f : Fld) (v : Nat) (b : Nat := 0) : Module :=
  { m with reg.shadow := m.reg.shadow.set (resetValue p f b) (fieldKey p f b) (v % 2 ^ f.width) }

/-- Read an RWS field in a snapshot. -/
def snapGet (snap : Store Nat) (p : Nat) (f : Fld) (b : Nat := 0) : Nat :=
  snap.get (resetValue p f b) (fieldKey p f b)

/-- Write both halves of a 64-bit register. -/
def Module.wr64 (m : Module) (p : Nat) (lo hi : Fld) (v : Nat) (b : Nat := 0) : Module :=
  (m.wr p lo v b).wr p hi (v / 2 ^ 32) b

/-- Read a 64-bit register. -/
def Module.rd64 (m : Module) (p : Nat) (lo hi : Fld) (b : Nat := 0) : Nat := m.rd p lo b + 2 ^ 32 * m.rd p hi b

/-- The live value of a 64-bit RWS register. -/
def Module.lv64 (m : Module) (p : Nat) (lo hi : Fld) (b : Nat := 0) : Nat := m.lv p lo b + 2 ^ 32 * m.lv p hi b

/-- Add n to a saturating counter. -/
def Module.bump (m : Module) (p : Nat) (f : Fld) (n : Nat := 1) (b : Nat := 0) : Module :=
  m.wr p f (Nat.min (m.rd p f b + n) (2 ^ f.width - 1)) b

/-- Add n to a counter that wraps. -/
def Module.step (m : Module) (p : Nat) (f : Fld) (n : Nat := 1) (b : Nat := 0) : Module := m.wr p f (m.rd p f b + n) b

/-- Add n to a 64-bit counter. -/
def Module.step64 (m : Module) (p : Nat) (lo hi : Fld) (n : Nat := 1) (b : Nat := 0) : Module :=
  m.wr64 p lo hi (m.rd64 p lo hi b + n) b

/-! ## Interrupts (R24, R476, R477) -/

/-- A page requests an interrupt while a bit is set in both IRQ_STATUS and IRQ_ENABLE. -/
def Module.pageRequests (m : Module) (p : Nat) : Bool :=
  (m.reg.irqStat.get 0 p &&& m.reg.irqEn.get 0 p) != 0

/-- The vector to which a page is routed; 0 for a page without HAS_IRQ. -/
def Module.vectorOf (m : Module) (p : Nat) : Nat := m.reg.route.get (defaultVector p) p

/-- The pages that request an interrupt on a vector. -/
def Module.requesters (m : Module) (v : Nat) : List Nat :=
  (m.reg.irqStat.map Prod.fst).filter fun p => m.pageRequests p && m.vectorOf p == v

/-- The request of a page vector: the OR of the requests of the pages routed to it. -/
def Module.vectorRequest (m : Module) (v : Nat) : Bool := !(m.requesters v).isEmpty

/-- The reset values of the configuration words that the spec gives or implies (R472; the places of the capabilities are
the model's: log entry 14). -/
def configReset (w : Nat) : Nat :=
  match w with
  | 0 => 0x92560000
  | 2 => 0x118000A1
  | 4 => 0x4
  | 6 => 0xC
  | 8 => 0x4
  | 13 => 0x40
  | 16 => 0x0003B001
  | 17 => 0x8
  | 44 => 0x01FF0011
  | 45 => 0x1004
  | 46 => 0x3004
  | 64 => 0x00010015
  | 65 => 0x003FC000
  | 66 => 0x00000A22
  | _ => 0

def Module.cfg (m : Module) (w : Nat) : Nat := m.hostif.config.get (configReset w) w

/-- Memory Space Enable and Bus Master Enable: command register bits 1 and 2. -/
def Module.memSpace (m : Module) : Bool := bit (m.cfg 1) 1
def Module.busMaster (m : Module) : Bool := bit (m.cfg 1) 2

/-- MSI-X Enable and Function Mask: bits 15 and 14 of Message Control. -/
def Module.msixEnabled (m : Module) : Bool := bit (m.cfg 44) 31
def Module.msixMasked (m : Module) (v : Nat) : Bool :=
  bit (m.cfg 44) 30 || bit (m.hostif.msixTable.get 1 (v * 4 + 3)) 0

/-- Send the message of a vector, or set its pending bit while it is masked or MSI-X is disabled (R477). -/
def Module.sendVector (m : Module) (v : Nat) : Module :=
  if m.msixEnabled && !m.msixMasked v then
    { m with hostif.out := m.hostif.out ++
        [⟨m.hostif.msixTable.get 0 (v * 4) + 2 ^ 32 * m.hostif.msixTable.get 0 (v * 4 + 1),
          leBytes 4 (m.hostif.msixTable.get 0 (v * 4 + 2))⟩] }
  else { m with hostif.msixPend := m.hostif.msixPend.set 0 v 1 }

/-- Write IRQ_STATUS or IRQ_ENABLE of a page; its vector sends when its request rises from 0 to 1. -/
def Module.setIrq (m : Module) (p : Nat) (stat en : Nat) : Module :=
  let v := m.vectorOf p
  let m' := { m with reg.irqStat := m.reg.irqStat.set 0 p stat, reg.irqEn := m.reg.irqEn.set 0 p en }
  if v ≠ 0 ∧ m'.vectorRequest v ∧ ¬ m.vectorRequest v then m'.sendVector v else m'

/-- Raise the interrupt bits `bits` of a page (R24). -/
def Module.raiseBits (m : Module) (p bits : Nat) : Module :=
  m.setIrq p (m.reg.irqStat.get 0 p ||| bits) (m.reg.irqEn.get 0 p)

/-- Raise one interrupt bit of a page (R24). -/
def Module.raise (m : Module) (p b : Nat) : Module := m.raiseBits p (2 ^ b)

/-! ## Messages -/

def Module.send (m : Module) (e : Envelope) : Module := { m with net.transit := m.net.transit ++ [e] }

/-- A message that no activity is charged for (log entry 13). -/
def Module.post (m : Module) (src dst : Nat) (cls : Cls) (b : Body) : Module :=
  m.send ⟨src, dst, cls, none, 0, [], false, b⟩

/-- A message of one unit on activity 63. -/
def Module.postMgt (m : Module) (src dst : Nat) (cls : Cls) (b : Body) : Module :=
  m.send ⟨src, dst, cls, some 63, 1, [], false, b⟩

/-- The head of what has arrived on a pair. -/
def Module.arrival (m : Module) (src dst : Nat) : Option Body :=
  (m.net.arrived.find? fun e => e.src == src && e.dst == dst).map Envelope.body

/-- Take the head of what has arrived on a pair. -/
def Module.takeArrival (m : Module) (src dst : Nat) : Module :=
  { m with net.arrived := m.net.arrived.eraseP fun e => e.src == src && e.dst == dst }

/-! ## Time -/

/-- TIME64 as a number. -/
def Module.now (m : Module) : Nat := m.clk.time.toNat

/-- The integer tick of TIME64, the wraps since the last load included (R75). -/
def Module.tick (m : Module) : Nat := m.clk.wraps * 2 ^ 56 + m.now / 256

/-- The 56-bit integer count of TIME64. -/
def Module.rawTick (m : Module) : Nat := m.now / 256

/-- The instant, wraps included, that a TIME64 value means: the one nearest to the present (R75). -/
def Module.unwrap (m : Module) (t : Nat) : Nat :=
  let n := m.tick * 256
  let v := n / 2 ^ 64 * 2 ^ 64 + t % 2 ^ 64
  if n + 2 ^ 63 < v ∧ 2 ^ 64 ≤ v then v - 2 ^ 64 else if v + 2 ^ 63 < n then v + 2 ^ 64 else v

/-- The tick, wraps included, of a TIME64 that a register gives. -/
def Module.tickOf (m : Module) (t : Nat) : Nat := m.clk.wraps * 2 ^ 56 + t / 256

/-- The TIME64 of a tick, modulo 2^64. -/
def tick64 (t : Nat) : Nat := t * 256 % 2 ^ 64

/-! ## Free values (log entry 3) -/

/-- The next n free values: the number of the first, and the counter past them. -/
def Module.draw (m : Module) (n : Nat) : Nat × Module := (m.fresh, { m with fresh := m.fresh + n })

/-! ## Fault reports (R451) -/

/-- Report an event of a fault source to island 58 with its syndrome. -/
def Module.reportWith (m : Module) (island source syndrome : Nat) : Module :=
  m.post island 58 .evt (.fault ⟨source, syndrome, m.now, true, false, false⟩)

/-- Report an event whose syndrome the spec does not give: a free value (log entry 3). -/
def Module.report (m : Module) (island source : Nat) : Module :=
  let (k, m) := m.draw 1
  m.reportWith island source (Config.free k % 2 ^ 32)

/-! ## Holdover (R68, R69) -/

/-- An island's view of a loop's state. -/
def Module.loopSeen (m : Module) (island l : Nat) : Nat := m.clk.view.get 0 (island * 16 + l)

/-- Some loop of the list is outside LOCKED in the island's view. -/
def Module.holdover (m : Module) (island : Nat) (loops : List Nat) : Bool :=
  loops.any fun l => m.loopSeen island l != 1

/-- The true state of a loop. -/
def Module.loopState (m : Module) (l : Nat) : Nat := m.rd pgClk CLK_LOOP_STATUS.STATE l

/-! ## The HBM (R34, R36) -/

/-- The set bits of a stack mask, lowest first. -/
def stackList (mask : Nat) : List Nat := [0, 1, 2, 3].filter fun s => bit mask s

/-- A region as the live registers give it: base and size inside each stack in 2 MiB units, and its stacks. -/
structure Region where
  base   : Nat
  size   : Nat
  stackSet : List Nat
  mapped : Bool
  deriving DecidableEq, Repr

def Module.region (m : Module) (r : Nat) : Region :=
  ⟨m.lv pgSys SYS_REG_BASE.BASE r, m.lv pgSys SYS_REG_SIZE.SIZE r, stackList (m.lv pgSys SYS_REG_CTRL.STACKS r),
    m.lv pgSys SYS_REG_CTRL.MAPPED r == 1⟩

/-- The total size of a region in bytes. -/
def Region.bytes (r : Region) : Nat := r.stackSet.length * r.size * 2097152

/-- The stack and the module address of an offset (R34). -/
def Region.stackOf (r : Region) (a : Nat) : Nat := r.stackSet.getD (a / 4096 % r.stackSet.length) 0

def Region.address (r : Region) (a : Nat) : Nat :=
  r.stackOf a * 25769803776 + r.base * 2097152 + a / 4096 / r.stackSet.length * 4096 + a % 4096

/-- The access lies wholly inside a mapped region. -/
def Region.holds (r : Region) (ofs len : Nat) : Bool := r.mapped && decide (ofs + len ≤ r.bytes)

/-- The byte at a module address. -/
def Hbm.byte (h : Hbm) (a : Nat) : Byte := Store.get 0 h.cells a

/-- Write one byte. -/
def Hbm.put (h : Hbm) (a : Nat) (v : Byte) : Hbm := { h with cells := Store.set 0 h.cells a v }

/-- The canonical form of a byte memory: addresses strictly rising, no entry equal to what an unlisted address reads as. -/
abbrev Memory.wf (m : List Host.Cell) : Bool := Store.wf (0 : BitVec 8) m

/-- The HBM is in canonical form: its bytes, and its POISON marks. -/
def Hbm.wf (h : Hbm) : Bool := Memory.wf h.cells && Store.wf 0 h.poison

/-- The bytes at consecutive offsets. -/
def readBytes (h : Hbm) (r : Region) (ofs : Nat) : Nat → List Byte
  | 0 => []
  | n + 1 => (if r.holds ofs 1 then h.byte (r.address ofs) else 0) :: readBytes h r (ofs + 1) n

/-- Write bytes at consecutive offsets; what lies outside the region is discarded (R36). -/
def writeBytes (h : Hbm) (r : Region) : Nat → List Byte → Hbm
  | _, [] => h
  | ofs, b :: bs => writeBytes (if r.holds ofs 1 then h.put (r.address ofs) b else h) r (ofs + 1) bs

/-- Some 32-byte unit of the access carries the POISON mark (R32). -/
def poisoned (h : Hbm) (r : Region) (ofs len : Nat) : Bool :=
  (List.range (ceilDiv (ofs % 32 + len) 32)).any fun i =>
    r.holds (ofs / 32 * 32 + 32 * i) 1 && h.poison.get 0 (r.address (ofs / 32 * 32 + 32 * i) / 32) == 1

/-- The POISON marks of the 32-byte units inside the region that a write covers whole are gone (log entry 15); what a write
outside it would have cleared stays (R36). -/
def clearPoison (h : Hbm) (r : Region) (ofs len : Nat) : Hbm :=
  if h.poison = [] then h
  else
    (List.range ((ofs + len) / 32 - ceilDiv ofs 32)).foldl (fun h i =>
      let a := (ceilDiv ofs 32 + i) * 32
      if r.holds a 32 then { h with poison := h.poison.set 0 (r.address a / 32) 0 } else h) h

/-- Mark the 32-byte units that an access touches (R32). -/
def markPoison (h : Hbm) (r : Region) (ofs len : Nat) : Hbm :=
  (List.range (ceilDiv (ofs % 32 + len) 32)).foldl (fun h i =>
    let a := (ofs / 32 + i) * 32
    if r.holds a 1 then { h with poison := h.poison.set 0 (r.address a / 32) 1 } else h) h

/-- The consequences of an access outside its region: UNMAPPED_HITS, and UNMAPPED_ACCESS as a contained fault (R36). -/
def Module.unmapped (m : Module) (island r : Nat) : Module :=
  (m.bump pgSys SYS_REG_STATUS.UNMAPPED_HITS 1 r).report island 852

/-- A read by an on-module unit of an island: the bytes, and UNMAPPED_HITS where R36 asks for it. -/
def State.hbmRead (s : State) (island r ofs len : Nat) : List Byte × State :=
  let g := s.m.region r
  (readBytes s.hbm g ofs len, if g.holds ofs len then s else { s with m := s.m.unmapped island r })

/-- A write by an on-module unit of an island. -/
def State.hbmWrite (s : State) (island r ofs : Nat) (data : List Byte) : State :=
  let g := s.m.region r
  let s := { s with hbm := clearPoison (writeBytes s.hbm g ofs data) g ofs data.length }
  if g.holds ofs data.length then s else { s with m := s.m.unmapped island r }

/-! ## Cores and work counters -/

def Module.cr (m : Module) (c : Nat) : CoreSt := m.core.get (CoreSt.init c) c
def Module.setCr (m : Module) (c : Nat) (v : CoreSt) : Module := { m with core := m.core.set (CoreSt.init c) c v }

/-- The island of the physical core that serves a logical one (R395, R436). -/
def Module.coreIsl (m : Module) (c : Nat) : Nat :=
  if c < 16 then (if (m.cr c).phys = 16 then 50 else coreIsland c) else if (m.cr c).phys = 4 then 53 else coreIsland c

/-- Count work (R515). -/
def Module.addWork (m : Module) (i n : Nat) : Module :=
  { m with power.work := m.power.work.set 0 i ((m.power.work.get 0 i + n) % 2 ^ 64) }

/-- Lift an operation on the module to the state. -/
def State.onM (s : State) (f : Module → Module) : State := { s with m := f s.m }

end Sys2Proof.Machine
end

