-- ==== Sys2Proof/Machine/Valid.lean ====
section
/-! DEFINITION. The form of a refusal of a commit (R27): the checks of each page's chapter are lists of these. -/

namespace Sys2Proof.Machine

/-- A check that refuses with CONFIG_ERROR when `c` holds. REASON: 1 ZERO_GEOMETRY, 2 RANGE, 3 OVERLAP, 4 COMBINATION,
5 EXCEEDS_CAPACITY, 0x80 and above by block. -/
def chk (c : Bool) (off reason : Nat) (aux : Nat := 0) : List Bad := if c then [⟨off, 1, reason, aux⟩] else []

/-- The refusal reported: the one for the lowest offending register, the first listed of those. -/
def lowest : List Bad → Option Bad
  | [] => none
  | b :: bs =>
    match lowest bs with
    | none => some b
    | some c => if c.off < b.off then some c else some b

/-- A value outside lo .. hi. -/
def outside (lo hi n : Nat) : Bool := decide (n < lo) || decide (hi < n)

end Sys2Proof.Machine
end

