-- ==== Sys2Proof/Machine/Budget.lean ====
section
/-! DEFINITION. The bandwidth budgets (R37–R45): charging, holding and dropping at the enforcement points. -/

namespace Sys2Proof.Machine

def Module.lane (m : Module) (l : Nat) : LaneSt := m.codec.lanes.get (LaneSt.init l) l
def Module.setLane (m : Module) (l : Nat) (v : LaneSt) : Module :=
  { m with codec.lanes := m.codec.lanes.set (LaneSt.init l) l v }

/-- The group of a physical lane. -/
def laneGroup (phys : Nat) : Nat := if phys < 9 then 0 else if phys < 17 then 1 else if phys < 26 then 2 else 3

/-- The present capacity of a resource (R45); resource 74 + g has 64 units for each physical lane of group g that serves a
logical lane (R349). -/
def Module.capNow (m : Module) (r : Nat) : Nat :=
  if 74 ≤ r ∧ r < 78 then
    64 * ((List.range 32).filter fun l => laneGroup (m.lane l).phys == r - 74 && !(m.lane l).failed).length
  else capacity r - m.net.capLost.get 0 r

/-- The number of a budget entry: resource × 64 + activity. -/
def entryNo (r a : Nat) : Nat := r * 64 + a

/-- BUD_CTRL.ENFORCE is in force (R42). -/
def Module.enforcing (m : Module) : Bool := m.lv pgBud BUD_CTRL.ENFORCE == 1

/-- The units that a payload costs (R38). -/
def units (bytes : Nat) : Nat := Nat.max 1 (ceilDiv bytes 64)

/-- A cost fits within ALLOW and LIMIT of its entry in the present period (R41). -/
def Module.fits (m : Module) (a : Nat) (c : Nat × Nat) : Bool :=
  let e := entryNo c.1 a
  m.lv pgBud BUD_LIMIT.ALLOW e == 1 && decide (m.net.used.get 0 e + c.2 ≤ m.lv pgBud BUD_LIMIT.LIMIT e)

/-- Count a cost. -/
def Module.count (m : Module) (a : Nat) (c : Nat × Nat) : Module :=
  let e := entryNo c.1 a
  { m with net.used := m.net.used.set 0 e (m.net.used.get 0 e + c.2) }

/-- A message did not fit on an entry: BUD_WAITS counts the period once (R41). -/
def Module.misfit (m : Module) (a : Nat) (c : Nat × Nat) : Module :=
  let e := entryNo c.1 a
  if m.net.misfit.get 0 e = 1 then m
  else { m.bump pgBud BUD_WAITS.WAITS 1 e with net.misfit := m.net.misfit.set 0 e 1 }

/-- Charge a message on all its resources together, or on none (R41). While ENFORCE is 0 usage is counted and nothing
waits. Activities above 63 do not exist; an uncharged message has none. -/
def Module.charge (m : Module) (a : Nat) (costs : List (Nat × Nat)) : Bool × Module :=
  if m.enforcing && !costs.all (m.fits a) then
    (false, (costs.filter fun c => !m.fits a c).foldl (fun m c => m.misfit a c) m)
  else (true, costs.foldl (fun m c => m.count a c) m)

/-- The bytes that a real-time writer discards count in BUD_DROPPED of each entry they did not fit (R41). -/
def Module.dropBytes (m : Module) (a bytes : Nat) (costs : List (Nat × Nat)) : Module :=
  (costs.filter fun c => !m.fits a c).foldl (fun m c =>
    m.step64 pgBud BUD_DROPPED_LO.BYTES BUD_DROPPED_HI.BYTES bytes (entryNo c.1 a)) m

/-- Charge a real-time writer: what does not fit is discarded and counted (R41, R42). -/
def Module.chargeOrDrop (m : Module) (a bytes : Nat) (costs : List (Nat × Nat)) : Bool × Module :=
  match m.charge a costs with
  | (true, m) => (true, m)
  | (false, m) => (false, m.dropBytes a bytes costs)

/-- The usage of an entry moves to USED and PEAK (R42). -/
def Module.endEntry (m : Module) (e : Nat) : Module :=
  let u := m.net.used.get 0 e
  if u = 0 ∧ m.rd pgBud BUD_USED.USED e = 0 then m
  else
    let m := m.wr pgBud BUD_USED.USED u e
    m.wr pgBud BUD_PEAK.PEAK (Nat.max (m.rd pgBud BUD_PEAK.PEAK e) (u % 2 ^ 24)) e

/-- A period of a resource ends (R40, R42): usage moves to USED and PEAK, and every counter returns to zero. -/
def Module.endPeriod (m : Module) (res : Nat) : Module :=
  let m := (List.range 64).foldl (fun m a => m.endEntry (entryNo res a)) m
  { m with
    net.used := m.net.used.drop (entryNo res 0) (entryNo res 64)
    net.misfit := m.net.misfit.drop (entryNo res 0) (entryNo res 64) }

/-- The period in progress ends at every enforcement point (R40, R78). -/
def Module.endPeriods (m : Module) : Module := (List.range 78).foldl Module.endPeriod m

/-- The offset of a period start at the present tick: in TIME64 behind the last multiple of 2,048; before TIME64 counts, in
the cycles of loop 5 since VIN, at no offset (R40). -/
def Module.periodOffset (m : Module) : Option Nat :=
  if m.clk.counting then (if m.rawTick % 2048 ≤ 8 then some (m.rawTick % 2048) else none)
  else if m.clk.ticks % 2048 = 0 then some 0 else none

/-- The enforcement point of a resource starts a period now (R40): at its own offset, which its first start in TIME64 shows
and every later one keeps, and once a tick. -/
def Module.periodDue (m : Module) (res : Nat) : Bool :=
  match m.periodOffset with
  | some o => m.net.started.get 0 res != m.clk.ticks + 1
      && (!m.clk.counting || m.net.phase.get 0 res == 0 || m.net.phase.get 0 res == o + 1)
  | none => false

/-- A period of a resource starts. -/
def Module.startPeriod (m : Module) (res : Nat) : Module :=
  let m := m.endPeriod res
  let m := { m with net.started := m.net.started.set 0 res (m.clk.ticks + 1) }
  let m := if m.clk.counting then { m with net.phase := m.net.phase.set 0 res (m.rawTick % 2048 + 1) } else m
  m.wr pgBud BUD_PERIOD.PERIOD (m.rawTick / 2048)

/-! ## Injection at the joints and the controllers (R464–R466) -/

def injectKey (checker inst : Nat) : Nat := checker * 256 + inst

/-- Protected transactions that an armed checker has still to corrupt, and whether it inverts two bits. -/
def Module.armed (m : Module) (checker inst : Nat) : Nat := m.net.injectNext.get 0 (injectKey checker inst) / 2
def Module.armedDouble (m : Module) (checker inst : Nat) : Bool := m.net.injectNext.get 0 (injectKey checker inst) % 2 == 1

/-- One protected transaction passes an armed checker. -/
def Module.consume (m : Module) (checker inst : Nat) : Module :=
  let v := m.net.injectNext.get 0 (injectKey checker inst)
  { m with net.injectNext := m.net.injectNext.set 0 (injectKey checker inst) (if v / 2 ≤ 1 then 0 else v - 2) }

/-- The report of a message that failed its check at the joint of an island (R23, R452). -/
def Module.reportJoint (m : Module) (dst : Nat) (corrupt : Bool) : Module :=
  let inj := decide (0 < m.armed 2 dst)
  let m := if inj then m.consume 2 dst else m
  let (k, m) := m.draw 1
  m.post dst 58 .evt (.fault ⟨792 + dst, Config.free k % 2 ^ 32, m.now, corrupt, inj, false⟩)

/-- A message of the pair has not yet passed its joint: a later one waits behind it (R16, R41). -/
def Module.pairBusy (m : Module) (src dst : Nat) : Bool := m.net.transit.any fun e => e.src == src && e.dst == dst

/-! ## Register access: who reaches which page (R441, R473, R475, R495, R497, R501) -/

/-- A feature is in the set in force (R494, R497). -/
def Module.feature (m : Module) (b : Nat) : Bool := bit (m.rd pgSys (SYS_FEATURES_IN_FORCE.FEATURES 0)) b

/-- The feature without which a page is unclaimed (R494). -/
def Kind.needs : Kind → Nat → Option Nat
  | .nvp, _ => some 5
  | .disp, _ => some 6
  | .layer, _ => some 6
  | .core, _ => some 7
  | .crs, i => if i = 4 then some 8 else none
  | .trg, i => if i = 4 then some 8 else none
  | .den, _ => some 9
  | .dcm, _ => some 10
  | _, _ => none

/-- A page of the map that is claimed (R475, R495). -/
def Module.claimed (m : Module) (p : Nat) : Bool :=
  match pageRow p with
  | some (r, i) =>
    match r.kind.needs i with
    | some b => m.feature b
    | none => true
  | none => false

/-- The rails are up: step 3 of start-up has ended, and nothing has shed them. -/
def Module.railsUp (m : Module) : Bool := decide (4 ≤ m.rd pgPwr PWR_START.STEP) && !m.power.shed

/-- The function's configuration has been loaded and the BARs are open (R473, R475). -/
def Module.barsOpen (m : Module) : Bool :=
  m.railsUp && m.hostif.loaded && !m.hostif.perst && m.memSpace && m.cfg 17 % 4 != 3

/-- The island a requester's accesses come from. -/
def Module.requesterIsland (m : Module) : Requester → Nat
  | .host => 36
  | .mgt => 57
  | .jdl => 59
  | .core n => m.coreIsl n

/-- The number of a requester in the latches and answers. -/
def requesterKey : Requester → Nat
  | .host => 0
  | .mgt => 1
  | .jdl => 2
  | .core n => 3 + n.val

/-- What a read returns to its requester. -/
def Module.setAnswer (m : Module) (r : Requester) (v : Nat) : Module :=
  { m with reg.answer := m.reg.answer.set 0 (requesterKey r) v }

/-- An access of the requester reaches a page at all. -/
def Module.reaches (m : Module) (r : Requester) (p : Nat) : Bool :=
  match r with
  | .host => m.barsOpen
  | .mgt => decide (2 ≤ m.rd pgPwr PWR_START.STEP) && (m.railsUp || pageIsland p == 57)
  | _ => m.railsUp

/-- A BAR0 write on its way. -/
def Body.hostWrite : Body → Bool
  | .access _ w _ => w
  | _ => false

/-- A host access waits at island 36 while an earlier write to another island has not been accepted, and behind the accesses
that wait so (R19). -/
def Module.hostWaits (m : Module) (r : Requester) (p : Nat) : Bool :=
  r == .host && (m.hostif.waiting != []
    || m.net.transit.any fun e => e.src == 36 && e.dst != pageIsland p && e.body.hostWrite)

/-- The activity of a requester's accesses (spec 01, R521). -/
def accessActivity (r : Requester) : Nat := if r = .jdl then 62 else 63

/-- An access passes the joint of its island now: nothing of its pair is before it (R16, R19), it is not corrupted there (R23),
and its unit of ingress fits (R38, R41, R442, R521). An access within one island crosses nothing. -/
def Module.chargeAccess (m : Module) (r : Requester) (p : Nat) : Bool × Module :=
  if m.hostWaits r p then (false, m)
  else if m.requesterIsland r = pageIsland p then (true, m)
  else if m.pairBusy (m.requesterIsland r) (pageIsland p) || decide (0 < m.armed 2 (pageIsland p)) then (false, m)
  else m.charge (accessActivity r) [(4 + pageIsland p, 1)]

/-- An access that has not passed waits in its place: at island 36, or on the mortar; one that an armed checker corrupts is
discarded and reported (R23). -/
def Module.delayAccess (m : Module) (r : Requester) (p : Nat) (write : Bool) (c : Instr) : Module :=
  let src := m.requesterIsland r
  let dst := pageIsland p
  let e : Envelope := ⟨src, dst, .req, some (accessActivity r), 0, [], false, .access p write c⟩
  if m.hostWaits r p then { m with hostif.waiting := m.hostif.waiting ++ [c] }
  else if m.pairBusy src dst then m.send e
  else if 0 < m.armed 2 dst then m.reportJoint dst false
  else { m.send e with net.held := m.net.held.set 0 (src * 64 + dst) 1 }

/-- The units of a page are gated in the present power state (R511). -/
def Module.gated (m : Module) (p : Nat) : Bool :=
  let st := m.rd pgPwr PWR_STATE.STATE
  match pageKind p with
  | some .cnv | some .chn | some .wte | some .brk | some .crs | some .trg | some .acq | some .meas | some .den | some .disp
  | some .layer => st == 2 || st == 3
  | some .cmp | some .dcm | some .nvp => st == 3
  | _ => false

/-- An access outside the map or to an unclaimed page (R475). -/
def Module.unclaimedHit (m : Module) : Module := (m.bump pgPcie PCIE_UNCLAIMED.COUNT).raise pgPcie 11

/-- A memory request of the host that is answered with Unsupported Request (R475). -/
def Module.unsupported (m : Module) : Module := { m with hostif.refused := m.hostif.refused + 1 }

/-- An access by a requester to a page, by command c: what `f` does, once it passes; until then it waits in its place. -/
def State.via (s : State) (c : Instr) (r : Requester) (p : Nat) (f : State → State) (write : Bool := true) : State :=
  if !s.m.reaches r p then (if r = .host then s.onM Module.unsupported else s)
  else if !s.m.claimed p then s.onM Module.unclaimedHit
  else
    match s.m.chargeAccess r p with
    | (false, m) => { s with m := m.delayAccess r p write c }
    | (true, m) => f { s with m := m }

/-- The JDL changes nothing on the pages of island 57 (R520). -/
def jdlBarred (r : Requester) (p : Nat) : Bool := r == .jdl && pageIsland p == 57

/-- PEAK_CLR (R42): every PEAK starts again. -/
def State.takePeakClr (s : State) : State := (s.onM fun m =>
    { m with reg.regs := m.reg.regs.drop (fieldKey pgBud BUD_PEAK.PEAK 0) (fieldKey pgBud BUD_PEAK.PEAK 65536) })

/-- The command: a write that does this. -/
def execPeakClr (r : Requester) (s : State) : Host.Outcome State Fault Refusal :=
  .next (s.via (.peakClr r) r pgBud fun s => s.takePeakClr)

/-- The sum of the limits of activities lo … hi with ALLOW set on a resource. -/
def limitSum (get : Fld → Nat → Nat) (r lo hi : Nat) : Nat :=
  (((List.range (hi + 1 - lo)).map (· + lo)).map fun a =>
    if get BUD_LIMIT.ALLOW (entryNo r a) = 1 then get BUD_LIMIT.LIMIT (entryNo r a) else 0).sum

/-- BUD_SUM of a resource: live or shadow. -/
def Module.budSum (m : Module) (r : Nat) : Nat := limitSum (fun f b => m.lv pgBud f b) r 0 61
def Module.budSumShadow (m : Module) (r : Nat) : Nat := limitSum (fun f b => m.sh pgBud f b) r 0 61

/-- The capacity of a resource lies below its live sum (R45). -/
def Module.overcommitted (m : Module) (r : Nat) : Bool := decide (m.capNow r < m.budSum r)

/-- After a substitution (R45), from the module before it: where it has brought a resource's capacity below its live sum, the
lowest overcommitted resource is shown, and BUD_OVERCOMMIT reported. -/
def Module.overcommit (m before : Module) : Module :=
  if (List.range 78).any (fun r => m.overcommitted r && !before.overcommitted r) then
    let l := ((List.range 78).find? m.overcommitted).getD 0
    let m := (m.wr pgBud BUD_OVERCOMMIT.VALID 1).wr pgBud BUD_OVERCOMMIT.RESOURCE l
    (m.wr pgBud BUD_STATUS.OVERCOMMIT 1).report 36 15
  else m

/-- A substitution takes capacity from a resource (R45). -/
def Module.loseCapacity (m : Module) (r n : Nat) : Module :=
  { m with net.capLost := m.net.capLost.set 0 r (m.net.capLost.get 0 r + n) }.overcommit m

/-- The resources whose sums can exceed their capacity: those that a snapshot of BUD gives a limit, and those whose capacity
has changed. On every other resource the limits are those of reset, which fit (R43). -/
def Module.budJudged (m : Module) (snap : Store Nat) : List Nat :=
  (List.range 78).filter fun r => (snap.any fun e => e.1 % 65536 / 64 == r) || m.capNow r != capacity r

/-- The checks of a BUD snapshot (R44, R11). -/
def checkBud (m : Module) (snap : Store Nat) : List Bad :=
  let get := fun (f : Fld) (b : Nat) => snapGet snap pgBud f b
  let zero := (List.range 78).find? fun r => (List.range 64).any fun a =>
    get BUD_LIMIT.ALLOW (entryNo r a) == 1 && get BUD_LIMIT.LIMIT (entryNo r a) == 0
  match if snap = [] then none else zero with
  | some r => [⟨0x044, 1, 1, r⟩]
  | none =>
    match (m.budJudged snap).filter fun r =>
        decide (m.capNow r - reserve (m.capNow r) < limitSum get r 0 61) || decide (reserve (m.capNow r) < limitSum get r 62 63) with
    | [] => []
    | r :: l => [⟨0x044, 2, 5, l.foldl Nat.min r⟩]

/-- After an accepted commit no resource is overcommitted: the flag follows the live sums (R45). -/
def Module.appliedBud (m : Module) : Module :=
  let m := m.wr pgBud BUD_STATUS.ENFORCING (m.lv pgBud BUD_CTRL.ENFORCE)
  match (List.range 78).find? m.overcommitted with
  | some l => m.wr pgBud BUD_OVERCOMMIT.RESOURCE l
  | none => ((m.wr pgBud BUD_OVERCOMMIT.VALID 0).wr pgBud BUD_OVERCOMMIT.RESOURCE 0).wr pgBud BUD_STATUS.OVERCOMMIT 0

end Sys2Proof.Machine
end

