-- ==== Sys2Proof/Machine/Memory.lean ====
section
/-! DEFINITION. What the HBM controllers do with every access of a unit (R32, R34, R36, R37, R41): the messages of a transfer
and what they are charged, the writes that a budget holds, and error correction with its injections (R464). -/

namespace Sys2Proof.Machine

/-! ## Transfers as messages (R34, R37, R41) -/

/-- The pieces of a stretch of a region, one for each 4,096-byte chunk that it touches: stack, offset, bytes. A message of a
unit to an HBM controller carries one piece (log entry 111). -/
def stretchPieces (g : Region) : Nat → Nat → Nat → List (Nat × Nat × Nat)
  | 0, _, _ => []
  | n + 1, ofs, len =>
    if len = 0 then []
    else
      let k := Nat.min len (4096 - ofs % 4096)
      (g.stackOf ofs, ofs, k) :: stretchPieces g n (ofs + k) (len - k)

def Region.pieces (g : Region) (ofs len : Nat) : List (Nat × Nat × Nat) :=
  if g.stackSet = [] then [] else stretchPieces g (len / 4096 + 2) ofs len

/-- What one piece is charged when it is written: the bytes of its stack, and the ingress of the stack's island. -/
def writePiece (c : Nat × Nat × Nat) : List (Nat × Nat) := [(c.1, units c.2.2), (36 + c.1, units c.2.2)]

/-- What one piece is charged when island `isl` reads it: the bytes of the stack, and the ingress of the reader. -/
def readPiece (isl : Nat) (c : Nat × Nat × Nat) : List (Nat × Nat) := [(c.1, units c.2.2), (4 + isl, units c.2.2)]

/-- The messages of a write and of a read of a stretch. -/
def Region.writeMsgs (g : Region) (ofs len : Nat) : List (List (Nat × Nat)) := (g.pieces ofs len).map writePiece
def Region.readMsgs (g : Region) (isl ofs len : Nat) : List (List (Nat × Nat)) := (g.pieces ofs len).map (readPiece isl)

/-- The bytes of stretches (offset, bytes) on each stack. -/
def stackBytes (g : Region) (l : List (Nat × Nat)) : List (Nat × Nat) :=
  let p := l.flatMap fun e => g.pieces e.1 e.2
  [0, 1, 2, 3].filterMap fun st =>
    let n := ((p.filter fun c => c.1 == st).map fun c => c.2.2).sum
    if n = 0 then none else some (st, n)

/-- What stretches written together are charged, on each stack and its island (R37). -/
def stackCosts (g : Region) (l : List (Nat × Nat)) : List (Nat × Nat) :=
  (stackBytes g l).flatMap fun e => [(e.1, units e.2), (36 + e.1, units e.2)]

/-- What stretches read together by island `isl` are charged. -/
def readCosts (g : Region) (isl : Nat) (l : List (Nat × Nat)) : List (Nat × Nat) :=
  (stackBytes g l).flatMap fun e => [(e.1, units e.2), (4 + isl, units e.2)]

/-- Charge messages in order until one does not fit: how many passed. -/
def Module.chargeRun (m : Module) (a : Nat) : List (List (Nat × Nat)) → Nat × Module
  | [] => (0, m)
  | c :: l =>
    match m.charge a c with
    | (true, m) => let (n, m) := m.chargeRun a l; (n + 1, m)
    | (false, m) => (0, m)

/-- The messages of a unit's transfer pass in order, over as many periods as its budget takes (R41): true once all have. The
unit pauses until then, and asks again. -/
def Module.letThrough (m : Module) (unit a : Nat) (msgs : List (List (Nat × Nat))) : Bool × Module :=
  let k := m.net.passed.get 0 unit
  let (n, m) := m.chargeRun a (msgs.drop k)
  if msgs.length ≤ k + n then (true, { m with net.passed := m.net.passed.set 0 unit 0 })
  else (false, { m with net.passed := m.net.passed.set 0 unit (k + n) })

/-! ## Writes that wait (R41) -/

/-- A held write of the island lies on the same stack: a later one waits behind it (R16). -/
def Module.writeBehind (m : Module) (l : List HeldWrite) (w : HeldWrite) : Bool :=
  l.any fun h => h.island == w.island && (m.region h.region).stackOf h.ofs == (m.region w.region).stackOf w.ofs

/-- One write message: it passes and takes place, or it joins the held ones. -/
def State.tryWrite (s : State) (w : HeldWrite) : State :=
  let g := s.m.region w.region
  if s.m.writeBehind s.m.net.writes w then s.onM fun m => { m with net.writes := m.net.writes ++ [w] }
  else
    match s.m.charge w.act ((g.writeMsgs w.ofs w.data.length).flatten) with
    | (true, m) => ({ s with m := m } : State).hbmWrite w.island w.region w.ofs w.data
    | (false, m) => { s with m := { m with net.writes := m.net.writes ++ [w] } }

/-- A write of a unit that pauses until its budget takes it. -/
def State.unitWrite (s : State) (island act r ofs : Nat) (data : List Byte) : State :=
  let g := s.m.region r
  if g.stackSet = [] then s.hbmWrite island r ofs data
  else (g.pieces ofs data.length).foldl (fun s c =>
    s.tryWrite ⟨island, act, r, c.2.1, (data.drop (c.2.1 - ofs)).take c.2.2⟩) s

/-- The held writes are tried again, in order. -/
def State.retryWrites (s : State) : State :=
  s.m.net.writes.foldl State.tryWrite (s.onM fun m => { m with net.writes := [] })

/-- A write of the island is held. -/
def Module.writesHeld (m : Module) (island : Nat) : Bool := m.net.writes.any fun w => w.island == island

/-! ## Injection (R464–R466) -/

/-- The fault source of pseudo-channel q of stack s (R452). -/
def channelSource (s q : Nat) : Nat := 591 + 32 * s + q

/-- The pseudo-channel and the 2 MiB range of a stack-relative address: consecutive 256-byte units go to consecutive
pseudo-channels (spec 01). -/
def channelOf (a : Nat) : Nat := a / 256 % 32
def rangeOf (a : Nat) : Nat := a / 67108864

/-- What a checker finds on one protected word: nature's error, joined by an armed injection. Answers whether the word is
uncorrectable, and whether there is anything to report. Two single errors make a double one. -/
def Module.checked (m : Module) (checker inst : Nat) (nature : Ecc) : Bool × Bool :=
  let inj := decide (0 < m.armed checker inst)
  let real := nature != .clean
  (nature == .double || (inj && (m.armedDouble checker inst || real)), inj || real)

/-- Report an event of a checker that an injection may have caused or joined (R465, R466). -/
def Module.reportChecked (m : Module) (island source checker inst syndrome : Nat) (nature : Ecc) (corrected : Bool) : Module :=
  let inj := decide (0 < m.armed checker inst)
  let m := m.post island 58 .evt (.fault ⟨source, syndrome, m.now, nature != .clean, inj, corrected⟩)
  if inj then m.consume checker inst else m

/-! ## Error correction (R32) -/

/-- One 32-byte unit read of stack s at a stack-relative address (R32): whether it comes back with its POISON mark. -/
def Module.unitRead (m : Module) (s a : Nat) (nature : Ecc) : Bool × Module :=
  let (double, any) := m.checked 0 s nature
  if any then
    let (k, m) := m.draw 1
    (double, m.reportChecked (32 + s) (channelSource s (channelOf a)) 0 s
      (rangeOf a + double.toNat * 32768 + Config.free k % 65536 * 65536) nature (!double))
  else (false, m)

/-- The unit reads of an access; nature's error, where there is one, lies in the first. -/
def Module.unitReads (m : Module) (r : Region) (ofs n : Nat) (nature : Ecc) : Bool × Module :=
  if nature = .clean ∧ r.stackSet.all (fun st => m.armed 0 st == 0) = true then (false, m)
  else
    (List.range n).foldl (fun (acc : Bool × Module) i =>
      let a := ofs / 32 * 32 + 32 * i
      if r.holds a 1 then
        let (d, m) := acc.2.unitRead (r.stackOf a) (r.address a % 25769803776) (if i = 0 then nature else .clean)
        (acc.1 || d, m)
      else acc) (false, m)

/-- A double error of nature leaves its unit marked. -/
def State.natureMarks (s : State) (r : Region) (ofs : Nat) (nature : Ecc) : State :=
  if nature = .double ∧ r.holds ofs 1 then { s with hbm := markPoison s.hbm r ofs 1 } else s

/-- A checked read of a region by an on-module unit: bytes, and whether some unit is poisoned. -/
def State.checkedRead (s : State) (island r ofs len : Nat) (nature : Ecc := .clean) : List Byte × Bool × State :=
  let g := s.m.region r
  let n := ceilDiv (ofs % 32 + len) 32
  let old := poisoned s.hbm g ofs len
  let (bad, m) := s.m.unitReads g ofs n nature
  let (data, s) := ({ s with m := m } : State).hbmRead island r ofs len
  (data, old || bad, s.natureMarks g ofs nature)

end Sys2Proof.Machine
end

