-- ==== Sys2Proof/Machine/Clock.lean ====
section
/-! DEFINITION. Reference, loops, clock outputs and the align sequence (spec/02). -/

namespace Sys2Proof.Machine

/-! ## Loops -/

/-- A foreground run that has passed PRECHECK remembers that a loop of its input left LOCKED (R143). -/
def Conv.loseLoop (c : Conv) (x l st : Nat) : Conv :=
  if (l = 0 ∨ l = 5 ∨ l = x + 1) ∧ st ≠ 1 ∧ (3 ≤ c.step ∨ (c.step = 2 ∧ c.passed = true)) then { c with unlocked := true }
  else c

def Module.cv (m : Module) (x : Nat) : Conv := m.conv.get Conv.init x
def Module.setCv (m : Module) (x : Nat) (c : Conv) : Module := { m with conv := m.conv.set Conv.init x c }

/-- Loops 0, 5 and the sample-clock loop of the input are LOCKED. -/
def Module.locked (m : Module) (x : Nat) : Bool :=
  m.loopState 0 == 1 && m.loopState 5 == 1 && m.loopState (x + 1) == 1

/-- The three conditions of PRECHECK hold together (R140). -/
def Module.precheckHolds (m : Module) (x : Nat) : Bool :=
  decide (16 ≤ (m.cv x).quiet) && m.rd (pgCnv x) CNV_LIMITER.ACTIVE == 0 && m.locked x

/-- PRECHECK of an input passes at the moment its conditions come to hold together (R140). -/
def Module.lookPass (m : Module) (x : Nat) : Module :=
  let c := m.cv x
  if c.step = 2 ∧ m.precheckHolds x = true then m.setCv x { c with passed := true } else m

/-- A change of loop state, sent to every island over 56 → 0 to 56 → 59 (R69). -/
def Module.setLoop (m : Module) (l st : Nat) : Module :=
  let m : Module := { m with conv := m.conv.map fun (e : Nat × Conv) => (e.1, e.2.loseLoop e.1 l st) }
  let m := (List.range 60).foldl (fun m i => m.post 56 i .evt (.loopState l st)) (m.wr pgClk CLK_LOOP_STATUS.STATE st l)
  [0, 1, 2, 3].foldl (fun m x => m.lookPass x) m

/-- The die whose temperature stands for a loop (R64). -/
def loopDie (l : Nat) : Nat := if 1 ≤ l ∧ l ≤ 4 then l - 1 else if l = 0 ∨ l = 5 then 4 else 6

/-- The reading of a die in force at a tick since VIN (R64, R449). -/
def Module.tempAt (m : Module) (d at_ : Nat) : Int :=
  let l := m.clk.temps.get [] d
  match l.find? fun e => decide (e.1 ≤ at_) with
  | some e => e.2
  | none => (l.getLast?.map Prod.snd).getD (toSigned 16 (m.rd pgSaf SAF_TEMP.NOW d))

/-- The estimate is integrated up to now, in 10^-11 fraction LSBs (R64). -/
def Module.integrate (m : Module) (l : Nat) : Module :=
  let p := pgClk
  let held := toSigned 32 (m.rd p CLK_LOOP_EST_FREQ.EST_FREQ l)
  let acc := m.clk.estAcc.get 0 l + held * (256 * (m.clk.ticks - m.clk.estAt.get 0 l) : Nat)
  let m := { m with clk.estAcc := m.clk.estAcc.set 0 l acc, clk.estAt := m.clk.estAt.set 0 l m.clk.ticks }
  m.wr64 p CLK_LOOP_EST_TIME_LO.EST_TIME CLK_LOOP_EST_TIME_HI.EST_TIME (ofSigned 64 (roundAway acc 100000000000)) l

/-- EST_FREQ from the held temperature (R64); T is in 1/256 °C, the coefficient in 0.01 ppb per °C. -/
def Module.estimateNow (m : Module) (l : Nat) : Module :=
  let delta := toSigned 16 (m.rd pgSaf SAF_TEMP.NOW (loopDie l)) - m.clk.lossTemp.get 0 l
  m.wr pgClk CLK_LOOP_EST_FREQ.EST_FREQ (ofSigned 32 (roundAway (Config.ntoCoefficient l * delta) 256)) l

/-- Enter HOLDOVER with the onset and declaration of R60 and the held word of R62: the mean word, or the factory word
with FREE_RUN when the loop has never been LOCKED. The estimates start from the temperature at the onset (R64). -/
def Module.enterHoldover (m : Module) (l onset meanWord : Nat) : Module :=
  let m := m.wr64 pgClk CLK_LOOP_ONSET_LO.ONSET CLK_LOOP_ONSET_HI.ONSET onset l
  let m := m.wr64 pgClk CLK_LOOP_DECLARED_LO.DECLARED CLK_LOOP_DECLARED_HI.DECLARED m.now l
  let m :=
    if m.rd pgClk CLK_LOOP_STATUS.EVER_LOCKED l = 1 then m.wr pgClk CLK_LOOP_WORD.WORD meanWord l
    else (m.wr pgClk CLK_LOOP_WORD.WORD (resetValue pgClk CLK_LOOP_WORD.WORD l) l).wr pgClk CLK_LOOP_STATUS.FREE_RUN 1 l
  let m := m.wr64 pgClk CLK_LOOP_EST_TIME_LO.EST_TIME CLK_LOOP_EST_TIME_HI.EST_TIME 0 l
  let m := { m with
    clk.lossTemp := m.clk.lossTemp.set 0 l (m.tempAt (loopDie l) (m.clk.ticks - (m.now - onset) / 256))
    clk.estAcc := m.clk.estAcc.set 0 l 0
    clk.estAt := m.clk.estAt.set 0 l m.clk.ticks }
  (m.estimateNow l).setLoop l 2

/-- A loss declaration in full (R60). -/
def Module.declareLoss (m : Module) (l onset meanWord : Nat) : Module :=
  (((m.enterHoldover l onset meanWord).bump pgClk CLK_LOOP_EVENTS.LOSSES 1 l).raise pgClk 8).report 56 l

/-- REF_VALID: REFIN is present and in range (R56). -/
def Module.refValid (m : Module) : Bool :=
  m.rd pgClk CLK_REF_STATUS.PRESENT == 1 && m.rd pgClk CLK_REF_STATUS.IN_RANGE == 1

/-- REFIN declared absent or out of range (R56): REF_LOST, the event of the REFIN source, and the loss of loop 0 unless
it is in HOLDOVER. The mean tuning word over the 1 ms before the onset is a free value (log entry 3). -/
def Module.refLost (m : Module) (onset : Nat) : Module :=
  let m := (m.raise pgClk 10).report 56 10
  if m.loopState 0 = 2 then m
  else
    let (k, m) := m.draw 1
    m.declareLoss 0 onset (Config.free k)

/-- REFIN_ABSENT. -/
def execRefinAbsent (onset : Word64) (s : State) : Host.Outcome State Fault Refusal :=
  .next (if s.m.rd pgClk CLK_REF_STATUS.PRESENT = 1 then
    s.onM fun m => ((m.wr pgClk CLK_REF_STATUS.PRESENT 0).wr pgClk CLK_REF_STATUS.IN_RANGE 0).refLost onset.toNat
  else s)

/-- REFIN_PRESENT: the first edge after absence; the range window in progress began before it. -/
def execRefinPresent (s : State) : Host.Outcome State Fault Refusal :=
  .next (if s.m.rd pgClk CLK_REF_STATUS.PRESENT = 0 then
    s.onM fun m => { m.wr pgClk CLK_REF_STATUS.PRESENT 1 with clk.partWindow := true }
  else s)

/-- REFIN_RANGE_WINDOW: the end of a 10 ms window. One that fails declares REFIN out of range, whether it counted as in range or
not; REF_RESTORED rises as REF_VALID comes to 1, the first time after VIN too (log entry 116). -/
def execRefinRangeWindow (offset : Int) (onset : Word64) (s : State) : Host.Outcome State Fault Refusal :=
  .next (if s.m.rd pgClk CLK_REF_STATUS.PRESENT = 1 then
    s.onM fun m =>
      let part := m.clk.partWindow
      let m : Module := { m.wr pgClk CLK_REF_STATUS.OFFSET (ofSigned 16 (max (-32768) (min 32767 offset))) with
        clk.partWindow := false }
      if offset.natAbs ≤ 2500 then
        if m.rd pgClk CLK_REF_STATUS.IN_RANGE = 0 ∧ part = false then (m.wr pgClk CLK_REF_STATUS.IN_RANGE 1).raise pgClk 11 else m
      else (m.wr pgClk CLK_REF_STATUS.IN_RANGE 0).refLost onset.toNat
  else s)

/-- The last phase error, in signed TDC LSBs, saturating. -/
def Module.wrPhase (m : Module) (l : Nat) (phase : Int) : Module :=
  m.wr pgClk CLK_LOOP_STATUS.PHASE_ERR (ofSigned 16 (max (-32768) (min 32767 phase))) l

/-- LOOP_LOCK (R59): a loop in ACQUIRING or PULL_IN whose phase error lies within WINDOW. -/
def execLoopLock (l : Fin 10) (phase : Int) (word : Word) (s : State) : Host.Outcome State Fault Refusal :=
  .next (if (s.m.loopState l = 0 ∨ s.m.loopState l = 3) ∧ phase.natAbs ≤ s.m.lv pgClk CLK_LOOP_LOCK.WINDOW l then
    s.onM fun m =>
      let m := if m.loopState l = 3 then m.integrate l else m
      let m := (m.wrPhase l phase).wr pgClk CLK_LOOP_STATUS.EVER_LOCKED 1 l
      let m := (m.wr pgClk CLK_LOOP_STATUS.FREE_RUN 0 l).wr pgClk CLK_LOOP_WORD.WORD word.toNat l
      let m := (m.wr pgClk CLK_LOOP_EST_FREQ.EST_FREQ 0 l).bump pgClk CLK_LOOP_EVENTS.LOCKS 1 l
      (m.setLoop l 1).raise pgClk 9
  else s)

/-- LOOP_LOSS (R60): a LOCKED loop whose phase error lies outside WINDOW. -/
def execLoopLoss (l : Fin 10) (phase : Int) (onset : Word64) (meanWord : Word) (s : State) :
    Host.Outcome State Fault Refusal :=
  .next (if s.m.loopState l = 1 ∧ s.m.lv pgClk CLK_LOOP_LOCK.WINDOW l < phase.natAbs then
    s.onM fun m => (m.wrPhase l phase).declareLoss l onset.toNat meanWord.toNat
  else s)

/-- PULL_IN (R65, R66): a loop leaves HOLDOVER, unless it is forced or, for loop 0, REFIN is not valid. -/
def execPullIn (l : Fin 10) (s : State) : Host.Outcome State Fault Refusal :=
  .next (if s.m.loopState l = 2 ∧ s.m.lv pgClk CLK_LOOP_LOSS.FORCE_HOLDOVER l = 0
      ∧ (l.val = 0 → s.m.refValid = true) then
    s.onM fun m =>
      let m := m.setLoop l 3
      if l.val = 0 ∨ l.val = 5 then (m.wr pgTb TB_ALIGN_STATUS.ALIGN_STALE 1).raise pgTb 11 else m
  else s)

/-- A measurement under way has been going on while a loop was outside LOCKED (R234). -/
def UnitSt.flagged (t : UnitSt) : UnitSt :=
  if t.start.isSome || t.first.isSome then { t with hold := true } else t

/-- LOOP_STATE_NOTICE (R69): the island takes the state that the message at the head of 56 → island carries. -/
def execLoopStateNotice (island : Island) (s : State) : Host.Outcome State Fault Refusal :=
  .next (match s.m.arrival 56 island with
    | some (.loopState l st) =>
      s.onM fun m =>
        let m := m.takeArrival 56 island
        let m := if island.val = 55 ∧ (l = 0 ∨ l = 5) ∧ st ≠ 1 then { m with unit := m.unit.map fun e => (e.1, e.2.flagged) } else m
        { m with clk.view := m.clk.view.set 0 (island.val * 16 + l) st }
    | _ => s)

/-! ## Time base -/

/-- TIME64_START (R72): at the first lock of loop 5, or at its free-run holdover; the budget periods in progress end (R40). -/
def execTime64Start (s : State) : Host.Outcome State Fault Refusal :=
  .next (if s.m.clk.counting = false ∧ (s.m.rd pgClk CLK_LOOP_STATUS.EVER_LOCKED 5 = 1
      ∨ s.m.rd pgClk CLK_LOOP_STATUS.FREE_RUN 5 = 1) then
    s.onM fun m => { m.endPeriods with clk.counting := true }
  else s)

/-- TIME_MARK (R73): the mark at the head of 54 → island corrects a local copy that is off by a tick or more, except in a
converter island whose sample loop is outside LOCKED. -/
def execTimeMark (island : Island) (drift : Int) (s : State) : Host.Outcome State Fault Refusal :=
  .next (match s.m.arrival 54 island with
    | some (.timeMark _) =>
      s.onM fun m =>
        let m := m.takeArrival 54 island
        let off := m.clk.skew.get 0 island + drift
        if island.val < 4 ∧ m.loopState (island.val + 1) ≠ 1 then
          { m with clk.skew := m.clk.skew.set 0 island off }
        else
          let m := { m with clk.skew := m.clk.skew.set 0 island 0 }
          if off = 0 then m else (m.bump pgTb TB_MARK_ERRORS.COUNT).report island 11
    | _ => s)

/-- A time mark to every island, over 54 → 0 to 54 → 59, every 2,048 ticks of the count (R73). -/
def Module.sendMarks (m : Module) : Module :=
  if m.rawTick % 2048 = 0 then (List.range 60).foldl (fun m i => m.post 54 i .evt (.timeMark m.rawTick)) m else m

/-! ## Aligning (R76–R81) -/

/-- ALIGN_ARMED at course island 24 + c: it holds course starts and answers (R80). -/
def execAlignArmed (c : Input) (s : State) : Host.Outcome State Fault Refusal :=
  .next (match s.m.arrival 54 (24 + c.val) with
    | some .alignArmed =>
      s.onM fun m =>
        let m := m.takeArrival 54 (24 + c.val)
        { m with clk.alignHold := m.clk.alignHold.set 0 (24 + c.val) 1 }.post (24 + c.val) 54 .cpl .alignDone
    | _ => s)

/-- ALIGN_ARMED_COMPLETION: with the completion of the last ALIGN_ARMED sent, STATE becomes ARMED while a FOLLOW or LEAD load is
pending (R80, R548). -/
def execAlignArmedCompletion (c : Input) (s : State) : Host.Outcome State Fault Refusal :=
  .next (match s.m.arrival (24 + c.val) 54 with
    | some .alignDone =>
      s.onM fun m =>
        let m := m.takeArrival (24 + c.val) 54
        let m := { m with clk.alignWait := m.clk.alignWait.erase (24 + c.val) }
        let mode := m.lv pgTb TB_ALIGN_CTRL.MODE
        if m.clk.alignWait = [] ∧ (mode = 1 ∨ mode = 2) then
          { m.wr pgTb TB_ALIGN_STATUS.STATE 1 with clk.alignPulse := false }
        else m
    | _ => s)

/-- ALIGN_OUT_PULSE (R76): once per arming of a LEAD module, at an edge of a valid REFIN, for two REFIN periods. -/
def execAlignOutPulse (s : State) : Host.Outcome State Fault Refusal :=
  .next (if s.m.lv pgTb TB_ALIGN_CTRL.MODE = 2 ∧ s.m.rd pgTb TB_ALIGN_STATUS.STATE = 1 ∧ s.m.refValid = true
      ∧ s.m.clk.alignPulse = false then
    s.onM fun m => { m with
      clk.alignPulse := true
      clk.alignOut := if m.lv pgClk CLK_REF_CFG.FREQ_SEL = 1 then 40 else 400 }
  else s)

/-- ALIGN_EVENT (R77): E0, taken only while ARMED in FOLLOW or LEAD with a valid REFIN. -/
def execAlignEvent (s : State) : Host.Outcome State Fault Refusal :=
  .next (if (s.m.lv pgTb TB_ALIGN_CTRL.MODE = 1 ∨ s.m.lv pgTb TB_ALIGN_CTRL.MODE = 2)
      ∧ s.m.rd pgTb TB_ALIGN_STATUS.STATE = 1 ∧ s.m.refValid = true then
    s.onM fun m => { m with clk.alignE0 := true }
  else s)

/-- Send ALIGN_RELEASED to every course island (R80). -/
def Module.sendReleases (m : Module) : Module :=
  [24, 25, 26, 27].foldl (fun m i => m.post 54 i .evt .alignReleased) { m with clk.alignSent := false }

/-- Send ALIGN_ARMED to every course island and await the completions (R80). -/
def Module.sendArms (m : Module) : Module :=
  [24, 25, 26, 27].foldl (fun m i => m.post 54 i .evt .alignArmed)
    { m with clk.alignWait := m.clk.alignWait ++ [24, 25, 26, 27], clk.alignSent := true }

/-! ## Clock outputs -/

/-- CLKOUT_CHANGE (R85): at the first wrap of the old divider, output k takes its live configuration. -/
def execClkoutChange (k : Fin 4) (s : State) : Host.Outcome State Fault Refusal :=
  .next (s.onM fun m =>
    let en := m.lv pgClk (CLK_OUT_CFG.EN k)
    let out : OutCfg := ⟨en, m.lv pgClk (CLK_OUT_CFG.SOURCE k), m.lv pgClk (CLK_OUT_DIV.DIV k),
      m.lv pgClk (CLK_OUT_CFG.FORMAT k), m.lv pgClk (CLK_OUT_CFG.LEVEL k), m.now⟩
    let run := m.rd pgClk CLK_OUT_STATUS.RUNNING
    { m.wr pgClk CLK_OUT_STATUS.RUNNING (if en = 1 then run ||| 2 ^ k.val else run - (run &&& 2 ^ k.val)) with
      clk.outs := m.clk.outs.set OutCfg.init k out })

/-! ## The commits of CLK and TB -/

/-- The frequency of a clock source in MHz (spec 02, CLK_OUTk_CFG.SOURCE), and the maximum of a format (R83). -/
def sourceMHz (n : Nat) : Nat := if n = 0 then 100 else if n = 1 then 2000 else 32000
def formatMHz (n : Nat) : Nat := if n = 0 then 1000 else if n = 1 then 400 else if n = 2 then 4000 else 250

/-- The checks of a CLK snapshot (R83, R84 and the register table). -/
def checkClk (snap : Store Nat) : List Bad :=
  let g := fun (f : Fld) (b : Nat) => snapGet snap pgClk f b
  let bw := g CLK_REF_CFG.CLEAN_BW 0
  let trim := toSigned 16 (g CLK_REF_PHASE.TRIM 0)
  chk (bw == 0) 0x040 1 ++ chk (outside 10 10000 bw) 0x040 2 ++ chk (decide (2560 < trim.natAbs)) 0x048 2
  ++ (List.range 10).flatMap (fun l =>
    let n := g CLK_LOOP_LOCK.LOCK_COUNT l
    let sl := g CLK_LOOP_SLEW.SLEW_PPB l
    chk (n == 0) 0x050 1 l ++ chk (outside 16 65535 n) 0x050 2 l ++ chk (g CLK_LOOP_LOCK.WINDOW l == 0) 0x050 1 l
    ++ chk (g CLK_LOOP_LOSS.LOSS_COUNT l == 0) 0x054 1 l ++ chk (sl == 0) 0x058 1 l
    ++ chk (decide (100000 < sl)) 0x058 2 l)
  ++ (List.range 4).flatMap (fun k =>
    let fmt := g (CLK_OUT_CFG.FORMAT k) 0
    let lev := g (CLK_OUT_CFG.LEVEL k) 0
    let src := g (CLK_OUT_CFG.SOURCE k) 0
    let div := g (CLK_OUT_DIV.DIV k) 0
    chk (decide (6 ≤ src)) (0x100 + 8 * k) 2 k ++ chk (decide (4 ≤ fmt)) (0x100 + 8 * k) 2 k
    ++ chk ((fmt == 0 && lev == 3) || ((fmt == 1 || fmt == 3) && lev != 0)) (0x100 + 8 * k) 4 k
    ++ chk (div != 0 && decide (src < 6) && decide (fmt < 4) && decide (formatMHz fmt * div < sourceMHz src))
        (0x100 + 8 * k) 2 k
    ++ chk (div == 0) (0x104 + 8 * k) 1 k)

/-- The effects of a CLK commit point: a FORCE_HOLDOVER that is newly 1 puts its loop into holdover (R67). -/
def Module.appliedClk (m before : Module) : Module :=
  (List.range 10).foldl (fun m l =>
    if m.lv pgClk CLK_LOOP_LOSS.FORCE_HOLDOVER l = 1 ∧ before.lv pgClk CLK_LOOP_LOSS.FORCE_HOLDOVER l = 0
        ∧ m.loopState l ≠ 2 then
      let (k, m) := m.draw 1
      m.enterHoldover l m.now (Config.free k)
    else m) m

/-- Some course is RUNNING. -/
def Module.anyCourseRunning (m : Module) : Bool :=
  [0, 1, 2, 3, 4].any fun d => m.rd (pgCrs d) CRS_STATUS.RUN_STATE == 2

/-- The checks of a TB snapshot (R79). -/
def checkTb (m : Module) (snap : Store Nat) : List Bad :=
  let mode := snapGet snap pgTb TB_ALIGN_CTRL.MODE
  chk (mode != 0 && snapGet snap pgTb TB_LOAD_LO.LOAD % 2 ^ 20 != 0) 0x048 2
  ++ chk (mode != 0 && m.anyCourseRunning) 0x050 0x80

/-- The effects of a TB commit point (R80, R81, R548). A load is pending while MODE is not OFF: MODE OFF cancels it, and a mode
arms anew after cancelling it. Islands that hold course starts go on holding them until a release. -/
def Module.appliedTb (m before : Module) : Module :=
  let mode := m.lv pgTb TB_ALIGN_CTRL.MODE
  let pending := before.lv pgTb TB_ALIGN_CTRL.MODE != 0
  let m := if pending then { m with clk.alignE0 := false }.raise pgTb 9 else m
  if mode = 0 then
    if pending then
      let m := m.wr pgTb TB_ALIGN_STATUS.STATE 3
      if m.clk.alignSent then m.sendReleases else m
    else m
  else if mode = 3 then m.wr pgTb TB_ALIGN_STATUS.STATE 1
  else (m.wr pgTb TB_ALIGN_STATUS.STATE 0).sendArms

end Sys2Proof.Machine
end

