-- ==== Sys2Proof/Machine/Convert.lean ====
section
/-! DEFINITION. RF inputs and conversion (spec/03): the front end, the digital correction, running the converter, the
scan table, injected entries and the sample messages. -/

namespace Sys2Proof.Machine

def Module.wd (m : Module) (x : Nat) : Wide := m.wide.get Wide.init x
def Module.setWd (m : Module) (x : Nat) (w : Wide) : Module := { m with wide := m.wide.set Wide.init x w }

/-- RUN_STATE: 0 STOPPED, 1 ARMED, 2 RUNNING, 3 CAL_PAUSED. -/
def Module.runState (m : Module) (x : Nat) : Nat := m.rd (pgCnv x) CNV_STATUS.RUN_STATE

/-- RUN reads v in the shadow and in force (R110). -/
def Module.setRun (m : Module) (x v : Nat) : Module := (m.wsh (pgCnv x) CNV_RUN.RUN v).wlv (pgCnv x) CNV_RUN.RUN v

/-! ## Front end -/

/-- LIMITER_ENGAGE (R89). -/
def execLimiterEngage (x : Input) (s : State) : Host.Outcome State Fault Refusal :=
  .next (if s.m.rd (pgCnv x) CNV_LIMITER.ACTIVE = 0 then
    s.onM fun m =>
      let m := m.setCv x { m.cv x with limFrom := some (m.tick * 16) }
      let m := (m.wr (pgCnv x) CNV_LIMITER.ACTIVE 1).bump (pgCnv x) CNV_LIMITER.ENGAGED
      (m.raise (pgCnv x) 9).report x (296 + x.val)
  else s)

/-- LIMITER_RELEASE (R89, R101): the flagged interval reaches 320 samples past the release. -/
def execLimiterRelease (x : Input) (s : State) : Host.Outcome State Fault Refusal :=
  .next (if s.m.rd (pgCnv x) CNV_LIMITER.ACTIVE = 1 then
    s.onM fun m =>
      let c := m.cv x
      let c := { c with
        limFrom := none
        flagged := c.flagged ++ [⟨c.limFrom.getD (m.tick * 16), m.tick * 16 + 320⟩] }
      ((m.setCv x c).wr (pgCnv x) CNV_LIMITER.ACTIVE 0).lookPass x
  else s)

/-- PWR_DET_UPDATE (R90), with the quiet readings that PRECHECK counts (R140) and RF_LEAK (R143). -/
def execPwrDetUpdate (x : Input) (power : Int) (s : State) : Host.Outcome State Fault Refusal :=
  .next (s.onM fun m =>
    let under := decide (power < -10240)
    let above := decide (5120 < power)
    let v := if under then -10240 else if above then 5120 else power
    let m := (m.wr (pgCnv x) CNV_PWR_DET.VALID 1).wr (pgCnv x) CNV_PWR_DET.POWER (ofSigned 16 v)
    let m := (m.wr (pgCnv x) CNV_PWR_DET.UNDER under.toNat).wr (pgCnv x) CNV_PWR_DET.OVER above.toNat
    let c := m.cv x
    if c.step = 2 then
      (m.setCv x { c with quiet := if v < -2560 ∧ ¬ above then c.quiet + 1 else 0 }).lookPass x
    else if 3 ≤ c.step ∧ -2560 ≤ v then m.setCv x { c with rfLeak := true }
    else m)

/-! ## The scan table -/

/-- The floor of an input (R448). -/
def Module.floorOf (m : Module) (x : Nat) : Nat := m.rd pgSaf SAF_FLOOR.FLOOR / 16 ^ x % 16

/-- An entry or injected entry comes into force at a tick (R113, R115, R448, R96): the switch and the attenuator take
its settings, ENTRY_START is due, and an entry mark leaves over X → 24 + X. -/
def Module.beginEntry (m : Module) (x tick entry source atten settle frames : Nat) (injected : Bool) : Module :=
  let fl := m.floorOf x
  let a := Nat.max atten fl
  let m :=
    if atten < fl then
      ((m.bump pgSaf SAF_FLOOR_HITS.COUNT).raise pgSaf 10).report x (296 + x)
    else m
  let c := m.cv x
  let info : EntryInfo := ⟨tick * 16, entry, source, a, injected, c.resumed⟩
  let m := m.setCv x { c with
    entryTick := tick, entry := entry, source := source, atten := a, settle := settle, frames := frames
    injected := injected, resumed := false, startFlag := true, entries := c.entries ++ [info] }
  let m :=
    if m.lv (pgCnv x) CNV_EQ_CTRL.MODE = 0 ∧ (m.cv x).eqTable.get 0 a = 1 then
      (m.setCv x { m.cv x with eqTable := (m.cv x).eqTable.set 0 a 2 }).report x (288 + x)
    else m
  let m := (m.wr (pgCnv x) CNV_SCAN_STATUS.ENTRY entry).wr (pgCnv x) CNV_SCAN_STATUS.INJECTED injected.toNat
  m.send ⟨x, 24 + x, .evt, some (m.lv (pgCnv x) ACTIVITY_ID.ACTIVITY), 16, [], true, .entryMark info⟩

/-- Table entry n comes into force at a tick; entries with REPEAT = 0 are skipped, counted and reported (R114), and each
return to entry 0 counts a pass. `fuel` bounds the search by the length of the table. -/
def Module.beginTable (m : Module) (x tick n : Nat) : Nat → Module
  | 0 => m
  | fuel + 1 =>
    let p := pgCnv x
    let len := m.lv p CNV_SCAN_CTRL.LENGTH
    if m.lv p CNV_SCAN_TIME.REPEAT n = 0 then
      let m := (m.bump p CNV_SCAN_SKIPS.SKIPS).raise p 14
      if len ≤ n + 1 then (m.bump p CNV_SCAN_CYCLES.CYCLES).beginTable x tick 0 fuel
      else m.beginTable x tick (n + 1) fuel
    else
      m.beginEntry x tick n (m.lv p CNV_SCAN_CFG.SOURCE n) (m.lv p CNV_SCAN_CFG.ATTEN n) (m.lv p CNV_SCAN_TIME.SETTLE n)
        (m.lv p CNV_SCAN_TIME.REPEAT n) false

/-- The entry after the table entry in force (R112). -/
def Module.nextEntry (m : Module) (x tick : Nat) : Module :=
  let p := pgCnv x
  let n := m.rd p CNV_SCAN_STATUS.ENTRY + 1
  if m.lv p CNV_SCAN_CTRL.LENGTH ≤ n then (m.bump p CNV_SCAN_CYCLES.CYCLES).beginTable x tick 0 65
  else m.beginTable x tick n 65

/-- The new or restarted table, from START_ENTRY (R109, R116). -/
def Module.startTable (m : Module) (x tick : Nat) : Module :=
  m.beginTable x tick (m.lv (pgCnv x) CNV_SCAN_CTRL.START_ENTRY) 65

/-- The end of the entry in force (R112). -/
def Conv.endTick (c : Conv) : Nat := c.entryTick + c.settle + 4096 * c.frames

/-- The number of the first frame boundary of the entry in force after a tick; while it settles, 1 (R118). -/
def Conv.boundaryNo (c : Conv) (t : Nat) : Nat :=
  if t < c.entryTick + c.settle then 1 else (t - c.entryTick - c.settle) / 4096 + 1

/-- The tick of a frame boundary of the entry in force (R112). -/
def Conv.boundary (c : Conv) (f : Nat) : Nat := c.entryTick + c.settle + 4096 * f

/-- SCAN_ENTRY_START (R113): the last boundary of a table entry, with nothing pending that pre-empts the next entry. -/
def execScanEntryStart (x : Input) (s : State) : Host.Outcome State Fault Refusal :=
  .next (if s.m.runState x = 2 ∧ (s.m.cv x).injected = false ∧ (s.m.cv x).inj = none ∧ (s.m.cv x).stopping = false then
    s.onM fun m => m.nextEntry x (m.cv x).endTick
  else s)

/-! ## Injected entries (R117–R121) -/

/-- A foreground calibration is queued or running for the input. -/
def Module.calBusy (m : Module) (x : Nat) : Bool := (m.cv x).step != 0

/-- The CAL page shows a run of the input (R138). -/
def Module.calShown (m : Module) (x : Nat) : Bool := m.rd pgCal CAL_FG_STATUS.STEP x != 0

/-- What the switch and the attenuator of an input hold, whatever RUN_STATE or ENABLE (R550): while a foreground calibration has
the input, CAL_REF at ATTEN 0, else the settings last in force; the floor applies (R448). -/
def Module.frontEnd (m : Module) (x : Nat) : Nat × Nat :=
  if m.runState x = 3 then (2, m.floorOf x) else ((m.cv x).source, Nat.max (m.cv x).atten (m.floorOf x))

/-- The refusal of a request: 0 none, 1 BUSY, 2 CAL, 3 NOT_RUNNING (R117). -/
def Module.injectRefusal (m : Module) (x : Nat) : Nat :=
  if m.rd (pgCnv x) CNV_INJECT_STATUS.STATE ≠ 0 then 1
  else if m.calBusy x then 2
  else if m.runState x ≠ 2 then 3
  else 0

/-- A refused request of either origin. -/
def Module.injectRefused (m : Module) (x : Nat) : Module :=
  (m.bump (pgCnv x) CNV_INJECT_STATUS.REFUSED).raise (pgCnv x) 13

/-- An accepted request: REPEAT = 0 completes at once (R10, R118), else the entry is pending. -/
def Module.injectAccepted (m : Module) (x : Nat) (i : Injection) : Module :=
  let p := pgCnv x
  let m := m.wr p CNV_INJECT_STATUS.LAST_ZERO_LENGTH (i.rep == 0).toNat
  if i.rep = 0 then (m.bump p CNV_INJECT_DONE.DONE).raise p 12
  else
    ((m.wr p CNV_INJECT_STATUS.ORIGIN i.trigger.toNat).wr p CNV_INJECT_STATUS.STATE 1).setCv x
      { m.cv x with inj := some i }

/-- INJECT_GO: the software injected entry (R117, R118). -/
def State.takeInjectGo (s : State) (x : Input) : State :=
  (s.onM fun m =>
    let p := pgCnv x
    let i : Injection := ⟨false, m.rd p CNV_INJ_SW_CFG.SOURCE, m.rd p CNV_INJ_SW_CFG.ATTEN,
      m.rd p CNV_INJ_SW_TIME.SETTLE, m.rd p CNV_INJ_SW_TIME.REPEAT, m.tick⟩
    let why := if 5 ≤ i.source ∨ i.settle = 0 then 4 else m.injectRefusal x
    if why = 0 then (m.wr p CNV_INJECT_STATUS.LAST_SW_REFUSED 0).injectAccepted x i
    else
      ((m.injectRefused x).wr p CNV_INJECT_STATUS.LAST_SW_REFUSED 1).wr p CNV_INJECT_STATUS.REFUSE_REASON why)

/-- The command: a write that does this. -/
def execInjectGo (r : Requester) (x : Input) (s : State) : Host.Outcome State Fault Refusal :=
  .next (s.via (.injectGo r x) r (pgCnv x) fun s => s.takeInjectGo x)

/-- INJECTION_REQUEST: a trigger-raised request arrives over 24 + X → X and is answered over X → 24 + X. -/
def execInjectionRequest (x : Input) (s : State) : Host.Outcome State Fault Refusal :=
  .next (match s.m.arrival (24 + x.val) x with
    | some (.injectReq _) =>
      s.onM fun m =>
        let m := m.takeArrival (24 + x.val) x
        let p := pgCnv x
        let why := m.injectRefusal x
        let m :=
          if why = 0 then
            m.injectAccepted x ⟨true, m.lv p CNV_INJ_TRG_CFG.SOURCE, m.lv p CNV_INJ_TRG_CFG.ATTEN,
              m.lv p CNV_INJ_TRG_TIME.SETTLE, m.lv p CNV_INJ_TRG_TIME.REPEAT, m.tick⟩
          else m.injectRefused x
        m.postMgt x (24 + x.val) .cpl (.injectDone x why)
    | _ => s)

/-- INJECTED_ENTRY_START (R118): at the next frame boundary after acceptance the pending entry pre-empts the table. -/
def execInjectedEntryStart (x : Input) (s : State) : Host.Outcome State Fault Refusal :=
  .next (match (s.m.cv x).inj with
    | some i =>
      if s.m.runState x = 2 ∧ (s.m.cv x).injected = false ∧ (s.m.cv x).stopping = false then
        s.onM fun m =>
          let c := m.cv x
          let f := Nat.min (c.boundaryNo i.tick) c.frames
          let b := c.boundary f
          let m := m.setCv x { c with inj := none, preempt := some (c.entry, c.frames - f) }
          let m := (m.wr (pgCnv x) CNV_INJECT_STATUS.STATE 2).wr (pgCnv x) CNV_INJECT_LAT.TICKS (b - i.tick)
          m.beginEntry x b c.entry i.source i.atten i.settle i.rep true
      else s
    | none => s)

/-- An injected entry is over: it counts as done (R119). -/
def Module.injectionDone (m : Module) (x : Nat) : Module :=
  let m := ((m.bump (pgCnv x) CNV_INJECT_DONE.DONE).raise (pgCnv x) 12).wr (pgCnv x) CNV_INJECT_STATUS.STATE 0
  (m.setCv x { m.cv x with injected := false }).wr (pgCnv x) CNV_SCAN_STATUS.INJECTED 0

/-- What runs after an injected entry or a pause (R116, R119, R121): a changed table from START_ENTRY, or the
interrupted entry with the frames left to it, or the next entry when none are left. -/
def Module.resumeEntry (m : Module) (x tick : Nat) (left : Option (Nat × Nat)) (changed : Bool) : Module :=
  let m := m.setCv x { m.cv x with resumed := true, preempt := none, restart := false }
  let p := pgCnv x
  if changed then m.startTable x tick
  else
    match left with
    | some (e, k) =>
      if k = 0 then (m.wr p CNV_SCAN_STATUS.ENTRY e).nextEntry x tick
      else m.beginEntry x tick e (m.lv p CNV_SCAN_CFG.SOURCE e) (m.lv p CNV_SCAN_CFG.ATTEN e)
        (m.lv p CNV_SCAN_TIME.SETTLE e) k false
    | none => m.nextEntry x tick

/-- INJECTED_ENTRY_END (R119); when delivery is ending, nothing resumes (R110). -/
def execInjectedEntryEnd (x : Input) (s : State) : Host.Outcome State Fault Refusal :=
  .next (if s.m.runState x = 2 ∧ (s.m.cv x).injected = true then
    s.onM fun m =>
      let c := m.cv x
      let m := m.injectionDone x
      if c.stopping then m else m.resumeEntry x c.endTick c.preempt c.restart
  else s)

/-! ## Running the converter -/

/-- The start tick from START_AT, judged at the commit point (R107): less than 64 ticks ahead is late. -/
def lateStart (now start : Nat) : Nat × Bool :=
  if start < now + 64 then (nextMultiple (now + 64) 4096, true) else (start, false)

/-- ARMED with a new start tick (R107); in a calibration pause the converter is as ARMED once the pause is over (R121, R141). -/
def Module.armConverter (m : Module) (x : Nat) : Module :=
  let p := pgCnv x
  let m := if m.runState x = 3 then m.setCv x { m.cv x with before := 1, cutStop := false, pauseLeft := none }
    else m.wr p CNV_STATUS.RUN_STATE 1
  if m.lv p CNV_RUN.START_SRC = 0 then
    let (t, late) := lateStart m.tick (m.tickOf (m.lv64 p CNV_START_AT_LO.START_AT CNV_START_AT_HI.START_AT))
    let m := m.setCv x { m.cv x with startTick := some t, stopping := false }
    if late then m.raise p 11 else m
  else m.setCv x { m.cv x with startTick := none, stopping := false }

/-- The converter is ARMED, or will be when its calibration pause is over. -/
def Module.armed_ (m : Module) (x : Nat) : Bool :=
  m.runState x == 1 || (m.runState x == 3 && (m.cv x).before == 1 && !(m.cv x).cutStop)

/-- A start tick from the event timing island reaches an ARMED converter that waits for it (R108); in a pause it is held
(R141). -/
def Module.eventStart (m : Module) (x event tick : Nat) : Module :=
  let p := pgCnv x
  let c := m.cv x
  if m.armed_ x = true ∧ m.lv p CNV_RUN.START_SRC = 1 ∧ m.lv p CNV_RUN.START_EVT = event ∧ c.startTick = none then
    if tick < m.tick then (m.setCv x { c with startTick := some (nextMultiple (m.tick + 1) 4096) }).raise p 11
    else m.setCv x { c with startTick := some tick }
  else m

/-- The live settings of the WTE. -/
def Module.wteCfg (m : Module) (x : Nat) : WteCfg :=
  let p := pgWte x
  { log2n := m.lv p WTE_XFORM.LOG2N, overlap := m.lv p WTE_XFORM.OVERLAP, window := m.lv p WTE_XFORM.WINDOW
    beta := m.lv p WTE_KAISER.BETA
    user := if m.lv p WTE_XFORM.WINDOW = 5 then
        (m.reg.live.window (fieldKey p WTE_WIN_DATA.COEFF 0) (fieldKey p WTE_WIN_DATA.COEFF 65536)).map fun e =>
          (e.1 - fieldKey p WTE_WIN_DATA.COEFF 0, e.2)
      else []
    binOn := m.lv p WTE_BIN_CFG.EN == 1, complex := m.lv p WTE_BIN_CFG.FORMAT == 1, binDest := m.lv p WTE_BIN_CFG.DEST
    binFirst := m.lv p WTE_BIN_FIRST.FIRST, binCount := m.lv p WTE_BIN_COUNT.COUNT
    colOn := m.lv p WTE_COL_CFG.EN == 1, colDest := m.lv p WTE_COL_CFG.DEST, detector := m.lv p WTE_COL_CFG.DETECTOR
    colFirst := m.lv p WTE_COL_FIRST.FIRST, colBins := m.lv p WTE_COL_BINS.BINS
    colCount := m.lv p WTE_COL_COUNT.COUNT, config := m.rd p COMMIT_STATUS.APPLY_COUNT }

/-- N and the hop H of a grid (R159). -/
def WteCfg.size (c : WteCfg) : Nat := 2 ^ c.log2n
def WteCfg.hop (c : WteCfg) : Nat := c.size / 2 ^ c.overlap

/-- The first sample of the next frame of a grid. -/
def Grid.start (g : Grid) : Nat := g.anchor + g.frame * g.cfg.hop

/-- A new grid (R159, R160): the grids before it give up the frames that would start at its anchor or later, and a grid that has
none left is over. -/
def Module.newGrid (m : Module) (x anchor : Nat) (gap change : Bool) : Module :=
  if m.rd (pgWte x) CTRL.ENABLE = 1 then
    let w := m.wd x
    let old := (w.grids.map fun g => { g with stop := some (Nat.min (g.stop.getD anchor) anchor) }).filter fun g =>
      decide (g.start < g.stop.getD 0)
    (m.setWd x { w with grids := old ++ [⟨m.wteCfg x, anchor, 0, none, gap, change⟩] }).wr64 (pgWte x)
      WTE_ANCHOR_LO.ANCHOR WTE_ANCHOR_HI.ANCHOR (16 * anchor % 2 ^ 64)
  else m

/-- Delivery begins at a tick: a grid is anchored there (R159), SEQUENCE starts anew at a converter start (R173), and
every route delivers from the first stamp with whole support, with GAP (R184, R185). P12 blocks begin anew at the first sample;
samples of a block that a pause cut short are in no block (log entry 117). -/
def Module.deliveryStarts (m : Module) (x tick : Nat) (resumed : Bool) : Module :=
  let w := m.wd x
  let m := m.setWd x { w with
    seq := if resumed then w.seq else 0
    feed := { w.feed with endAt := none }
    gapRoute := w.gapRoute.merge ((w.subs.filter fun e => decide (0 < e.2)).map fun e => (e.1, 1)) }
  (m.newGrid x (tick * 16) resumed false).setCv x { m.cv x with nextIndex := tick * 16, p12Buf := [], p12Hold := [] }

/-- The start at the start tick (R109). -/
def Module.converterStarts (m : Module) (x tick : Nat) : Module :=
  let p := pgCnv x
  let m := m.setCv x { m.cv x with startTick := none, p12Seq := 0 }
  let m := (m.deliveryStarts x tick false).startTable x tick
  let m := m.wr64 p CNV_START_ACTUAL_LO.ACTUAL CNV_START_ACTUAL_HI.ACTUAL (tick64 tick)
  (m.wr p CNV_STATUS.RUN_STATE 2).raise p 10

/-- CONVERTER_START: the start tick of an ARMED converter. -/
def execConverterStart (x : Input) (s : State) : Host.Outcome State Fault Refusal :=
  .next (match (s.m.cv x).startTick with
    | some t => if s.m.runState x = 1 then s.onM fun m => m.converterStarts x t else s
    | none => s)

/-- How many of the frames still to come start before a sample. -/
def Grid.starts (g : Grid) (bound : Nat) : Nat := ceilDiv (bound - g.start) g.cfg.hop

/-- The grid when no sample after `last` is delivered (R161). -/
def Grid.cut (g : Grid) (last : Nat) : Grid :=
  { g with stop := some (Nat.min (g.stop.getD (last + 1)) (last + 2 - g.cfg.size)) }

/-- Frames of the grid that are abandoned when no sample after `last` is delivered. -/
def Grid.abandoned (g : Grid) (last : Nat) : Nat :=
  g.starts (Nat.min (g.stop.getD (last + 1)) (last + 1)) - g.starts ((g.cut last).stop.getD 0)

/-! ## Marks on their way to the bricks (R186) -/

/-- The clusters to which some sub-band of the input is routed, those that are owed a last message among them (R186, R187). -/
def Wide.clusters (w : Wide) : List Nat :=
  (List.range 16).filter fun c => (w.subs.any fun e => e.1 / 64 == c && decide (0 < e.2)) || w.ending.any fun e => e.1 / 64 == c

/-- A mark to a cluster, charged to the channeliser's activity (R188). -/
def Module.sendMark (m : Module) (x : Nat) (k : Mark) (c : Nat) : Module :=
  m.send ⟨4 + x, 8 + c, .evt, some (m.lv (pgChn x) ACTIVITY_ID.ACTIVITY), 16, [], true, .forward k⟩

/-- Forward a mark to every routed cluster (R186); a route that begins later takes those of its support (see `markRoute`). -/
def Module.forwardMark (m : Module) (x : Nat) (k : Mark) : Module :=
  let w := m.wd x
  w.clusters.foldl (fun m c => m.sendMark x k c) (m.setWd x { w with marks := w.marks ++ [k] })

/-- Append samples lo … hi: to the last run when they continue it, else as a new run. -/
def extendRun (l : List Span) (s : Span) : List Span :=
  match l.getLast? with
  | some r => if r.hi + 1 = s.lo then l.dropLast ++ [⟨r.lo, s.hi⟩] else l ++ [s]
  | none => [s]

/-- A run of lost samples is over: its samples are zero and count as delivered (R123, R161), and its DROP mark, with the first and
last missing index, goes to the routed clusters before any sub-band message that needs them (R186). -/
def Module.endLostRun (m : Module) (x : Nat) : Module :=
  let w := m.wd x
  match w.lostRun with
  | some s =>
    (m.setWd x { w with lostRun := none, feed := { w.feed with
        got := extendRun w.feed.got s, lost := w.feed.lost ++ [s], nextIdx := s.hi + 1 } }).forwardMark x (.drop s)
  | none => m

/-- Frames that would need a sample after `last` are abandoned (R161). -/
def Module.cutGrids (m : Module) (x last : Nat) : Module :=
  let p := pgWte x
  let w := m.wd x
  let lost := (w.grids.map fun g => g.abandoned last).sum
  let m := m.setWd x { w with grids := (w.grids.map fun g => g.cut last).filter fun g => decide (g.start < g.stop.getD 0) }
  if 0 < lost then (m.bump p WTE_ABANDONED.FRAMES lost).raise p 9 else m

/-- No further sample of the delivery exists after `last` (R161, R185). -/
def Module.deliveryEnds (m : Module) (x last : Nat) : Module :=
  let m := m.endLostRun x
  let w := m.wd x
  (m.setWd x { w with feed := { w.feed with endAt := some last } }).cutGrids x last

/-- An injected entry still pending when delivery ends is abandoned (R110). -/
def Module.abandonInjection (m : Module) (x : Nat) : Module :=
  let p := pgCnv x
  match (m.cv x).inj with
  | some i =>
    let m := ((m.setCv x { m.cv x with inj := none }).wr p CNV_INJECT_STATUS.STATE 0).injectRefused x
    if i.trigger then m
    else (m.wr p CNV_INJECT_STATUS.LAST_SW_REFUSED 1).wr p CNV_INJECT_STATUS.REFUSE_REASON 3
  | none => m

/-- An injected entry that a safe-stop cuts short is abandoned as a pending one is (R110, R461). -/
def Module.cutInjection (m : Module) (x : Nat) : Module :=
  let p := pgCnv x
  if (m.cv x).injected then
    let m := (((m.setCv x { m.cv x with injected := false }).wr p CNV_SCAN_STATUS.INJECTED 0).wr p CNV_INJECT_STATUS.STATE
      0).injectRefused x
    if m.rd p CNV_INJECT_STATUS.ORIGIN = 1 then m
    else (m.wr p CNV_INJECT_STATUS.LAST_SW_REFUSED 1).wr p CNV_INJECT_STATUS.REFUSE_REASON 3
  else m

/-- The converter enters STOPPED, RUN reads 0, and it powers down when ENABLE reads 0 (R110). -/
def Module.converterStops (m : Module) (x : Nat) : Module :=
  let m := if (m.cv x).injected then m.injectionDone x else m
  let m := (m.abandonInjection x).deliveryEnds x ((m.cv x).nextIndex - 1)
  let m := (m.setRun x 0).wr (pgCnv x) CNV_STATUS.RUN_STATE 0
  m.setCv x { m.cv x with
    stopping := false, startTick := none, preempt := none, restart := false
    powered := m.rd (pgCnv x) CTRL.ENABLE == 1 }

/-- CONVERTER_STOP: the boundary at which delivery ends. -/
def execConverterStop (x : Input) (s : State) : Host.Outcome State Fault Refusal :=
  .next (if s.m.runState x = 2 ∧ (s.m.cv x).stopping = true then s.onM fun m => m.converterStops x else s)

/-- A safe-stop is active (R461). -/
def Module.safeStopped (m : Module) : Bool := m.rd pgFlt FLT_SAFE_STOP.ACTIVE == 1

/-- An active safe-stop has reached the island. -/
def Module.safeAt (m : Module) (island : Nat) : Bool := m.safeStopped && m.flt.safe.contains island

/-- A write of CTRL.ENABLE (R110): 0 ends delivery at the next boundary, stops an ARMED converter at once, and powers a
STOPPED one down; 1 powers it, and rotation starts afresh (R136). -/
def Module.enableConverter (m : Module) (x : Nat) (on : Bool) : Module :=
  let p := pgCnv x
  if on then
    if m.safeAt x then m
    else
      let was := m.rd p CTRL.ENABLE
      let m := m.wr p CTRL.ENABLE 1
      m.setCv x { m.cv x with
        powered := true
        readyTick := if was = 1 then (m.cv x).readyTick else m.tick + 9900000 }
  else
    let m := m.wr p CTRL.ENABLE 0
    if m.runState x = 2 then m.setCv x { m.cv x with stopping := true }
    else if m.runState x = 3 then m.setCv x { m.cv x with cutStop := true }
    else
      let m := if m.runState x = 1 then (m.setRun x 0).wr p CNV_STATUS.RUN_STATE 0 else m
      m.setCv x { m.cv x with powered := false, startTick := none }

/-- CNV_ENABLE_WRITE. -/
def State.takeCnvEnableWrite (s : State) (x : Input) (enable : Bool) : State :=
  (s.onM fun m => if enable && m.gated (pgCnv x) then m else m.enableConverter x enable)

/-- The command: a write that does this. -/
def execCnvEnableWrite (r : Requester) (x : Input) (enable : Bool) (s : State) : Host.Outcome State Fault Refusal :=
  .next (s.via (.cnvEnableWrite r x enable) r (pgCnv x) fun s => s.takeCnvEnableWrite x enable)

/-! ## Digital correction (R94–R101) -/

/-- Tap t of the FACTORY set in force for an attenuation state (R95, R128): the identity bank where the table is missing (R96);
the factory table convolved with the response correction of the input, tap 32 its centre, rounded to Q2.16 to the nearest, ties
away from zero, and not limited to 18 bits (log entry 118). -/
def Module.factorySet (m : Module) (x atten t : Nat) : Int :=
  if (m.cv x).eqTable.get 0 atten ≠ 0 then (if t = 32 then 65536 else 0)
  else if (m.cv x).corr = [] then Config.factoryTap x atten t
  else
    roundAway ((List.range 64).foldl (fun acc u =>
      if u ≤ t + 32 ∧ t + 32 - u < 64 then acc + Config.factoryTap x atten u * (m.cv x).corr.getD (t + 32 - u) 0
      else acc) 0) 65536

/-- The taps in force for an attenuation state: the USER bank or the FACTORY set (R95). -/
def Module.tap (m : Module) (x atten t : Nat) : Int :=
  if m.lv (pgCnv x) CNV_EQ_CTRL.MODE = 1 then toSigned 18 (m.lv (pgCnv x) CNV_EQ_DATA.COEFF (atten * 64 + t))
  else m.factorySet x atten t

/-- The exact sum of R94 in units of 2^-34 LSB, over the taps for which `use` holds, with the offset or without. -/
def correctionSum (taps : List Int) (gain offset : Int) (window : List RawSample) (use : RawSample → Bool) : Int :=
  (taps.zip window).foldl (fun acc p => if use p.2 then acc + p.1 * gain * (16 * p.2.code + offset) else acc) 0

/-- The corrected value and its over-range flag (R94, R97). `bypass` takes tap 32 alone, with weight 1; with the equaliser every
sample of the window has contributed, one under a tap of zero too (log entry 119). -/
def correctSample (bypass : Bool) (taps : List Int) (gain offset : Int) (window : List RawSample) : Int × Bool :=
  let taps := if bypass then (List.range 64).map fun t => if t = 32 then (65536 : Int) else 0 else taps
  let used := fun (t : Nat) => !bypass || t == 32
  let e := roundAway (correctionSum taps gain offset window fun _ => true) (2 ^ 34)
  let sat := ((List.range window.length).zip window).any fun p => used p.1 && p.2.sat
  let out := decide (e < -2048) || decide (2047 < e)
  let sum := correctionSum taps gain 0 window fun r => r.sat
  let sign : Int := if out then e else if sum ≠ 0 then sum else e
  if out || sat then (if sign < 0 then (-2048, true) else (2047, true)) else (e, false)

/-- The entry in force at a sample. -/
def entryAt (l : List EntryInfo) (n : Nat) : Option EntryInfo := (l.filter fun i => decide (i.index ≤ n)).getLast?

/-- Corrected samples n, n + 1, … of a message (R94, R104). -/
def Module.correctRun (m : Module) (x : Nat) : Nat → List RawSample → Nat → List CSample
  | _, _, 0 => []
  | n, raw, k + 1 =>
    let c := m.cv x
    let p := pgCnv x
    let info := entryAt c.entries n
    let atten := match info with
      | some i => i.atten
      | none => c.atten
    let bypass := m.lv p CNV_EQ_CTRL.MODE == 2
    let taps := if bypass then [] else (List.range 64).map (m.tap x atten)
    let (v, o) := correctSample bypass taps (toSigned 16 (m.lv p CNV_GAIN.GAIN)) (toSigned 16 (m.lv p CNV_OFFSET.OFFSET))
      (raw.take 64)
    let start := match info with
      | some i => i.index == n
      | none => false
    ⟨v, o, start⟩ :: m.correctRun x (n + 1) (raw.drop 1) k

/-- Count the over-range samples and onsets of a message (R100): the last over-range sample, the counts, the last onset,
and the flagged intervals (R101). -/
def countOver : Nat → List CSample → Option Nat → Nat → Nat → Option Nat → List Span →
    Option Nat × Nat × Nat × Option Nat × List Span
  | _, [], last, n, runs, onset, sp => (last, n, runs, onset, sp)
  | i, s :: l, last, n, runs, onset, sp =>
    if s.ovr then
      let fresh := match last with
        | some k => decide (k + 64 < i)
        | none => true
      countOver (i + 1) l (some i) (n + 1) (if fresh then runs + 1 else runs) (if fresh then some i else onset)
        (sp ++ [⟨i, i + 64⟩])
    else countOver (i + 1) l last n runs onset sp

/-- The corrected samples that a flagged interval taints (R102): [a − 31, b + 32] with the equaliser, [a, b] without. -/
def taintOf (bypass : Bool) (s : Span) : Span := if bypass then s else ⟨s.lo - 31, s.hi + 32⟩

/-- Traffic of a converter is charged to its page's ACTIVITY. -/
def Module.cnvAct (m : Module) (x : Nat) : Option Nat := some (m.lv (pgCnv x) ACTIVITY_ID.ACTIVITY)

/-- The raw messages of R122, while the course asks for them: the C16 samples of this message, or the P12 blocks that are complete
(8 a message). The grid of P12 blocks and SEQUENCE run from the start on, asked for or not (R105). -/
def Module.sendRaw (m : Module) (x : Nat) (msg : SampleMsg) : Module :=
  let c := m.cv x
  let wanted := fun (f : Nat) => c.rawOn && m.lv (pgCnv x) CNV_FORMAT.RAW_FMT == f
  let buf := c.p12Buf ++ msg.samples
  let hold := c.p12Hold ++ msg.holdover
  let whole := decide (1344 ≤ buf.length)
  let first := msg.first + msg.samples.length - buf.length
  let out : SampleMsg := { msg with
    p12 := true, block := c.p12Seq, first := first, samples := buf.take 1344, holdover := hold
    entries := (entryAt c.entries first).toList ++ c.entries.filter fun i => decide (first < i.index) && decide (i.index < first + 1344) }
  let m := if wanted 0 then m.send ⟨x, 24 + x, .dat, m.cnvAct x, 2 * msg.samples.length, [], true, .rawSamples msg⟩ else m
  let m := if wanted 1 && whole then m.send ⟨x, 24 + x, .dat, m.cnvAct x, 2048, [], true, .rawSamples out⟩ else m
  let left := if whole then buf.drop 1344 else buf
  let from_ := msg.first + msg.samples.length - left.length
  m.setCv x { c with
    p12Buf := left, p12Seq := if whole then c.p12Seq + 8 else c.p12Seq
    p12Hold := hold.filter fun s => decide (from_ ≤ s.hi)
    entries := (entryAt c.entries from_).toList ++ c.entries.filter fun i => decide (from_ < i.index) }

/-- SAMPLE_MESSAGE (R122): the samples x(n0 − 32) to x(n0 + count − 1 + 62) become `count` corrected samples; the 31 after them show
what taints the last ones (R102). -/
def execSampleMessage (x : Input) (raw : List RawSample) (s : State) : Host.Outcome State Fault Refusal :=
  .next (if s.m.runState x = 2 ∧ 95 ≤ raw.length then
    s.onM fun m =>
      let p := pgCnv x
      let c := m.cv x
      let count := raw.length - 94
      let n := c.nextIndex
      let all := m.correctRun x n raw (count + 31)
      let out := all.take count
      let (last, hits, runs, onset, spans) := countOver n out c.lastOvr 0 0 none []
      let (_, _, _, _, ahead) := countOver (n + count) (all.drop count) last 0 0 none []
      let m := m.step64 p CNV_OVR_COUNT_LO.COUNT CNV_OVR_COUNT_HI.COUNT hits
      let m := match onset with
        | some k => ((m.bump p CNV_OVR_RUNS.RUNS runs).wr64 p CNV_OVR_LAST_LO.LAST CNV_OVR_LAST_HI.LAST
            (16 * k % 2 ^ 64)).raise p 8
        | none => m
      let lim := match c.limFrom with
        | some a => [⟨a, n + count + 30⟩]
        | none => []
      let flagged := c.flagged ++ spans
      let bypass := m.lv p CNV_EQ_CTRL.MODE == 2
      let first := match entryAt c.entries n with
        | some i => [i]
        | none => []
      let msg : SampleMsg := {
        seq := c.msgSeq, p12 := false, block := 0, first := n, samples := out
        entries := first ++ c.entries.filter fun i => decide (n < i.index) && decide (i.index < n + count)
        tainted := (flagged ++ ahead ++ lim).map (taintOf bypass)
        holdover := if m.holdover x [0, 5, x.val + 1] then [⟨n, n + count - 1⟩] else [] }
      let m := m.setCv x { c with
        lastOvr := last, nextIndex := n + count, msgSeq := c.msgSeq + 1, startFlag := false
        flagged := flagged.filter fun f => decide (n + count ≤ f.hi + 64) }
      let m := m.send ⟨x, 4 + x.val, .dat, m.cnvAct x, 2 * count, [], true, .samples msg⟩
      (m.sendRaw x msg).addWork x count
  else s)

/-! ## The commit of CNV -/

/-- The checks of a CNV snapshot (R107, R111, R114 and the register table). -/
def checkCnv (m : Module) (x : Nat) (snap : Store Nat) : List Bad :=
  let p := pgCnv x
  let g := fun (f : Fld) (b : Nat) => snapGet snap p f b
  let run := g CNV_RUN.RUN 0 == 1
  let len := g CNV_SCAN_CTRL.LENGTH 0
  let used := List.range (Nat.min len 64)
  chk (run && (m.cv x).failed) 0x040 0x82
  ++ chk (run && m.rd p CTRL.ENABLE == 0) 0x040 0x81
  ++ chk (g CNV_RUN.START_SRC 0 == 0 && g CNV_START_AT_LO.START_AT 0 % 2 ^ 20 != 0) 0x040 2
  ++ chk (len == 0) 0x058 1 ++ chk (decide (64 < len)) 0x058 2
  ++ chk (decide (len ≤ g CNV_SCAN_CTRL.START_ENTRY 0)) 0x058 2
  ++ chk (len != 0 && used.all fun e => g CNV_SCAN_TIME.REPEAT e == 0) 0x058 0x80
  ++ used.flatMap (fun e => chk (decide (5 ≤ g CNV_SCAN_CFG.SOURCE e)) 0x060 2 e)
  ++ used.flatMap (fun e => chk (g CNV_SCAN_TIME.SETTLE e == 0) 0x064 1 e)
  ++ chk (decide (5 ≤ g CNV_INJ_TRG_CFG.SOURCE 0)) 0x07C 2 ++ chk (g CNV_INJ_TRG_TIME.SETTLE 0 == 0) 0x080 1
  ++ chk (decide (toSigned 16 (g CNV_GAIN.GAIN 0) ≤ 0)) 0x098 2 ++ chk (g CNV_EQ_CTRL.MODE 0 == 3) 0x09C 2

/-- Two configurations hold the same scan table (R116). -/
def sameTable (a b : Module) (x : Nat) : Bool :=
  let p := pgCnv x
  a.lv p CNV_SCAN_CTRL.LENGTH == b.lv p CNV_SCAN_CTRL.LENGTH
  && a.lv p CNV_SCAN_CTRL.START_ENTRY == b.lv p CNV_SCAN_CTRL.START_ENTRY
  && (a.reg.live.window (fieldKey p CNV_SCAN_CFG.SOURCE 0) (fieldKey p ⟨0x068, 0, 0, 0⟩ 0)
    == b.reg.live.window (fieldKey p CNV_SCAN_CFG.SOURCE 0) (fieldKey p ⟨0x068, 0, 0, 0⟩ 0))

/-- The first frame boundary of the entry in force at or after the present tick. -/
def Conv.boundaryFrom (c : Conv) (t : Nat) : Nat := c.boundary (Nat.min (c.boundaryNo (t - 1)) c.frames)

/-- The effects of a CNV commit point (R107, R110, R116, R120). `before` is the module before the live values changed. -/
def Module.appliedCnv (m before : Module) (x : Nat) (wrote : List Nat) : Module :=
  let p := pgCnv x
  let st := m.runState x
  let run := m.lv p CNV_RUN.RUN
  let same := sameTable before m x
  let delivering := st = 2 ∨ (st = 3 ∧ (m.cv x).before = 2 ∧ (m.cv x).cutStop = false)
  if run = 0 then
    if st = 1 then (m.wr p CNV_STATUS.RUN_STATE 0).setCv x { m.cv x with startTick := none }
    else if st = 2 then m.setCv x { m.cv x with stopping := true }
    else if st = 3 then m.setCv x { m.cv x with cutStop := true }
    else m
  else if delivering then
    if same then m
    else if st = 3 then m.setCv x { m.cv x with tableNew := true }
    else if (m.cv x).injected ∨ (m.cv x).inj ≠ none then m.setCv x { m.cv x with restart := true }
    else m.startTable x ((m.cv x).boundaryFrom m.tick)
  else if wrote.any fun o => o == 0x040 || o == 0x044 || o == 0x048 then m.armConverter x
  else m

end Sys2Proof.Machine
end

