-- ==== Sys2Proof/Machine/Calib.lean ====
section
/-! DEFINITION. Calibration and trimming (spec/04): the rotation, foreground runs, and the calibration store. -/

namespace Sys2Proof.Machine

/-! ## Substitutions and the ledger -/

/-- A cause of MALERT_N (R443). -/
def Module.alert (m : Module) (b : Nat) : Module := m.wr pgMgt MGT_ALERT.CAUSE (m.rd pgMgt MGT_ALERT.CAUSE ||| 2 ^ b)

/-- The request of the management controller ends with a RESULT (R446). -/
def Module.substResult (m : Module) (result : Nat) : Module :=
  ({ m with safety.request := none } : Module).wr pgMgt MGT_SUBST_STATUS.RESULT result |>.alert 4

/-- The bytes of a ledger entry before its CRC (R54). -/
def LedgerEntry.body (e : LedgerEntry) (seq : Nat) : List Byte :=
  leBytes 4 seq ++ leBytes 8 e.time ++ leBytes 4 e.wall ++ leBytes 1 e.kind ++ leBytes 1 e.reason
    ++ leBytes 2 e.logical ++ leBytes 2 e.out ++ leBytes 2 e.inn ++ leBytes 4 e.syndrome

/-- The bytes of a ledger entry (R54). -/
def LedgerEntry.bytes (e : LedgerEntry) (seq : Nat) : List Byte := e.body seq ++ leBytes 4 e.crc

/-- An entry as it is written to flash: with its CRC. -/
def LedgerEntry.sealed (e : LedgerEntry) (seq : Nat) : LedgerEntry := { e with crc := crc32c (e.body seq) }

/-- The CRC of an entry in flash matches (R54, Caution). -/
def LedgerEntry.sound (e : LedgerEntry) (seq : Nat) : Bool := e.crc == crc32c (e.body seq)

/-- A substitution is recorded for the ledger (R52): LEDGER_APPEND writes it. One that the management controller has
requested carries REASON MGT_REQUEST and ends the request (R446). SYNDROME is that of the first-fault record of the source
whose unit is replaced, where there is one (R54). -/
def Module.recordSubst (m : Module) (kind reason logical out inn : Nat) (source : Option Nat) : Module :=
  let asked := m.safety.request == some (kind, logical)
  let synd := (source.map fun n => if m.rd pgFlt FLT_SRC_STATE.LATCHED n = 1 then m.rd pgFlt FLT_REC_SYND.SYNDROME n else 0).getD 0
  let m := { m with safety.unsaved := m.safety.unsaved ++
      [⟨m.now, m.rd pgSaf SAF_WALL.SECONDS, kind, if asked then 3 else reason, logical, out, inn, synd, 0⟩] }
  if asked then m.substResult 1 else m

/-- After a completed substitution the source's bucket returns to 0 and SEVERE clears (R454). -/
def Module.clearSevere (m : Module) (source : Nat) : Module :=
  (m.wr pgFlt FLT_SRC_STATE.BUCKET 0 source).wr pgFlt FLT_SRC_STATE.SEVERE 0 source

/-- SPARE_EXHAUSTED of a kind and a logical unit (R49, R452). -/
def Module.spareExhausted (m : Module) (island kind logical : Nat) : Module :=
  m.reportWith island 14 (kind * 16777216 + logical)

/-! ## The rotation (R129–R137) -/

def Module.slice (m : Module) (x p : Nat) : Slice := (m.cv x).slices.get (Slice.factory p) p
def Module.setSlice (m : Module) (x p : Nat) (v : Slice) : Module :=
  m.setCv x { m.cv x with slices := (m.cv x).slices.set (Slice.factory p) p v }

/-- The physical slice at a position. -/
def Module.sliceAt (m : Module) (x pos : Nat) : Option Nat := (List.range 68).find? fun p => (m.slice x p).pos == pos

/-- The positions of an input: 64 lanes and the spares left (R129). -/
def Module.positions (m : Module) (x : Nat) : Nat := 64 + m.rd (pgCnv x) CNV_SLICE_STATUS.SPARES_LEFT

/-- The background settings that the CAL page holds for an input; they come into force at its next step tick (R156). -/
def Module.bgLive (m : Module) (x : Nat) : BgCfg :=
  ⟨bit (m.lv pgCal CAL_BG_CTRL.BG_EN) x, m.lv pgCal CAL_BG_CTRL.CALCHG_ON_SWAP == 1, m.lv pgCal CAL_BG_MATCH.OFS_TOL,
    m.lv pgCal CAL_BG_MATCH.GAIN_TOL, m.lv pgCal CAL_BG_MATCH.SKEW_TOL⟩

/-- Rotation is not suspended (R136). -/
def Module.rotates (m : Module) (x : Nat) : Bool :=
  (m.cv x).bg.en && m.rd (pgCnv x) CTRL.ENABLE == 1 && m.runState x != 3
  && m.rd (pgCnv x) CNV_SLICE_STATUS.ROTATION_STOPPED == 0

/-- The step tick at or before the present one (R130), where the count has had one. -/
def Module.stepTick (m : Module) (x : Nat) : Option Nat :=
  let r := m.tick % 2 ^ 56
  if m.clk.counting && decide (2500000 * x ≤ r) then
    some (m.tick - r + (2500000 * x + (r - 2500000 * x) / 10000000 * 10000000))
  else none

/-- The position of the next step: ascending, then 0 again (R129). -/
def Module.nextPosition (m : Module) (x : Nat) : Nat :=
  if m.positions x ≤ (m.cv x).position + 1 then 0 else (m.cv x).position + 1

/-- A difference of the match lies outside its tolerance (R133). -/
def BgCfg.large (b : BgCfg) (ofs gain : Int) (skew : Option Int) : Bool :=
  decide (b.ofs < ofs.natAbs) || decide (b.gain < gain.natAbs) || (skew.map fun k => decide (b.skew < k.natAbs)).getD false

/-- A calibration report that names a slice counts on the slice's source too (R452). -/
def Module.reportSlice (m : Module) (x p : Nat) : Module := (m.report x (292 + x)).report x (16 + 68 * x + p)

/-- SHADOW_MATCH (R133): on a lane position, the differences are kept for the swap; beyond tolerance the swap is
STEP_LARGE and CAL_SLICE_DRIFT is reported against the outgoing slice. -/
def execShadowMatch (x : Input) (ofs gain : Int) (skew : Option Int) (s : State) : Host.Outcome State Fault Refusal :=
  .next (if s.m.rotates x = true ∧ s.m.nextPosition x < 64 then
    s.onM fun m =>
      let out := (m.sliceAt x (m.nextPosition x)).getD 0
      let large := (m.cv x).bg.large ofs gain skew
      let m1 := m.setCv x { m.cv x with matched := some (ofs, gain, skew, large) }
      if large then ((m1.bump pgCal CAL_BG_LAST.STEP_LARGE_COUNT 1 x).raise pgCal 10).reportSlice x out else m1
  else s)

/-- A deferred step (R132). -/
def Module.deferStep (m : Module) (x : Nat) (f : Fld) : Module := (m.bump pgCal f 1 x).raise pgCal 13

/-- The exchange at a step tick (R129, R131, R134); reference calibration of the incoming slice ended 0.1 ms before it was
ready (R132). -/
def Module.exchange (m : Module) (x t : Nat) (trim : Trim) : Module :=
  let c := m.cv x
  let pos := m.nextPosition x
  let out := (m.sliceAt x pos).getD 0
  let inn := c.calSlice
  let m := (m.setSlice x inn ⟨pos, trim, m.clk.ticks - (m.tick - (c.readyTick - 200000))⟩).setSlice x out
    { m.slice x out with pos := 126 }
  let m := m.setCv x { m.cv x with
    calSlice := out, position := pos, readyTick := t + 9900000, matched := none, jumped := false }
  let m := (m.bump pgCal CAL_BG_STEPS.STEPS 1 x).wr pgCal CAL_BG_LAST.PHYS_OUT out x
  let m := (m.wr pgCal CAL_BG_LAST.PHYS_IN inn x).wr pgCal CAL_BG_LAST.POSITION pos x
  if pos < 64 then
    let time := 16 * (16 * t + pos) % 2 ^ 64
    let (ofs, gain, skew, large) := c.matched.getD (0, 0, none, false)
    let info : SwapInfo := ⟨time, pos, out, inn, ofs, gain, skew, large, large || c.bg.calchg⟩
    let m := m.wr64 pgCal CAL_BG_LAST_TIME_LO.TIME CAL_BG_LAST_TIME_HI.TIME time x
    (m.send ⟨x, 4 + x, .evt, m.cnvAct x, 16, [], true, .swapMark info⟩).send
      ⟨x, 24 + x, .evt, m.cnvAct x, 16, [], true, .swapMark info⟩
  else m

/-- The settings of a step tick come into force (R156); where they end a suspension, the slice in calibration starts again
(R136). -/
def Module.takeBg (m : Module) (x t : Nat) : Module :=
  let c := m.cv x
  let b := m.bgLive x
  m.setCv x { c with bg := b, readyTick := if b.en && !c.bg.en then t + 9900000 else c.readyTick }

/-- ROTATION_STEP (R131, R132): a step tick of the input; not ready after a jump of TIME64, or a trim at its range
limit, defers the step. After a suspension no step falls before the slice is ready (R136). -/
def execRotationStep (x : Input) (trim : Trim) (rangeLimit : Bool) (s : State) : Host.Outcome State Fault Refusal :=
  .next (match s.m.stepTick x with
    | some t => s.onM fun m =>
      let m := m.takeBg x t
      let c := m.cv x
      if m.rotates x = false then m
      else if t < c.readyTick then (if c.jumped then m.deferStep x CAL_BG_DEFERS.SHORT_DEFERS else m)
      else if rangeLimit then
        let m := m.setCv x { c with readyTick := t + 9900000, jumped := false }
        (m.deferStep x CAL_BG_DEFERS.CAL_FAIL_DEFERS).reportSlice x c.calSlice
      else m.exchange x t trim
    | none => s)

/-- SWAP_MARK (R134): at the channeliser island the mark enters the feed and is forwarded; at the course island it joins
the marks of the course. -/
def execSwapMark (x : Input) (course : Bool) (s : State) : Host.Outcome State Fault Refusal :=
  let dst := if course then 24 + x.val else 4 + x.val
  .next (match s.m.arrival x dst with
    | some (.swapMark i) =>
      s.onM fun m =>
        let m := m.takeArrival x dst
        if course then
          let cs := m.course.get CourseSt.init x
          { m with course := m.course.set CourseSt.init x { cs with marks := cs.marks ++ [.swap i] } }
        else
          let w := m.wd x
          (m.setWd x { w with feed := { w.feed with swaps := w.feed.swaps ++ [i] } }).forwardMark x (.swap i)
    | _ => s)

/-- ENTRY_MARK (R115): the entry mark at the head of X → 24 + X joins the marks of the course. -/
def execEntryMark (x : Input) (s : State) : Host.Outcome State Fault Refusal :=
  .next (match s.m.arrival x (24 + x.val) with
    | some (.entryMark i) =>
      s.onM fun m =>
        let m := m.takeArrival x (24 + x.val)
        let cs := m.course.get CourseSt.init x
        { m with course := m.course.set CourseSt.init x { cs with marks := cs.marks ++ [.entry i] } }
    | _ => s)

/-- CONVERTER_FAILED (R93): delivery ends at the next frame boundary, an ARMED converter stops at once. -/
def Module.converterFails (m : Module) (x : Nat) : Module :=
  let c := m.cv x
  let m := m.setCv x { c with
    failed := true, stopping := c.stopping || m.runState x == 2, cutStop := c.cutStop || m.runState x == 3 }
  let m := if m.runState x = 1 then (m.setRun x 0).wr (pgCnv x) CNV_STATUS.RUN_STATE 0 else m
  m.report x (288 + x)

/-- A slice takes the place of a severe one (R52, R92, R137, R454). -/
def Module.sliceSubstituted (m : Module) (x out inn lane : Nat) : Module :=
  (((m.wr (pgCnv x) STATUS.SPARE_IN_USE 1).raise (pgCnv x) 15).recordSubst 1 1 (64 * x + lane) out inn
    (some (16 + 68 * x + out))).clearSevere (16 + 68 * x + out)

/-- One position fewer, the highest (R129, R137). -/
def Module.fewerPositions (m : Module) (x : Nat) : Module :=
  let spares := m.rd (pgCnv x) CNV_SLICE_STATUS.SPARES_LEFT
  let m := m.wr (pgCnv x) CNV_SLICE_STATUS.SPARES_LEFT (spares - 1)
  if 63 + spares ≤ (m.cv x).position then m.setCv x { m.cv x with position := 62 + spares } else m

/-- The substitution of a severe slice (R92, R93, R137). The spare of the highest position takes its lane; with no spare left the
slice in calibration takes it for good, and rotation stops; once it has stopped, the converter has failed. A severe slice that a
step has just put into calibration gives its place there to the spare, and without one it only leaves (log entry 120). -/
def Module.substituteSlice (m : Module) (x out : Nat) : Module :=
  let p := pgCnv x
  let old := m.slice x out
  let spares := m.rd p CNV_SLICE_STATUS.SPARES_LEFT
  if m.rd p CNV_SLICE_STATUS.ROTATION_STOPPED = 1 then m.converterFails x
  else
    let m := m.setSlice x out { old with pos := 127 }
    let lane := if old.pos = 126 then (m.cv x).position else old.pos
    let inn := if 0 < spares then (m.sliceAt x (63 + spares)).getD 0 else (m.cv x).calSlice
    if old.pos = 126 ∧ spares = 0 then (m.wr p CNV_SLICE_STATUS.ROTATION_STOPPED 1).spareExhausted x 1 (64 * x + lane)
    else
      let m := m.setSlice x inn { m.slice x inn with pos := old.pos }
      let m := if old.pos = 126 then m.setCv x { m.cv x with calSlice := inn, readyTick := m.tick + 9900000 } else m
      let m := m.sliceSubstituted x out inn lane
      if 0 < spares then m.fewerPositions x
      else (m.wr p CNV_SLICE_STATUS.ROTATION_STOPPED 1).spareExhausted x 1 (64 * x + lane)

/-- SLICE_SUBSTITUTION (R137): at a tick boundary that is no step tick of the input. -/
def execSliceSubstitution (x : Input) (s : State) : Host.Outcome State Fault Refusal :=
  .next (match (s.m.cv x).substDue with
    | (out, _) :: rest =>
      if s.m.stepTick x = some s.m.tick then s
      else s.onM fun m => (m.setCv x { m.cv x with substDue := rest }).substituteSlice x out
    | [] => s)

/-- A severe slice of input x (R92, R93): a live one waits for its sample boundary; one that comes after the slice in
calibration has taken a lane fails the converter. -/
def Module.sliceOrder (m : Module) (x p syndrome : Nat) : Module :=
  let c := m.cv x
  if 64 ≤ (m.slice x p).pos || c.failed then m
  else if m.rd (pgCnv x) CNV_SLICE_STATUS.ROTATION_STOPPED = 0 then
    m.setCv x { c with substDue := c.substDue ++ [(p, syndrome)] }
  else m.converterFails x

/-! ## Foreground calibration (R138–R147) -/

/-- A run enters a step: the converter reports it over X → 56 (R138). -/
def Module.enterStep (m : Module) (x step : Nat) : Module :=
  (m.setCv x { m.cv x with step := step, stepAt := m.clk.ticks }).postMgt x 56 .evt (.calStep x step)

/-- The limit of a step in ticks (R142). -/
def stepLimit (step : Nat) : Nat :=
  if step = 2 ∨ step = 3 then 2000000 else if step = 4 then 5000000000 else if step = 5 then 2000000000
  else if step = 6 then 800000000 else 3000000000

/-- The step in force has reached its own limit, and the run that of FULL_MS (R142). -/
def Conv.stepOver (c : Conv) (now : Nat) : Bool := decide (2 ≤ c.step) && decide (stepLimit c.step ≤ now - c.stepAt)
def Conv.runOver (c : Conv) (now : Nat) : Bool := decide (2 ≤ c.step) && decide (c.fullTicks ≤ now - c.fgStart)

/-- A run ends without a result: LAST_RESULT and REASON, the FAILED count, FG_FAILED, and one event of the input's
calibration source. A paused input resumes under R146, and its run keeps its step until then (log entry 121). -/
def Module.calFails (m : Module) (x result reason : Nat) : Module :=
  let m := ((m.wr pgCal CAL_FG_STATUS.LAST_RESULT result x).wr pgCal CAL_FG_STATUS.REASON reason x)
  let m := m.bump pgCal CAL_FG_COUNTS.FAILED 1 x
  let c := m.cv x
  let m := m.setCv x { c with passed := false, result := none, stored := false }
  let m :=
    if m.runState x = 3 then m.setCv x { m.cv x with ended := true, resumeAt := nextMultiple (m.tick + 4096) 4096 }
    else
      (m.setCv x { m.cv x with powered := (m.cv x).powered && !(m.cv x).startupRun, startupRun := false }).enterStep x 0
  (m.raise pgCal 9).report x (292 + x)

/-- A run is accepted: QUEUED (R138). -/
def Module.queueRun (m : Module) (x src : Nat) : Module :=
  let c := m.cv x
  ((m.wr pgCal CAL_FG_STATUS.STEP 1 x).setCv x { c with
      step := 1, fgTick := m.clk.ticks, startupRun := src == 57, powered := c.powered || src == 57 }).postMgt src x .req
    (.calRequest x)

/-- A request for one input (R138). -/
def Module.calRequest (m : Module) (x : Nat) : Module :=
  let refuse := fun (why : Nat) =>
    (m.wr pgCal CAL_FG_STATUS.LAST_RESULT 6 x).wr pgCal CAL_FG_STATUS.REASON why x
  if m.calShown x then refuse 1
  else if m.rd (pgCnv x) CTRL.ENABLE = 0 then refuse 2
  else if (m.cv x).failed then refuse 3
  else m.queueRun x 56

/-- CAL_FG_GO. -/
def State.takeCalFgGo (s : State) (inputs : BitVec 4) : State :=
  (s.onM fun m => [0, 1, 2, 3].foldl (fun m x => if bit inputs.toNat x then m.calRequest x else m) m)

/-- The command: a write that does this. -/
def execCalFgGo (r : Requester) (inputs : BitVec 4) (s : State) : Host.Outcome State Fault Refusal :=
  .next (s.via (.calFgGo r inputs) r pgCal fun s => s.takeCalFgGo inputs)

/-- The request of a run has not reached its converter yet. -/
def Module.calAsked (m : Module) (x : Nat) : Bool := m.net.transit.any fun e => e.body == .calRequest x

/-- PRECHECK_START (R139): the queued run begins once no injected entry is pending or running. -/
def execPrecheckStart (x : Input) (s : State) : Host.Outcome State Fault Refusal :=
  .next (if (s.m.cv x).step = 1 ∧ s.m.calAsked x = false ∧ s.m.rd (pgCnv x) CNV_INJECT_STATUS.STATE = 0 then
    s.onM fun m =>
      let c := m.cv x
      let m := m.wr pgCal CAL_START_LAT.TICKS (m.clk.ticks - c.fgTick) x
      let m := m.setCv x { c with
        fgStart := m.clk.ticks, fullTicks := 2000000 * m.lv pgCal CAL_FG_TIMEOUT.FULL_MS, ended := false, unlocked := false
        quiet := 0, passed := false, rfLeak := false, result := none, stored := false }
      m.enterStep x 2
  else s)

/-- The end of PRECHECK without a pass: the first failing condition in the order RF_POWER, LIMITER, NOT_LOCKED (R140). -/
def Module.precheckFails (m : Module) (x : Nat) : Module :=
  m.calFails x 2 (if (m.cv x).quiet < 16 then 1 else if m.rd (pgCnv x) CNV_LIMITER.ACTIVE = 1 then 2 else 3)

/-- PRECHECK_TIMEOUT (R140): 1 ms without a pass. -/
def execPrecheckTimeout (x : Input) (s : State) : Host.Outcome State Fault Refusal :=
  .next (if (s.m.cv x).step = 2 ∧ (s.m.cv x).passed = false ∧ (s.m.cv x).stepOver s.m.clk.ticks = true then
    s.onM fun m => m.precheckFails x
  else s)

/-- CAL_PAUSE (R141): at the frame boundary after the pass, or at once when not RUNNING. -/
def execCalPause (x : Input) (s : State) : Host.Outcome State Fault Refusal :=
  .next (if (s.m.cv x).step = 2 ∧ (s.m.cv x).passed = true then
    s.onM fun m =>
      let c := m.cv x
      let st := m.runState x
      let f := Nat.min (c.boundaryNo (m.tick - 1)) c.frames
      let m := m.setCv x { c with
        before := st, cutStop := c.stopping, stopping := false, tableNew := false
        pauseTemp := toSigned 16 (m.rd pgSaf SAF_TEMP.NOW x)
        pauseLeft := if st = 2 then some (c.entry, c.frames - f) else none, rfLeak := false }
      let m := if st = 2 then m.deliveryEnds x (c.nextIndex - 1) else m
      let m := (m.wr (pgCnv x) CNV_STATUS.RUN_STATE 3).enterStep x 3
      (m.send ⟨x, 4 + x.val, .evt, m.cnvAct x, 16, [], true, .calPause c.nextIndex⟩).send
        ⟨x, 24 + x.val, .evt, m.cnvAct x, 16, [], true, .calPause c.nextIndex⟩
  else s)

/-- The first REASON of R143 that fails, 0 when the result is accepted. -/
def residualReason (r : CalResult) (c : Conv) (temp : Int) : Nat :=
  if 16 < r.offset64.natAbs then 1
  else if 20 < r.gainErr.natAbs then 2
  else if -18432 < r.spur then 3
  else if c.rfLeak then 4
  else if c.unlocked then 5
  else if 512 < (temp - c.pauseTemp).natAbs then 6
  else 0

/-- CAL_STEP_DONE (R142, R143): ISOLATE, SLICES, EQUALISER, RESIDUAL in order, each within its limit; an accepted RESIDUAL asks
for the store over X → 57. -/
def execCalStepDone (x : Input) (res : CalResult) (s : State) : Host.Outcome State Fault Refusal :=
  let c := s.m.cv x
  .next (if 3 ≤ c.step ∧ c.step ≤ 6 ∧ c.ended = false ∧ c.stepOver s.m.clk.ticks = false ∧ c.runOver s.m.clk.ticks = false then
    s.onM fun m =>
      if c.step = 6 then
        let sat := fun (i : Int) => ofSigned 16 (max (-32768) (min 32767 i))
        let m := (m.wr pgCal CAL_RESID_LEVEL.SPUR (sat res.spur) x).wr pgCal CAL_RESID_LEVEL.GAIN_ERR (sat res.gainErr) x
        let m := m.wr pgCal CAL_RESID_OFS.OFFSET (sat res.offset64) x
        let why := residualReason res c (toSigned 16 (m.rd pgSaf SAF_TEMP.NOW x))
        if why = 0 then (m.enterStep x 7).postMgt x 57 .req (.storeRequest x) else m.calFails x 3 why
      else
        let m := m.enterStep x (c.step + 1)
        if c.step = 4 then m.setCv x { m.cv x with result := some { res with taps := [] } }
        else if c.step = 5 then m.setCv x { m.cv x with result := c.result.map fun r => { r with taps := res.taps } }
        else m
  else s)

/-! ## The store (R147–R152) -/

def Module.slot (m : Module) (k : Nat) : CalSlot := m.safety.slots.get CalSlot.blank k
def Module.setSlot (m : Module) (k : Nat) (v : CalSlot) : Module :=
  { m with safety.slots := m.safety.slots.set CalSlot.blank k v }

/-- The bytes of a slice record (R151). -/
def sliceRecord (t : Trim × Nat) : List Byte :=
  leBytes 8 (ofSigned 10 t.1.ofs + 2 ^ 16 * ofSigned 10 t.1.gain + 2 ^ 32 * ofSigned 12 t.1.skew + 2 ^ 48 * (t.2 % 128))

/-- The 832 bytes of a section (R151). -/
def CalSection.bytes (c : CalSection) : List Byte :=
  leBytes 4 c.gen ++ leBytes 4 c.wall ++ leBytes 2 (ofSigned 16 c.dieTemp) ++ List.replicate 22 0
    ++ (List.range 68).flatMap (fun p => sliceRecord (c.slices.getD p (⟨0, 0, 0⟩, 127)))
    ++ (List.range 64).flatMap (fun t => leBytes 4 (ofSigned 32 (c.taps.getD t 0)))

/-- The correction that changes nothing (R128). -/
def identityTaps : List Int := (List.range 64).map fun t => if t = 32 then 65536 else 0

/-- Bytes 0x0000–0x001B of a slot (R150). -/
def CalHeader.bytes (h : CalHeader) : List Byte :=
  leBytes 4 h.magic ++ leBytes 2 h.format ++ leBytes 1 h.slot ++ leBytes 1 h.updated ++ leBytes 4 h.gen ++ leBytes 4 h.length
    ++ leBytes 4 h.count ++ leBytes 4 h.wall ++ leBytes 4 0

/-- The CRC of a slot (R150). -/
def CalSlot.crc (t : CalSlot) (h : CalHeader) : Nat := crc32c (h.bytes ++ t.body.flatMap CalSection.bytes)

/-- A slot is valid (R154). -/
def CalSlot.valid (t : CalSlot) : Bool :=
  match t.head with
  | some h => h.magic == 0x53435146 && h.format == 1 && h.length == 3328 && h.crc == t.crc h
  | none => false

/-- GENERATION and CAL_COUNT of a slot. -/
def CalSlot.gen (t : CalSlot) : Nat := (t.head.map CalHeader.gen).getD 0
def CalSlot.count (t : CalSlot) : Nat := (t.head.map CalHeader.count).getD 0

/-- The slot that a store targets: the one not in force (R152); with none in force, slot B (log entry 122). -/
def Module.targetSlot (m : Module) : Nat := 1 - m.rd pgCal CAL_STORE_STATUS.ACTIVE_SLOT

def Module.storeState (m : Module) : Nat := m.rd pgCal CAL_STORE_STATUS.STORE_STATE

/-- The store of the first waiting input begins: the target sector is erased (R152). -/
def Module.beginStore (m : Module) : Module :=
  if m.safety.stores = [] then m.wr pgCal CAL_STORE_STATUS.STORE_STATE 0
  else ((m.setSlot m.targetSlot CalSlot.blank).wr pgCal CAL_STORE_STATUS.STORE_STATE 1).wr pgCal
      CAL_STORE_STATUS.OTHER_VALID 0

/-- The run of an input waits for its store. -/
def Conv.storing (c : Conv) : Bool := c.step == 7 && !c.ended && !c.stored

/-- CAL_STORE_REQUEST (R147): the request at the head of X → 57 joins the stores, served in order of arrival; one whose run has
ended is answered at once. -/
def execCalStoreRequest (x : Input) (s : State) : Host.Outcome State Fault Refusal :=
  .next (match s.m.arrival x 57 with
    | some (.storeRequest _) =>
      s.onM fun m =>
        let m := m.takeArrival x 57
        if (m.cv x).storing then
          let first := m.safety.stores.isEmpty
          let m := { m with safety.stores := m.safety.stores ++ [x.val] }
          if first then m.beginStore else m
        else m.postMgt 57 x .cpl (.storeDone x false)
    | _ => s)

/-- A store is over, with its completion over 57 → X; the next one begins (R147). -/
def Module.endStore (m : Module) (x : Nat) (ok : Bool) : Module :=
  let served := m.safety.stores.head? == some x
  let m := ({ m with safety.stores := m.safety.stores.erase x } : Module).postMgt 57 x .cpl (.storeDone x ok)
  if served then m.beginStore else m

/-- The header of the store of an input has begun to be programmed (R144, R153). -/
def Module.headerBegun (m : Module) (x : Nat) : Bool := m.safety.stores.head? == some x && decide (3 ≤ m.storeState)

/-- CAL_TIMEOUT (R144): the limit of the step in force, or of the whole run, has come, to the same effect; in PRECHECK it is
CAL_PRECHECK, and once the header has begun the verification decides. -/
def execCalTimeout (x : Input) (full : Bool) (s : State) : Host.Outcome State Fault Refusal :=
  let c := s.m.cv x
  .next (if (if full then c.runOver s.m.clk.ticks else c.stepOver s.m.clk.ticks) = true then
    s.onM fun m =>
      if c.step = 2 then (if c.passed then m else m.precheckFails x)
      else if c.stored || c.ended || m.headerBegun x then m
      else
        let m := if m.safety.stores.contains x.val then m.endStore x false else m
        (m.wr pgCal CAL_FG_STATUS.TIMEOUT_STEP c.step x).calFails x 4 0
  else s)

/-- The result of a run; an accepted RESIDUAL has one. -/
def Conv.found (c : Conv) : CalResult := c.result.getD ⟨[], [], 0, 0, 0⟩

/-- The section of an input from its run (R151): the solved trims at their positions, and the correction taps. -/
def Module.newSection (m : Module) (x gen : Nat) : CalSection :=
  ⟨gen, m.rd pgSaf SAF_WALL.SECONDS, (m.cv x).pauseTemp,
    (List.range 68).map fun p =>
      (if (m.slice x p).pos = 127 then (m.slice x p).trim else (m.cv x).found.trims.getD p (m.slice x p).trim, (m.slice x p).pos),
    (m.cv x).found.taps⟩

/-- The section of another input, as the slot in force holds it; with none in force, what the input has in force (log entry
122). -/
def Module.oldSection (m : Module) (x : Nat) : CalSection :=
  let t := m.slot (1 - m.targetSlot)
  (if t.valid then t.body else []).getD x
    ⟨0, 0, 0, (List.range 68).map fun p => ((m.slice x p).trim, (m.slice x p).pos),
      if (m.cv x).corr = [] then identityTaps else (m.cv x).corr⟩

/-- GENERATION and CAL_COUNT of the store that is being made (R148, R149). -/
def Module.nextGen (m : Module) : Nat := (m.rd pgCal CAL_GENERATION.GEN + 1) % 2 ^ 32
def Module.nextCount (m : Module) : Nat := (m.rd pgCal CAL_COUNT_TOTAL.COUNT + 1) % 2 ^ 32

/-- The body is programmed. -/
def Module.programBody (m : Module) (x : Nat) : Module :=
  let body := [0, 1, 2, 3].map fun i => if i = x then m.newSection x m.nextGen else m.oldSection i
  (m.setSlot m.targetSlot { m.slot m.targetSlot with body := body }).wr pgCal CAL_STORE_STATUS.STORE_STATE 3

/-- The header is programmed. -/
def Module.programHeader (m : Module) (x : Nat) : Module :=
  let k := m.targetSlot
  let h : CalHeader := ⟨0x53435146, 1, k, 2 ^ x, m.nextGen, 3328, m.nextCount, m.rd pgSaf SAF_WALL.SECONDS, 0⟩
  (m.setSlot k { m.slot k with head := some { h with crc := (m.slot k).crc h } }).wr pgCal CAL_STORE_STATUS.STORE_STATE 4

/-- A store fails (R152). -/
def Module.storeFails (m : Module) (x reason : Nat) : Module :=
  (((m.bump pgCal CAL_STORE_STATUS.STORE_FAILS).raise pgCal 11).calFails x 5 reason).endStore x false

/-- A verified slot comes into force (R148, R149); the notice of the new generation goes to the course and density islands
(R276), and the input resumes under R145. -/
def Module.storeVerified (m : Module) (x : Nat) : Module :=
  let k := m.targetSlot
  let gen := m.nextGen
  let m := m.wr pgCal CAL_STORE_STATUS.OTHER_VALID (m.slot (1 - k)).valid.toNat
  let m := (m.wr pgCal CAL_STORE_STATUS.ACTIVE_SLOT k).wr pgCal CAL_COUNT_TOTAL.COUNT m.nextCount
  let m := (m.wr pgCal CAL_GENERATION.GEN gen).wr pgCal CAL_LAST_WALL.SECONDS (((m.slot k).body.map CalSection.wall).getD x 0) x
  let t := nextMultiple (m.tick + 4096) 4096
  let m := [24 + x, 28, 29].foldl (fun m i => m.postMgt 56 i .evt (.genNotice x gen t)) m
  (m.setCv x { m.cv x with stored := true, storedGen := gen, resumeAt := t }).endStore x true

/-- CAL_STORE_VERIFY (R152): what ends in the store under way. The steps come in their order: erase and OPEN, body, header,
read-back; a mismatch or a flash error ends the run with CAL_STORE_FAILED. -/
def execCalStoreVerify (x : Input) (e : StoreEnd) (s : State) : Host.Outcome State Fault Refusal :=
  .next (if s.m.safety.stores.head? = some x.val then
    s.onM fun m =>
      match e with
      | .erased =>
        if m.storeState = 1 then
          (m.setSlot m.targetSlot { CalSlot.blank with opened := true }).wr pgCal CAL_STORE_STATUS.STORE_STATE 2
        else m
      | .body => if m.storeState = 2 then m.programBody x else m
      | .header => if m.storeState = 3 then m.programHeader x else m
      | .readBack clean =>
        if m.storeState = 4 then (if clean && (m.slot m.targetSlot).valid then m.storeVerified x else m.storeFails x 1) else m
      | .flashError => m.storeFails x 2
  else s)

/-! ## The resumption (R145, R146) -/

/-- The new trims, the new correction and INPUT_GEN come into force (R145). On a converter that delivers nothing then, CAL_LAST_TIME64
takes the resumption's tick (log entry 123). -/
def Module.applyResult (m : Module) (x tick : Nat) : Module :=
  let r := (m.cv x).found
  let m := (List.range 68).foldl (fun m p =>
    if (m.slice x p).pos = 127 then m
    else m.setSlice x p { m.slice x p with trim := r.trims.getD p (m.slice x p).trim, calAt := m.clk.ticks }) m
  let m := m.setCv x { m.cv x with corr := r.taps, result := none }
  let m := (m.wr pgCal CAL_INPUT_GEN.GEN (m.cv x).storedGen x).wr64 pgCal CAL_LAST_TIME64_LO.TIME CAL_LAST_TIME64_HI.TIME
    (tick64 tick) x
  ((m.bump pgCal CAL_FG_COUNTS.APPLIED 1 x).wr pgCal CAL_FG_STATUS.LAST_RESULT 1 x).raise pgCal 8

/-- CAL_RESUME: the first multiple of 4,096 ticks at least 4,096 ticks after the decision. A converter that was RUNNING
delivers again unless delivery was ended meanwhile; an ARMED one whose start tick fell in the pause starts late. -/
def execCalResume (x : Input) (s : State) : Host.Outcome State Fault Refusal :=
  .next (if s.m.runState x = 3 ∧ ((s.m.cv x).stored || (s.m.cv x).ended) = true then
    s.onM fun m =>
      let p := pgCnv x
      let t := (m.cv x).resumeAt
      let m := if (m.cv x).stored then m.applyResult x t else m
      let c := m.cv x
      let m := m.setCv x { c with
        readyTick := t + 9900000, passed := false, stored := false, ended := false, pauseLeft := none, cutStop := false
        tableNew := false, startupRun := false, powered := m.rd p CTRL.ENABLE == 1 }
      let m := m.enterStep x 0
      if c.before = 2 then
        if c.cutStop then m.converterStops x
        else ((m.wr p CNV_STATUS.RUN_STATE 2).deliveryStarts x t true).resumeEntry x t c.pauseLeft c.tableNew
      else if c.before = 1 ∧ c.cutStop = false then
        match c.startTick with
        | some a => if a ≤ t then (m.converterStarts x t).raise p 11 else m.wr p CNV_STATUS.RUN_STATE 1
        | none => m.wr p CNV_STATUS.RUN_STATE 1
      else if c.before = 1 then (m.setRun x 0).wr p CNV_STATUS.RUN_STATE 0
      else m.wr p CNV_STATUS.RUN_STATE 0
  else s)

/-! ## The commit of CAL -/

def checkCal (snap : Store Nat) : List Bad :=
  let g := fun (f : Fld) => snapGet snap pgCal f
  let ms := g CAL_FG_TIMEOUT.FULL_MS
  chk (ms == 0) 0x044 1 ++ chk (outside 100 60000 ms) 0x044 2
  ++ chk (g CAL_BG_MATCH.OFS_TOL == 0 || g CAL_BG_MATCH.GAIN_TOL == 0 || g CAL_BG_MATCH.SKEW_TOL == 0) 0x0AC 1

end Sys2Proof.Machine
end

