-- ==== Sys2Proof/Machine/Dsp.lean ====
section
/-! DEFINITION. The arithmetic of the transforms and filters (R163–R171, R179–R182, R193–R197, R203): angles, windows, the
block-scaled transform, decibels, blocks with a shared exponent, and the decimating chain. -/

namespace Sys2Proof.Machine

/-! ## Rounding and angles -/

/-- Round a quotient to the nearest integer, ties to even. -/
def roundEven (num : Int) (den : Nat) : Int :=
  let q := num / den
  let r := num % den
  if 2 * r < den then q else if (den : Int) < 2 * r then q + 1 else if q % 2 = 0 then q else q + 1

/-- The unit of angles and trigonometric values. -/
def one80 : Nat := 2 ^ 80

/-- t − t x²/((k+1)(k+2)) + …, in units of 2^−80. -/
def angleSeries : Nat → Nat → Int → Int → Int
  | 0, _, _, _ => 0
  | f + 1, k, t, x2 => t + angleSeries f (k + 2) (-(t * x2) / ((one80 * ((k + 1) * (k + 2)) : Nat) : Int)) x2

/-- Cosine and sine of n/d of a turn, in units of 2^−80. -/
def turn (n d : Nat) : Cx :=
  let x : Int := (7595904947272677161575987 * (n % d) / d : Nat)
  let x2 := x * x / (one80 : Int)
  (angleSeries 48 0 one80 x2, angleSeries 48 1 x x2)

/-- Multiply by a unit vector turned backwards: z · e^(−jθ), in units 2^−80 of those of z. -/
def Cx.back (z t : Cx) : Cx := (z.1 * t.1 + z.2 * t.2, z.2 * t.1 - z.1 * t.2)

/-! ## Windows (R163–R165) -/

/-- The cosine terms of windows 0 to 3, in millionths. -/
def windowTerms (code : Nat) : List Int :=
  if code = 0 then [1000000] else if code = 1 then [500000, -500000] else if code = 2 then [358750, -488290, 141280, -11680]
  else [215579, -416632, 277263, -83579, 6947]

/-- Σ q^m ÷ (m!)² for q = a ÷ b, in units of 2^−80: I0 of a z with z² ÷ 4 = q. -/
def besselSeries : Nat → Nat → Nat → Nat → Nat → Nat
  | 0, _, _, _, _ => 0
  | f + 1, m, t, a, b => t + besselSeries f (m + 1) (t * a / (b * ((m + 1) * (m + 1)))) a b

def besselI0 (a b : Nat) : Nat := besselSeries 160 0 one80 a b

/-- w(n) of a frame of N points in units of 2^−17, rounded to nearest; FLATTOP has negative values (log entry 114). BETA is that
of KAISER, `user` the bank of USER. -/
def windowValue (code beta : Nat) (user : Nat → Nat) (N n : Nat) : Int :=
  if code ≤ 3 then
    let l := windowTerms code
    roundAway (((List.range l.length).zip l).map fun p => p.2 * (turn (p.1 * n) N).1).sum (1000000 * 2 ^ 63)
  else if code = 4 then
    roundAway (besselI0 (beta * beta * (n * (N - n))) (2 ^ 20 * N * N) * 2 ^ 17 : Nat) (besselI0 (beta * beta) (2 ^ 22))
  else
    let p := n * 65536
    let u := user (p / N)
    roundAway ((u : Int) * N + ((user ((p / N + 1) % 65536) : Int) - u) * (p % N : Nat)) N

/-- The window of a frame of 2^log2n points. -/
def windowList (code beta : Nat) (user : Nat → Nat) (log2n : Nat) : List Int :=
  (List.range (2 ^ log2n)).map (windowValue code beta user (2 ^ log2n))

/-- Walk outward from the centre of a frame until the values taken reach the target: each step brings a weight, spread over a
width in samples. The width reached as a fraction of N, rounded up to a multiple of 1/65,536. -/
def centralWalk (target : Int) (N : Nat) : Int → Nat → List (Int × Nat) → Nat
  | _, _, [] => 65536
  | acc, wide, (p, w) :: l =>
    if target ≤ (acc + p) * one80 then
      ceilDiv (((wide * p * one80 + w * (target - acc * one80)) * 65536).toNat) ((p * one80 * N).toNat)
    else centralWalk target N (acc + p) (wide + w) l

/-- FRAC_3DB (R179): sample n stands for n ± 1/2 about the centre N/2; 10^(−3/20) in units of 2^−80. -/
def central3dB (w : List Int) : Nat :=
  let N := w.length
  let at_ := fun i => w.getD (i % N) 0
  let steps := (at_ (N / 2), 1) :: (List.range (N / 2 - 1)).map (fun k => (at_ (N / 2 - k - 1) + at_ (N / 2 + k + 1), 2))
    ++ [(at_ 0, 1)]
  centralWalk (w.sum * 855853937629315467618256) N 0 0 steps

/-- CG, ENBW and FRAC_3DB of a window, to the nearest and within their registers (R165, R179; log entry 114). -/
def windowMetrics (w : List Int) : Nat × Nat × Nat :=
  let s := w.sum
  let s2 := (w.map fun v => v * v).sum
  (Nat.min 65535 (roundAway (s * 2 ^ 15) (w.length * 2 ^ 17)).toNat,
    Nat.min 65535 (roundAway (w.length * s2 * 4096) (s * s).toNat).toNat, Nat.min 65535 (central3dB w))

/-! ## The transform (R166) -/

/-- Every second value, from the first and from the second on. -/
def evens : List Cx → List Cx
  | [] => []
  | [a] => [a]
  | a :: _ :: l => a :: evens l

def odds : List Cx → List Cx
  | [] => []
  | [_] => []
  | _ :: b :: l => b :: odds l

/-- The order in which radix-2 stages take their values. -/
def bitReverse : Nat → List Cx → List Cx
  | 0, l => l
  | n + 1, l => bitReverse n (evens l) ++ bitReverse n (odds l)

/-- One part of a stage's result: the exact one to the nearest, off by at most one unit that the spec does not state (log
entry 113), then shifted where the stage shifts. -/
def stagePart (shift : Bool) (v off : Int) : Int :=
  let r := roundEven v one80 + off
  if shift then roundEven r 2 else r

/-- Two transforms of half the length joined: a[k] ± e^(−j2πk/(2L)) b[k]. `off` gives the open units by place. -/
def joinHalves (shift : Bool) (off : Nat → Int) (place : Nat) (a b : List Cx) : List Cx :=
  let l := a.length
  let part := fun (sign : Int) (p : Nat × Cx × Cx) =>
    let t := p.2.2.back (turn p.1 (2 * l))
    let o := 2 * (place + p.1 + if sign = 1 then 0 else l)
    (stagePart shift (p.2.1.1 * one80 + sign * t.1) (off o), stagePart shift (p.2.1.2 * one80 + sign * t.2) (off (o + 1)))
  let zs := (List.range l).zip (a.zip b)
  zs.map (part 1) ++ zs.map (part (-1))

/-- One stage: neighbouring blocks are joined. -/
def joinAll (shift : Bool) (off : Nat → Int) : Nat → List (List Cx) → List (List Cx)
  | place, a :: b :: l => joinHalves shift off place a b :: joinAll shift off (place + a.length + b.length) l
  | _, l => l

/-- Some value of the working set has magnitude 2^22 or more. -/
def tooLarge (ws : List (List Cx)) : Bool := ws.any fun l => l.any fun z => decide (2 ^ 44 ≤ z.1 * z.1 + z.2 * z.2)

/-- The stages left, the place of the next open unit, the working set and the exponent. -/
def stages : Nat → (Nat → Int) → Nat → List (List Cx) → Nat → List (List Cx) × Nat
  | 0, _, _, ws, e => (ws, e)
  | n + 1, off, place, ws, e =>
    let sh := tooLarge ws
    let ws' := joinAll sh off place ws
    stages n off (place + 2 * (ws.map List.length).sum) ws' (if sh then e + 1 else e)

/-- The transform of 2^log2n values, and its exponent (R166). -/
def transform (off : Nat → Int) (log2n : Nat) (l : List Cx) : List Cx × Nat :=
  let (ws, e) := stages log2n off 0 ((bitReverse log2n l).map fun z => [z]) 0
  (ws.flatten, e)

/-- The open units of a transform: free values of −1, 0 or 1 (log entry 113). -/
def freeUnits (base : Nat) (k : Nat) : Int := (Config.free (base + k) % 3 : Nat) - 1

/-- How many of them a transform takes. -/
def unitCount (log2n : Nat) : Nat := 2 * log2n * 2 ^ log2n

/-! ## Decibels (R169) -/

/-- The binary digits of log2 of v ÷ 2^80, for v from 2^80 to below 2^81. -/
def logDigits : Nat → Nat → Nat
  | 0, _ => 0
  | f + 1, v =>
    let s := v * v / one80
    if 2 * one80 ≤ s then 2 ^ f + logDigits f (s / 2) else logDigits f s

/-- log2 of a positive number, in units of 2^−60. -/
def log2Fixed (n : Nat) : Nat := n.log2 * 2 ^ 60 + logDigits 60 (n * one80 / 2 ^ n.log2)

/-- 10 log10 of the power p ÷ q in 1/256 dB, ties away from zero, within 16 bits (R169). -/
def logDb (p q : Nat) : Int :=
  if p = 0 then -32768
  else max (-32768) (min 32767
    (roundAway (((log2Fixed p : Int) - log2Fixed q) * 2560 * 363922934236666733021125) (2 ^ 140)))

/-! ## Blocks with a shared exponent (R170, R203) -/

/-- v ÷ d × 32,768 ÷ 2^e to the nearest integer. -/
def mantissa (e v : Int) (d : Nat) : Int :=
  if e ≤ 15 then roundEven (v * 2 ^ (15 - e).toNat) d else roundEven v (d * 2 ^ (e - 15).toNat)

/-- E and the pairs (I, Q) of values in units of 1 ÷ d: E is the least at which no part exceeds 32,767, so that the largest
lies from 16,384; a block of zeros has −128. -/
def blockOf (d : Nat) (l : List Cx) : Int × List Cx :=
  let fitsAt := fun (e : Int) => l.all fun z => decide ((mantissa e z.1 d).natAbs ≤ 32767 ∧ (mantissa e z.2 d).natAbs ≤ 32767)
  let e : Int := if l.all fun z => z == (0, 0) then -128
    else (((List.range 256).map fun (i : Nat) => (i : Int) - 128).find? fitsAt).getD 127
  (e, l.map fun z => (mantissa e z.1 d, mantissa e z.2 d))

/-- Blocks of 64. -/
def blocksOf (d : Nat) : Nat → List Cx → List (Int × List Cx)
  | 0, _ => []
  | f + 1, l => if l.isEmpty then [] else blockOf d (l.take 64) :: blocksOf d f (l.drop 64)

/-! ## Stretches of received values -/

/-- The values from index `lo` on, `n` of them, out of pieces in rising order; what no piece holds is `z` (R161, R185, R199). -/
def gather {α : Type} (z : α) : List (Nat × List α) → Nat → Nat → List α
  | [], _, n => List.replicate n z
  | (f, l) :: rest, lo, n =>
    let gap := Nat.min n (f - lo)
    let body := (l.drop (lo + gap - f)).take (n - gap)
    List.replicate gap z ++ body ++ gather z rest (lo + gap + body.length) (n - gap - body.length)

/-! ## The channeliser (R180–R182) -/

/-- The slot of sub-band k at stamp index s in Q2.14, from the 2,048 corrected samples from s − 1,024 on (in 2^−11): the
component around f_k, turned back by f_k t with t from TIME64 zero; the taps and the rounding are the implementation's (log
entry 115). -/
def subbandSlot (k s : Nat) (l : List Int) : Cx :=
  let terms := ((List.range l.length).zip l).map fun p =>
    let n := s + p.1 - 1024
    let t := turn ((2 * k + 1) * n) 256
    let h := Config.prototype ((p.1 : Int) - 1024).natAbs * p.2
    (h * t.1, -(h * t.2))
  (roundEven (terms.map Prod.fst).sum (2 ^ 106), roundEven (terms.map Prod.snd).sum (2 ^ 106))

/-! ## The chain of a brick (R193–R197) -/

/-- One half-band stage of 47 taps: outputs of `n` in number from inputs that begin 23 before the first output's centre; each
output moves on by two inputs. In units 2^−30 of those of the inputs. -/
def halfBand (stage : Nat) : Nat → List Cx → List Cx
  | 0, _ => []
  | n + 1, l =>
    let terms := ((List.range 47).zip l).map fun p => (Config.halfBand stage p.1 * p.2.1, Config.halfBand stage p.1 * p.2.2)
    ((terms.map Prod.fst).sum, (terms.map Prod.snd).sum) :: halfBand stage n (l.drop 2)

/-- Chain samples lo, lo + 1, … (n of them) after k stages, from a function that gives inputs from an index on. -/
def chainSamples (input : Int → Nat → List Cx) : Nat → Int → Nat → List Cx
  | 0, lo, n => input lo n
  | k + 1, lo, n => halfBand (k + 1) n (chainSamples input k (2 * lo - 23) (2 * n + 45))

/-- The resampler: 16 chain samples, and the place of the instant between the eighth and the ninth as a fraction a ÷ b. In
units 2^−30 of those of the chain. -/
def resampled (a b : Nat) (l : List Cx) : Cx :=
  let terms := ((List.range 16).zip l).map fun p => (Config.resampler p.1 a b * p.2.1, Config.resampler p.1 a b * p.2.2)
  ((terms.map Prod.fst).sum, (terms.map Prod.snd).sum)

end Sys2Proof.Machine
end

