-- ==== Sys2Proof/Machine/Wideband.lean ====
section
/-! DEFINITION. The wideband transform and the channeliser of island 4 + X (spec/05): grids, windows and transforms, outputs,
sub-band messages, marks and routes. -/

namespace Sys2Proof.Machine

/-! ## What arrives from the converter (R158) -/

/-- The stretch lies whole inside one run. -/
def inRun (l : List Span) (s : Span) : Bool := l.any fun r => decide (r.lo ≤ s.lo) && decide (s.hi ≤ r.hi)

/-- A stretch shares a sample with some span. -/
def touches (l : List Span) (s : Span) : Bool := l.any fun r => decide (r.lo ≤ s.hi) && decide (s.lo ≤ r.hi)

/-- The support of a stamp (R181): 2,048 corrected samples centred on it. -/
def support (st : Nat) : Span := ⟨st - 1024, st + 1023⟩

/-- The first stamp not yet computed. -/
def Feed.nextStamp (f : Feed) : Nat := nextMultiple (f.nextIdx - 1023) 64

/-- The stamps lo, lo + 64, … hi. -/
def stampRange (lo hi : Nat) : List Nat := (List.range ((hi + 64 - lo) / 64)).map fun i => lo + 64 * i

/-- The stamps that the samples received last have completed: tainted ones are counted, once for all sub-bands, and the last
message boundary among them is shown (R190). They are computed whatever CTRL.ENABLE, which starts and stops delivery alone (log
entry 124). -/
def Module.countStamps (m : Module) (x : Nat) : Module :=
  let w := m.wd x
  match w.feed.got.getLast? with
  | none => m
  | some r =>
    let lo := Nat.max w.counted (nextMultiple (r.lo + 1024) 64)
    let hi := w.feed.nextStamp
    if hi ≤ lo then m
    else
      let n := ((stampRange lo (hi - 64)).filter fun s => touches w.feed.tainted (support s)).length
      let m := (m.setWd x { w with counted := hi }).bump (pgChn x) CHN_TAINTED.STAMPS n
      if lo ≤ (hi - 64) / 16384 * 16384 then m.wr (pgChn x) CHN_LAST_INDEX.INDEX ((hi - 64) / 16384) else m

/-- A corrected-sample message enters the feed, behind the samples lost before it; an entry it brings goes on to the routed
clusters as a mark (R186). HOLDOVER follows what the converter and this island know of the loops (R68, R69; log entry 125). -/
def Module.feedSamples (m : Module) (x : Nat) (g : SampleMsg) : Module :=
  let m := m.endLostRun x
  let w := m.wd x
  let f := w.feed
  let hi := g.first + g.samples.length - 1
  let new := g.entries.filter fun i => !f.entries.contains i
  let here : List Span := if m.holdover (4 + x) [0, 5, x + 1] then [⟨g.first, hi⟩] else []
  let m := m.setWd x { w with feed := { f with
    got := extendRun f.got ⟨g.first, hi⟩, vals := f.vals ++ [(g.first, g.samples.map CSample.value)]
    tainted := f.tainted ++ g.tainted, hold := f.hold ++ g.holdover ++ here
    entries := f.entries ++ new, nextIdx := hi + 1 } }
  (new.foldl (fun m i => m.forwardMark x (.entry i)) m).countStamps x

/-- A corrected-sample message lost to the budget (R123): it joins the run of lost samples, which ends with the next message that
arrives or with the delivery. -/
def Module.feedLost (m : Module) (x : Nat) (g : SampleMsg) : Module :=
  let w := m.wd x
  let hi := g.first + g.samples.length - 1
  m.setWd x { w with lostRun := some ⟨(w.lostRun.map Span.lo).getD g.first, hi⟩ }

/-! ## Frames -/

/-- Some entry in force in the stretch is an injected entry. -/
def injectedIn (l : List EntryInfo) (s : Span) : Bool :=
  (match entryAt l s.lo with
   | some i => i.injected
   | none => false) || l.any fun i => i.injected && decide (s.lo ≤ i.index) && decide (i.index ≤ s.hi)

/-- ENTRY of a header (R173): the entry, attenuation and source at a sample. -/
def entryWord (l : List EntryInfo) (n : Nat) : Nat :=
  match entryAt l n with
  | some i => i.entry + 256 * i.atten + 4096 * i.source
  | none => 0

/-- The stretch has samples on both sides of a swap with CALCHG: one of the outgoing slice, 64 or more before the swap's
sample, and one of the incoming slice (R135, R174). -/
def swappedIn (l : List SwapInfo) (s : Span) : Bool :=
  l.any fun w => w.calchg && decide (s.lo + 64 ≤ w.time / 16) && decide (w.time / 16 ≤ s.hi)

/-- An entry starts at a sample of the stretch other than its first. -/
def entryChange (l : List EntryInfo) (s : Span) : Bool := l.any fun i => decide (s.lo < i.index) && decide (i.index ≤ s.hi)

/-- The weight of a flag bit. -/
def flag (c : Bool) (b : Nat) : Nat := if c then 2 ^ b else 0

/-- Split a length into messages of at most 4,096 bytes (R175). -/
def pieces : Nat → Nat → List Nat
  | 0, _ => []
  | fuel + 1, n => if n ≤ 4096 then [n] else 4096 :: pieces fuel (n - 4096)

/-- Send a spectrum to a destination: all messages but the last carry no field of their own; the last completes it. -/
def Module.sendSpectrum (m : Module) (x dst act : Nat) (sp : Spectrum) : Module :=
  let sizes := pieces (ceilDiv (32 + sp.bytes) 4096) (32 + sp.bytes)
  let m := sizes.dropLast.foldl (fun m n =>
    m.send ⟨4 + x, dst, .dat, some act, n, [], true, .specPiece x sp.seq sp.columns⟩) m
  m.send ⟨4 + x, dst, .dat, some act, sizes.getLastD 0, [], true, .spectrum sp⟩

/-- The islands of a DEST field (R172). -/
def wteDest (x dest : Nat) : List Nat :=
  (if bit dest 0 then [24 + x] else []) ++ (if bit dest 1 then [28] else []) ++ (if bit dest 2 then [29] else [])

/-- The payload length of an output (R169, R170). -/
def binBytes (complex : Bool) (count : Nat) : Nat :=
  if complex then 4 * ceilDiv count 64 + 4 * count else nextMultiple (2 * count) 4

/-- The flags that both outputs share (R174), and TAINT. -/
def Module.frameFlags (m : Module) (x : Nat) (g : Grid) : Nat × Bool :=
  let f := (m.wd x).feed
  let s : Span := ⟨g.start, g.start + g.cfg.size - 1⟩
  let taint := touches f.tainted s
  (flag taint 0 + flag (touches f.hold s) 1 + flag (injectedIn f.entries s) 2
    + flag (g.gap && g.frame == 0) 4 + flag (swappedIn f.swaps s) 5 + flag (entryChange f.entries s) 6
    + flag (g.change && g.frame == 0) 7, taint)

/-- The transform of a frame and what its values are measured in: bins, exponent, and 8 × the sum of the window, at which a bin
has magnitude 1 (R166, R167). -/
structure FrameBins where
  bins : List Cx
  exp  : Nat
  unit : Nat
  deriving DecidableEq, Repr

/-- The window of a grid's frames (R163–R165). -/
def WteCfg.windowOf (c : WteCfg) : List Int := windowList c.window c.beta (c.user.get 0x20000) c.log2n

/-- One frame of real samples through the window and the transform (R166). -/
def frameBins (off : Nat → Int) (log2n : Nat) (window samples : List Int) : FrameBins :=
  let (bins, e) := transform off log2n ((samples.zip window).map fun p => (roundEven (p.1 * p.2) 128, 0))
  ⟨bins, e, (8 * window.sum).toNat⟩

/-- One frame of complex samples in units of 1 ÷ d: 1.0 under a window value of 1.0 enters at 2^21, as a full-scale corrected
sample does (R166, R200), and bin b lies (b − M ÷ 2) bins from the centre. -/
def complexBins (off : Nat → Int) (log2m d : Nat) (window : List Int) (samples : List Cx) : FrameBins :=
  let enter := fun (v w : Int) => roundEven (16 * v * w) d
  let (bins, e) := transform off log2m ((samples.zip window).map fun p => (enter p.1.1 p.2, enter p.1.2 p.2))
  ⟨bins.drop (2 ^ log2m / 2) ++ bins.take (2 ^ log2m / 2), e, (16 * window.sum).toNat⟩

/-- |X|² of a bin as a numerator over `unit` squared (R167). -/
def FrameBins.power (f : FrameBins) (z : Cx) : Nat := (z.1 * z.1 + z.2 * z.2).toNat * 4 ^ f.exp

/-- The LOG value of a bin (R169). -/
def FrameBins.log (f : FrameBins) (z : Cx) : Int := logDb (f.power z) (f.unit * f.unit)

/-- The value of a column by its detector (R171). -/
def FrameBins.column (f : FrameBins) (detector : Nat) (l : List Cx) : Int :=
  let logs := l.map f.log
  if detector = 0 then logs.foldl max (-32768) else if detector = 1 then logs.foldl min 32767
  else if detector = 2 then logDb ((l.map f.power).sum) (l.length * (f.unit * f.unit))
  else logs.headD (-32768)

/-- The bins from a first one on. -/
def FrameBins.slice (f : FrameBins) (first count : Nat) : List Cx := (f.bins.drop first).take count

/-- The payload of the bins first … first + count − 1 in LOG or COMPLEX format (R168–R170). -/
def FrameBins.binPayload (f : FrameBins) (complex : Bool) (first count : Nat) : Payload :=
  let l := f.slice first count
  if complex then ⟨[], blocksOf f.unit (count / 64 + 1) (l.map fun z => (z.1 * 2 ^ f.exp, z.2 * 2 ^ f.exp))⟩
  else ⟨l.map f.log, []⟩

/-- The payload of the columns (R171). -/
def FrameBins.colPayload (f : FrameBins) (c : WteCfg) : Payload :=
  ⟨(List.range c.colCount).map fun i =>
    let lo := i * c.colBins / c.colCount
    let hi := (i + 1) * c.colBins / c.colCount
    f.column c.detector (f.slice (c.colFirst + lo) (hi - lo)), []⟩

/-- The spectrum of one output of a frame (R168–R174). -/
def Module.wteSpectrumOf (m : Module) (x : Nat) (g : Grid) (columns : Bool) (flags : Nat) (fb : FrameBins) : Spectrum :=
  let c := g.cfg
  let f := (m.wd x).feed
  let complex := !columns && c.complex
  let count := if columns then c.colCount else c.binCount
  let s : Span := ⟨g.start, g.start + c.size - 1⟩
  let drops := touches f.lost s || (if columns then (m.wd x).dropCols else (m.wd x).dropBins)
  { time := 16 * g.start % 2 ^ 64, seq := (m.wd x).seq % 2 ^ 32, input := x, columns := columns, complex := complex
    detector := if columns then c.detector else 0, window := c.window, overlap := c.overlap, log2n := c.log2n
    flags := flags + flag drops 3, finalExp := fb.exp, first := if columns then c.colFirst else c.binFirst
    count := count, entry := entryWord f.entries g.start, config := c.config
    bytes := binBytes complex count, brick := none, course := 0, epoch := 0, stages := 0, replay := false
    payload := if columns then fb.colPayload c else fb.binPayload complex c.binFirst c.binCount }

/-- Emit one output of a frame where it is on: its pending BUDGET_DROP goes out with it (R174, R177). -/
def Module.emitOutput (m : Module) (x : Nat) (g : Grid) (columns : Bool) (flags : Nat) (fb : FrameBins) : Module :=
  if if columns then g.cfg.colOn else g.cfg.binOn then
    let sp := m.wteSpectrumOf x g columns flags fb
    let w := m.wd x
    let m := m.setWd x (if columns then { w with dropCols := false } else { w with dropBins := false })
    let m := (m.wr64 (pgWte x) WTE_LAST_TIME_LO.TIME WTE_LAST_TIME_HI.TIME sp.time).addWork (4 + x) 1
    (wteDest x (if columns then g.cfg.colDest else g.cfg.binDest)).foldl (fun m d =>
      m.sendSpectrum x d (m.lv (pgWte x) ACTIVITY_ID.ACTIVITY) sp) m
  else m

/-- One frame computed: its transform, the exponents, counters, and the two outputs (R166–R174). Samples that no message brought
enter as zero (R161). -/
def Module.computeFrame (m : Module) (x : Nat) (g : Grid) : Module :=
  let p := pgWte x
  let (base, m) := m.draw (unitCount g.cfg.log2n)
  let fb := frameBins (freeUnits base) g.cfg.log2n g.cfg.windowOf (gather 0 (m.wd x).feed.vals g.start g.cfg.size)
  let (flags, taint) := m.frameFlags x g
  let m := ((m.wr p WTE_EXP.LAST_EXP fb.exp).wr p WTE_EXP.MAX_EXP (Nat.max (m.rd p WTE_EXP.MAX_EXP) fb.exp)).wr p WTE_EXP.MIN_EXP
    (Nat.min (m.rd p WTE_EXP.MIN_EXP) fb.exp)
  let m := m.wr p WTE_SEQ.SEQUENCE (m.wd x).seq
  let m := if taint then m.bump p WTE_TAINTED.SPECTRA else m
  let m := if taint && !(m.wd x).lastTaint then m.raise p 10 else m
  let m := (m.emitOutput x g false flags fb).emitOutput x g true flags fb
  m.setWd x { m.wd x with seq := (m.wd x).seq + 1, lastTaint := taint }

/-- The next frame of the grid still belongs to it. -/
def Grid.open_ (g : Grid) : Bool := (g.stop.map fun e => decide (g.start < e)).getD true

/-- The grid after one frame: nothing when its next frame would start at or after its end. -/
def Grid.next (g : Grid) : List Grid :=
  let g' := { g with frame := g.frame + 1 }
  if g'.open_ then [g'] else []

/-- WTE_SPECTRUM (R162): the next frame of the oldest grid, once its last sample has been received. -/
def execWteSpectrum (x : Input) (s : State) : Host.Outcome State Fault Refusal :=
  .next (match (s.m.wd x).grids with
    | g :: rest =>
      if g.open_ && inRun (s.m.wd x).feed.got ⟨g.start, g.start + g.cfg.size - 1⟩ then
        s.onM fun m =>
          let m := m.computeFrame x g
          m.setWd x { m.wd x with grids := g.next ++ rest }
      else s
    | [] => s)

/-- STATUS.HOLDING (R160): a frame of a later grid is complete while an older grid still has frames to come. -/
def Wide.holding (w : Wide) : Bool :=
  (w.grids.drop 1).any fun g => inRun w.feed.got ⟨g.start, g.start + g.cfg.size - 1⟩

/-! ## The WTE page -/

/-- The N interpolated values of the USER window are all zero (R165). -/
def userZero (snap : Store Nat) (x log2n : Nat) : Bool :=
  let u := fun (i : Nat) => snapGet snap (pgWte x) WTE_WIN_DATA.COEFF i
  (List.range (2 ^ Nat.min log2n 16)).all fun i => u (i * (65536 / 2 ^ Nat.min log2n 16)) == 0

/-- The checks of a WTE snapshot (R165 and the register table). -/
def checkWte (x : Nat) (snap : Store Nat) : List Bad :=
  let g := fun (f : Fld) => snapGet snap (pgWte x) f
  let n := g WTE_XFORM.LOG2N
  let half := 2 ^ n / 2
  let bd := g WTE_BIN_CFG.DEST
  let cnt := g WTE_COL_COUNT.COUNT
  chk (n == 0) 0x040 1 ++ chk (n != 0 && outside 10 20 n) 0x040 2 ++ chk (decide (5 < g WTE_XFORM.WINDOW)) 0x040 2
  ++ chk (g WTE_XFORM.WINDOW == 5 && !outside 10 20 n && userZero snap x n) 0x040 0x80
  ++ chk (decide (40960 < g WTE_KAISER.BETA)) 0x044 2
  ++ chk (g WTE_BIN_CFG.FORMAT == 1 && bd / 2 != 0) 0x048 4 ++ chk (g WTE_BIN_CFG.EN == 1 && bd == 0) 0x048 4
  ++ chk (g WTE_BIN_COUNT.COUNT == 0) 0x050 1
  ++ chk (decide (half < g WTE_BIN_FIRST.FIRST + g WTE_BIN_COUNT.COUNT)) 0x040 2
  ++ chk (g WTE_COL_CFG.EN == 1 && g WTE_COL_CFG.DEST == 0) 0x054 4
  ++ chk (g WTE_COL_BINS.BINS == 0) 0x05C 1
  ++ chk (decide (half < g WTE_COL_FIRST.FIRST + g WTE_COL_BINS.BINS)) 0x040 2
  ++ chk (cnt == 0) 0x060 1 ++ chk (decide (2048 < cnt)) 0x060 2
  ++ chk (decide (g WTE_COL_BINS.BINS < cnt)) 0x05C 4

/-- The window's gains at a commit point (R165, R179): those of its values at the live length; RECT, which KAISER with BETA 0 is
(R164), has the FRAC_3DB that R179 states. -/
def Module.windowGains (m : Module) (x : Nat) : Module :=
  let p := pgWte x
  let c := m.wteCfg x
  let (cg, enbw, poi) := if c.window = 0 ∨ (c.window = 4 ∧ c.beta = 0) then (0x8000, 4096, 46397) else windowMetrics c.windowOf
  ((m.wr p WTE_WIN_GAIN.CG cg).wr p WTE_WIN_GAIN.ENBW enbw).wr p WTE_WIN_POI.FRAC_3DB poi

/-- The effects of a WTE commit point (R160): while the converter is RUNNING the new grid is anchored at P, taken from the
tick of the validation. -/
def Module.appliedWte (m : Module) (x validated : Nat) : Module :=
  let m := (m.windowGains x).wr (pgWte x) WTE_GRID.HOP (m.wteCfg x).hop
  if m.runState x = 2 then m.newGrid x (16 * nextMultiple (validated + 64) 4096) false true else m

/-- A write of CTRL.ENABLE on the WTE page (R159, R161). -/
def Module.enableWte (m : Module) (x : Nat) (on : Bool) : Module :=
  let p := pgWte x
  let was := m.rd p CTRL.ENABLE == 1
  let m := m.wr p CTRL.ENABLE on.toNat
  if on && !was && m.runState x == 2 then m.newGrid x (nextMultiple ((m.tick + 64) * 16) 65536) false false
  else if !on && was then
    let m := m.cutGrids x ((m.wd x).feed.nextIdx - 1)
    m
  else m

/-- A spectrum lost to the budget (R177): its output counts it and its next spectrum carries BUDGET_DROP. -/
def Module.spectrumDropped (m : Module) (x : Nat) (columns : Bool) : Module :=
  let w := m.wd x
  let m := m.setWd x (if columns then { w with dropCols := true } else { w with dropBins := true })
  (m.bump (pgWte x) (if columns then WTE_DROPPED.COLUMNS else WTE_DROPPED.BINS)).raise (pgWte x) 8

/-! ## The channeliser (R180–R188) -/

def routeKey (c k : Nat) : Nat := c * 64 + k

/-- The first message whose slot 0 has not yet been computed, and the message in progress: the one of the last stamp computed,
until the next one's slot 0 is (R187; log entry 126). -/
def Feed.nextMessage (f : Feed) : Nat := ceilDiv f.nextStamp 16384
def Feed.inProgress (f : Feed) : Nat := (f.nextStamp - 1) / 16384

/-- The run of samples a route draws on from a stamp on: its first whole-support stamp at or after it, and its last (R185). -/
def Feed.stamps (f : Feed) (next : Nat) : Option (Nat × Nat) :=
  let ends := f.got.map fun r => (Nat.max next (nextMultiple (r.lo + 1024) 64), (r.hi - 1023) / 64 * 64)
  ends.find? fun e => decide (e.1 ≤ e.2)

/-- The run that holds a stamp is over: a later run exists, or the delivery ended with it. -/
def Feed.over (f : Feed) (last : Nat) : Bool :=
  match f.got.find? fun r => decide (r.lo ≤ last) && decide (last ≤ r.hi) with
  | some r => decide (r.hi + 1 ≠ f.nextIdx) || match f.endAt with
    | some e => decide (e ≤ r.hi)
    | none => false
  | none => false

/-- The next message of a route (R184, R185): the stamps it holds. A message is complete when its last stamp has whole
support; a partial one goes out when its run is over. -/
def Wide.nextMsg (w : Wide) (r : Nat) : Option (Nat × Nat) :=
  match w.feed.stamps (w.nextStamp.get 0 r) with
  | some (f, l) =>
    let top := f / 16384 * 16384 + 16320
    let fence := w.ending.get 0 r
    if fence ≠ 0 ∧ fence * 16384 ≤ f then none
    else if top ≤ l then some (f, top)
    else if w.feed.over l then some (f, l)
    else none
  | none => none

/-- A route is delivered: it is subscribed and CTRL.ENABLE is 1, or its last message is due. -/
def Module.routeOpen (m : Module) (x r : Nat) : Bool :=
  (decide (0 < (m.wd x).subs.get 0 r) && m.rd (pgChn x) CTRL.ENABLE == 1) || (m.wd x).ending.get 0 r != 0

/-- The message of sub-band k with the stamps f … l (R182, R184): a slot for each, from its 2,048 corrected samples, in which those
lost are zero (R185). GAP marks the first message after a resumption or after the route began. -/
def Wide.message (w : Wide) (x k r f l : Nat) : SubMsg :=
  let stamps := stampRange f l
  { stamp := 16 * (f / 16384 * 16384) % 2 ^ 64, index := f / 16384 % 2 ^ 32, subband := k, input := x
    gap := w.gapRoute.get 0 r == 1 || f != w.nextStamp.get 0 r
    first := f % 16384 / 64, count := stamps.length
    taints := (stamps.filter fun s => touches w.feed.tainted (support s)).map fun s => s % 16384 / 64
    slots := stamps.map fun s => subbandSlot k s (gather 0 w.feed.vals (s - 1024) 2048) }

/-- The 1,088 bytes of a sub-band message (R184). -/
def SubMsg.bytes (g : SubMsg) : List Byte :=
  leBytes 8 g.stamp ++ leBytes 4 g.index ++ leBytes 1 g.subband ++ leBytes 1 g.input
    ++ leBytes 1 (g.gap.toNat + 2 * (!g.taints.isEmpty).toNat) ++ leBytes 1 g.first ++ leBytes 2 g.count ++ List.replicate 14 0
    ++ leBytes 32 ((List.range 256).map fun i => if g.taints.contains i then 2 ^ i else 0).sum
    ++ (List.replicate g.first (0, 0) ++ g.slots ++ List.replicate (256 - g.first - g.count) (0, 0)).flatMap fun (z : Cx) =>
      leBytes 2 (ofSigned 16 z.1) ++ leBytes 2 (ofSigned 16 z.2)

/-- A route after a message up to stamp l: the next one follows it, unless it was the last of the route, where a route that was
subscribed anew meanwhile begins at its own first message, with GAP (R187). -/
def Wide.afterMessage (w : Wide) (r f l : Nat) : Wide :=
  let fence := w.ending.get 0 r
  let last := decide (fence ≠ 0) && (decide (fence * 16384 ≤ l + 64) || decide (l < f / 16384 * 16384 + 16320))
  let again := w.restart.get 0 r
  { w with
    nextStamp := w.nextStamp.set 0 r (if last && again != 0 then (again - 1) * 16384 else l + 64)
    gapRoute := w.gapRoute.set 0 r (if last && again != 0 then 1 else 0)
    ending := if last then w.ending.set 0 r 0 else w.ending
    restart := if last then w.restart.set 0 r 0 else w.restart }

/-- Send the message with stamps f … l to its route (R184, R188). -/
def Module.sendSubband (m : Module) (x r f l : Nat) : Module :=
  let p := pgChn x
  let w := m.wd x
  let msg := w.message x (r % 64) r f l
  let m := m.setWd x (w.afterMessage r f l)
  let m := if msg.gap then m.bump p CHN_GAPS.GAPS else m
  m.send ⟨4 + x, 8 + r / 64, .dat, some (m.lv p ACTIVITY_ID.ACTIVITY), 1088, [], true, .subband msg⟩

/-- Every message of a route that is complete goes out. -/
def Module.flushRoute (m : Module) (x r : Nat) : Nat → Module
  | 0 => m
  | n + 1 =>
    match (m.wd x).nextMsg r with
    | some (f, l) => if m.routeOpen x r then (m.sendSubband x r f l).flushRoute x r n else m
    | none => m

/-- The routes on record: subscribed, or owed a last message. -/
def Wide.allRoutes (w : Wide) : List Nat :=
  (List.range 1024).filter fun r => decide (0 < w.subs.get 0 r) || w.ending.get 0 r != 0

def Module.flushRoutes (m : Module) (x : Nat) : Module :=
  (m.wd x).allRoutes.foldl (fun m r => m.flushRoute x r ((m.wd x).feed.got.length + (m.wd x).feed.vals.length + 1)) m

/-- SUBBAND_MESSAGE (R184): the next message of the route of cluster c and sub-band k. -/
def execSubbandMessage (x : Input) (c : Cluster) (k : Fin 64) (s : State) : Host.Outcome State Fault Refusal :=
  let r := routeKey c k
  .next (match (s.m.wd x).nextMsg r with
    | some (f, l) => if s.m.routeOpen x r then s.onM fun m => m.sendSubband x r f l else s
    | none => s)

/-- The channeliser can deliver at present (R187). -/
def Module.chnDelivers (m : Module) (x : Nat) : Bool := m.rd (pgChn x) CTRL.ENABLE == 1 && m.runState x == 2

/-- The INDEX that a completion returns (R187). -/
def Module.subIndex (m : Module) (x i : Nat) : Nat := if m.chnDelivers x then i % 2 ^ 32 else 0xFFFFFFFF

/-- The sample index that a forwarded mark is for. -/
def Mark.sample : Mark → Nat
  | .swap i => i.time / 16
  | .entry i => i.index
  | .pause i => i
  | .drop s => s.hi
  | _ => 0

/-- A cluster that has had no route gets the marks that the support of its first stamp reaches back to (R186), and the entry that
is in force there (log entry 127). -/
def Module.markRoute (m : Module) (x c from_ : Nat) : Module :=
  let w := m.wd x
  let lo := from_ - 1024
  let entry := ((entryAt w.feed.entries lo).map fun i => [Mark.entry i]).getD []
  if w.clusters.contains c then m
  else (entry ++ w.marks.filter fun k => decide (lo < k.sample) || (k.sample == lo && !entry.contains k)).foldl
    (fun m k => m.sendMark x k c) m

/-- Delivery of a route begins: with the first message whose slot 0 has not been computed, behind the last message that it is
still owed (R187). -/
def Module.openRoute (m : Module) (x r : Nat) : Module :=
  let m := m.flushRoute x r ((m.wd x).feed.got.length + (m.wd x).feed.vals.length + 1)
  let w := m.wd x
  let first := w.feed.nextMessage
  if w.ending.get 0 r ≠ 0 then m.setWd x { w with restart := w.restart.set 0 r (first + 1) }
  else (m.markRoute x (r / 64) (first * 16384)).setWd x { w with
      nextStamp := w.nextStamp.set 0 r (first * 16384), gapRoute := w.gapRoute.set 0 r 1 }

/-- Delivery of a route ends with the message in progress, where the route has reached it; one that would have begun later does
not begin (R187). -/
def Module.closeRoute (m : Module) (x r : Nat) : Module :=
  let m := m.flushRoute x r ((m.wd x).feed.got.length + (m.wd x).feed.vals.length + 1)
  let w := m.wd x
  let last := w.feed.inProgress
  m.setWd x { w with
    restart := w.restart.set 0 r 0
    ending := if m.runState x = 2 ∧ w.ending.get 0 r = 0 ∧ w.nextStamp.get 0 r < (last + 1) * 16384 then
        w.ending.set 0 r (last + 1)
      else w.ending }

/-- SUBSCRIBE (R187): the request at the head of 8 + c → 4 + x. The count stays within 17. -/
def execSubscribe (c : Cluster) (x : Input) (s : State) : Host.Outcome State Fault Refusal :=
  .next (match s.m.arrival (8 + c.val) (4 + x.val) with
    | some (.subscribe k b) =>
      s.onM fun m =>
        let m := m.takeArrival (8 + c.val) (4 + x.val)
        let r := routeKey c k
        let n := (m.wd x).subs.get 0 r
        let first := (m.wd x).feed.nextMessage
        let m := if n = 0 then m.openRoute x r else m
        let m := m.setWd x { m.wd x with subs := (m.wd x).subs.set 0 r (Nat.min 17 (n + 1)) }
        (m.bump (pgChn x) CHN_SUBS.ACCEPTED).post (4 + x) (8 + c) .cpl
          (.subDone k b true true (!m.chnDelivers x) (m.subIndex x first))
    | _ => s)

/-- UNSUBSCRIBE (R187). -/
def execUnsubscribe (c : Cluster) (x : Input) (s : State) : Host.Outcome State Fault Refusal :=
  .next (match s.m.arrival (8 + c.val) (4 + x.val) with
    | some (.unsubscribe k b) =>
      s.onM fun m =>
        let m := m.takeArrival (8 + c.val) (4 + x.val)
        let r := routeKey c k
        let n := (m.wd x).subs.get 0 r
        let last := (m.wd x).feed.inProgress
        if n = 0 then
          ((m.bump (pgChn x) CHN_SUBS.REFUSED).raise (pgChn x) 9).post (4 + x) (8 + c) .cpl (.subDone k b false false false 0)
        else
          let m := if n = 1 ∧ m.rd (pgChn x) CTRL.ENABLE = 1 then m.closeRoute x r else m
          let m := m.setWd x { m.wd x with subs := (m.wd x).subs.set 0 r (n - 1) }
          (m.bump (pgChn x) CHN_SUBS.ACCEPTED).post (4 + x) (8 + c) .cpl
            (.subDone k b false true (!m.chnDelivers x) (m.subIndex x last))
    | _ => s)

/-- A write of CTRL.ENABLE on the CHN page: delivery starts at the next message boundary, with GAP, and ends after the
message in progress. -/
def Module.enableChn (m : Module) (x : Nat) (on : Bool) : Module :=
  let p := pgChn x
  let was := m.rd p CTRL.ENABLE == 1
  let live := (List.range 1024).filter fun r => decide (0 < (m.wd x).subs.get 0 r)
  let m := if !on && was then live.foldl (fun m r => m.closeRoute x r) m else m
  let m := m.wr p CTRL.ENABLE on.toNat
  if on && !was then live.foldl (fun m r => m.openRoute x r) m else m

/-- A sub-band message lost to the budget (R188). -/
def Module.subbandDropped (m : Module) (x : Nat) : Module := (m.bump (pgChn x) CHN_DROP_MSGS.DROPS).raise (pgChn x) 8

/-- The sub-bands with a route to a cluster (R190), as a 64-bit mask, and how many there are. -/
def Wide.routes (w : Wide) (c : Nat) : Nat × Nat :=
  let on := (List.range 64).filter fun k => decide (0 < w.subs.get 0 (routeKey c k))
  ((on.map fun k => 2 ^ k).sum, on.length)

end Sys2Proof.Machine
end

