-- ==== Sys2Proof/Machine/Bricks.lean ====
section
/-! DEFINITION. The bricks of islands 8 to 23 (spec/06): the chain, frames and IQ messages, roles and epochs, spares. -/

namespace Sys2Proof.Machine

def Module.bk (m : Module) (n : Nat) : BrickSt := m.brick.get (BrickSt.init n) n
def Module.setBk (m : Module) (n : Nat) (b : BrickSt) : Module := { m with brick := m.brick.set (BrickSt.init n) n b }

/-! ## Settings -/

/-- The stage count (R194): the largest k ≤ 18 with Fo ≤ 500 MS/s ÷ 2^(j + k). -/
def stagesOf (span j : Nat) : Nat :=
  ((List.range 18).map (· + 1)).foldl (fun acc k => if span * 2 ^ (k + j) ≤ 400000000 then k else acc) 1

/-- The resampler is in use (R194). -/
def BrickCfg.resamp (c : BrickCfg) : Bool := c.span * 2 ^ (c.k + c.j) != 400000000

/-- A spectrum or IQ output is produced by a role with its DEST (R205). -/
def specUsed (role dest : Nat) : Bool := role == 1 || role == 3 || ((role == 4 || role == 5) && dest != 0)
def iqUsed (role dest : Nat) : Bool := role == 2 || role == 3 || ((role == 4 || role == 5) && dest != 0)

/-- The live settings of a brick. -/
def Module.brickCfg (m : Module) (n : Nat) : BrickCfg :=
  let p := pgBrk n
  let role := m.lv p BRK_ROLE.ROLE
  let j := if role = 4 then m.lv p BRK_SOURCE.REPLAY_LOG2 else 0
  { role := role, course := m.lv p BRK_ROLE.COURSE, subband := m.lv p BRK_SOURCE.SUBBAND
    nco := m.lv p BRK_NCO_LO.WORD + 2 ^ 32 * m.lv p BRK_NCO_HI.WORD, span := m.lv p BRK_SPAN.SPAN, j := j
    k := stagesOf (m.lv p BRK_SPAN.SPAN) j, specOn := specUsed role (m.lv p BRK_SPEC_CFG.DEST)
    specDest := m.lv p BRK_SPEC_CFG.DEST, complex := m.lv p BRK_SPEC_CFG.FORMAT == 1, log2m := m.lv p BRK_XFORM.LOG2M
    overlap := m.lv p BRK_XFORM.OVERLAP, window := m.lv p BRK_XFORM.WINDOW
    beta := m.lv p BRK_KAISER.BETA, first := m.lv p BRK_SPEC_BINS.FIRST
    count := m.lv p BRK_SPEC_BINS.COUNT, iqOn := iqUsed role (m.lv p BRK_IQ_CFG.DEST), iqDest := m.lv p BRK_IQ_CFG.DEST
    config := m.rd p COMMIT_STATUS.APPLY_COUNT }

/-- M, the hop and the transform interval (R200, R221). -/
def BrickCfg.size (c : BrickCfg) : Nat := 2 ^ c.log2m
def BrickCfg.hop (c : BrickCfg) : Nat := c.size / 2 ^ c.overlap
def BrickCfg.interval (c : BrickCfg) : Nat := if c.specOn then c.hop else 256

/-- The course island and the input of a brick's settings; course P shows input A (log entry 128). -/
def BrickCfg.island (c : BrickCfg) : Nat := courseIsland c.course
def BrickCfg.input (c : BrickCfg) : Nat := c.course % 4

/-- A live role: every role but IDLE and REPLAY (R192). -/
def BrickCfg.live (c : BrickCfg) : Bool := c.role != 0 && c.role != 4

/-- STAGES of a header (R202). -/
def BrickCfg.stages (c : BrickCfg) : Nat := c.k + flag c.resamp 7

/-! ## Outputs and their supports (R197, R198) -/

/-- The stamp of output m in TIME64 units. -/
def BrickCfg.stamp (c : BrickCfg) (m : Nat) : Nat := m * 2048000000000 / (5 * c.span)

/-- The first output whose stamp is at or after a TIME64 value. -/
def BrickCfg.firstAt (c : BrickCfg) (t : Nat) : Nat := ceilDiv (t * 5 * c.span) 2048000000000

/-- Half the support of the half-band stages, in input samples. -/
def BrickCfg.reach (c : BrickCfg) : Nat := 23 * (2 ^ c.k - 1)

/-- The chain sample at or before the instant of output m. An output that falls on one takes the seven before it and the eight
after it (log entry 129). -/
def BrickCfg.chainAt (c : BrickCfg) (m : Nat) : Nat := m * 400000000 / (c.span * 2 ^ (c.k + c.j))

/-- The support of output m in input samples (R197), where it begins at or after sample 0. -/
def BrickCfg.support (c : BrickCfg) (m : Nat) : Span :=
  let i := c.chainAt m
  if c.resamp then ⟨(i - 7) * 2 ^ c.k - c.reach, (i + 8) * 2 ^ c.k + c.reach⟩
  else ⟨i * 2 ^ c.k - c.reach, i * 2 ^ c.k + c.reach⟩

/-- The first output whose support begins at or after an input sample. -/
def BrickCfg.firstFrom (c : BrickCfg) (l : Nat) : Nat :=
  let i := ceilDiv (l + c.reach) (2 ^ c.k) + if c.resamp then 7 else 0
  ceilDiv (i * (c.span * 2 ^ (c.k + c.j))) 400000000

/-- The support of outputs a … b. -/
def BrickCfg.supports (c : BrickCfg) (a b : Nat) : Span := ⟨(c.support a).lo, (c.support b).hi⟩

/-- Input samples as corrected-sample indices, with the channeliser's own support (R181). -/
def BrickCfg.indices (c : BrickCfg) (s : Span) : Span :=
  ⟨s.lo * 64 * 2 ^ c.j - 1024, s.hi * 64 * 2 ^ c.j + 1023⟩

/-! ## The values of outputs (R193–R197) -/

/-- The NCO at an input: its phase φ = (W × s ÷ 64) mod 2^48, zero at TIME64 zero (R193). -/
def BrickCfg.mixed (c : BrickCfg) (vals : List (Nat × List Cx)) (lo : Int) (n : Nat) : List Cx :=
  ((List.range n).zip (gather (0, 0) vals lo.toNat n)).map fun p =>
    Cx.back p.2 (turn (c.nco * ((lo.toNat + p.1) * 2 ^ c.j) % 2 ^ 48) (2 ^ 48))

/-- Output m in units of 1 ÷ `unit`: the NCO, k half-band stages, and the resampler where it is in use (R192). -/
def BrickCfg.output (c : BrickCfg) (vals : List (Nat × List Cx)) (m : Nat) : Cx :=
  let i : Int := c.chainAt m
  let d := c.span * 2 ^ (c.k + c.j)
  if c.resamp then resampled (m * 400000000 % d) d (chainSamples (c.mixed vals) c.k (i - 7) 16)
  else (chainSamples (c.mixed vals) c.k i 1).headD (0, 0)

def BrickCfg.unit (c : BrickCfg) : Nat := 2 ^ (223 + 30 * c.k + if c.resamp then 30 else 0)

/-! ## What arrives (R186, R199) -/

/-- The bricks of a cluster that take a sub-band of an input. -/
def Module.takers (m : Module) (c x k : Nat) : List Nat :=
  ((List.range 16).map (16 * c + ·)).filter fun n =>
    let f := m.brickCfg n
    f.live && f.course == x && f.subband == k && m.rd (pgBrk n) BRK_STATUS.FAILED == 0
      && m.rd (pgBrk n) BRK_ROUTE.SUBSCRIBED == 1

/-- A sub-band message enters the chain of a brick; a message missing from an unbroken INDEX sequence enters as zero
(R199). `held` when a loop that flags the brick is outside LOCKED in its island's view (R69). -/
def BrickSt.feed (b : BrickSt) (g : SubMsg) (held : Bool) : BrickSt :=
  let base := g.stamp / 16 / 64
  let s : Span := ⟨base + g.first, base + g.first + g.count - 1⟩
  let hole := match b.got.getLast? with
    | some r => if !g.gap && !b.paused && decide (r.hi + 1 < s.lo) then [(⟨r.hi + 1, s.lo - 1⟩ : Span)] else []
    | none => []
  { b with
    got := extendRun (hole.foldl extendRun b.got) s, lost := b.lost ++ hole
    vals := b.vals ++ [(s.lo, g.slots.map fun z => (z.1 * 2 ^ 129, z.2 * 2 ^ 129))]
    tainted := b.tainted ++ g.taints.map fun i => ⟨base + i, base + i⟩
    hold := if held then b.hold ++ [s] else b.hold
    paused := false, nextIndex := some (g.index + 1) }

/-- The marks that cluster c has of input x. -/
def Module.marksOf (m : Module) (c x : Nat) : List Mark := m.marks.get [] (4 * c + x)

/-- Swap marks, entry marks and DROP marks among marks. -/
def Mark.swapOf : Mark → Option SwapInfo
  | .swap i => some i
  | _ => none
def Mark.entryOf : Mark → Option EntryInfo
  | .entry i => some i
  | _ => none
def Mark.dropOf : Mark → Option Span
  | .drop s => some s
  | _ => none

/-- A mark with its sample and time as the raw TIME64 gives them, which is how a brick counts its inputs (R198). -/
def Mark.raw : Mark → Mark
  | .swap i => .swap { i with time := i.time % 2 ^ 64 }
  | .entry i => .entry { i with index := i.index % 2 ^ 60 }
  | .pause i => .pause (i % 2 ^ 60)
  | .drop s => .drop ⟨s.lo % 2 ^ 60, s.hi % 2 ^ 60⟩
  | k => k

/-- A forwarded mark reaches a cluster: every brick of the input has it; after a CAL_PAUSE a missing message is accounted for. -/
def Module.brickMark (m : Module) (c x : Nat) (k : Mark) : Module :=
  let m := { m with marks := m.marks.set [] (4 * c + x) (m.marksOf c x ++ [k.raw]) }
  match k with
  | .pause _ => ((List.range 16).map (16 * c + ·)).foldl (fun m n =>
      if (m.brickCfg n).live && (m.brickCfg n).course == x then m.setBk n { m.bk n with paused := true } else m) m
  | _ => m

/-- A subscription completion reaches a cluster (R187, R212): the route of a SUBSCRIBE that is still the brick's lives. -/
def Module.brickSubDone (m : Module) (x k n : Nat) (on accepted : Bool) (index : Nat) : Module :=
  let p := pgBrk n
  let m := m.wr p BRK_ROUTE_INDEX.INDEX index
  let c := m.brickCfg n
  if on && accepted && c.live && c.input == x && c.subband == k then
    (((m.wr p BRK_ROUTE.SUBSCRIBED 1).wr p BRK_ROUTE.SUBBAND c.subband).wr p BRK_ROUTE.INPUT c.input).wr p
      BRK_STATUS.SUBSCRIBED 1
  else m

/-! ## Emission -/

/-- The loops that flag a brick (R68). -/
def BrickCfg.loops (c : BrickCfg) : List Nat := if c.course = 4 then [0, 5] else [0, 5, c.course + 1]

/-- The flags of an output whose support is `s` (R204), but for BUDGET_DROP of earlier drops, GAP and CONFIG_CHANGE. -/
def Module.brickFlags (m : Module) (n : Nat) (c : BrickCfg) (s : Span) : Nat :=
  let b := m.bk n
  let i := c.indices s
  let marks := if c.live then m.marksOf (n / 16) c.input else []
  let entries := marks.filterMap Mark.entryOf
  let kept := (b.marked.filter fun r => decide (r.1.lo ≤ s.hi) && decide (s.lo ≤ r.1.hi)).foldl (fun a r => a ||| r.2.1) 0
  (flag (touches b.tainted s) 0 + flag (touches b.hold s) 1 + flag (injectedIn entries i) 2
    + flag (touches b.lost s || touches (marks.filterMap Mark.dropOf) i) 3 + flag (swappedIn (marks.filterMap Mark.swapOf) i) 5
    + flag (entryChange entries i) 6) ||| kept

/-- ENTRY at the first sample of a support (R202, R203; log entry 130): that of the marks, or of the replay message it lies in. -/
def Module.brickEntry (m : Module) (n : Nat) (c : BrickCfg) (s : Span) : Nat :=
  if c.live then entryWord ((m.marksOf (n / 16) c.input).filterMap Mark.entryOf) (c.indices s).lo
  else (((m.bk n).marked.find? fun r => decide (r.1.lo ≤ s.lo) && decide (s.lo ≤ r.1.hi)).map fun r => r.2.2).getD 0

/-- The stamps of outputs that may be emitted at all: from the start on, before the stop (R215, R216). -/
def BrickSt.emits (b : BrickSt) (t : Nat) : Bool :=
  (match b.emitFrom with
   | some a => decide (a ≤ t)
   | none => false) && match b.emitTo with
   | some e => decide (t < e)
   | none => true

/-- The next point of a lattice at or after m. -/
def latticeFrom (origin step m : Nat) : Nat := if m ≤ origin then origin else origin + nextMultiple (m - origin) step

/-- An output still belongs to the stretch. -/
def BrickGrid.holds (g : BrickGrid) (a : Nat) : Bool := (g.stop.map fun e => decide (a < e)).getD true

/-- No output stamped at or after a TIME64 value. -/
def BrickGrid.cutAt (g : BrickGrid) (t : Nat) : BrickGrid :=
  { g with stop := some (Nat.min (g.stop.getD (g.cfg.firstAt t)) (g.cfg.firstAt t)) }

/-- The next frame of a grid that a whole run supports: its first output, and the run. -/
def BrickGrid.ready (g : BrickGrid) (got : List Span) : Option (Nat × Nat) :=
  let c := g.cfg
  let at_ := fun (r : Span) => latticeFrom g.origin c.hop (Nat.max g.next (c.firstFrom r.lo))
  (got.find? fun r => decide ((c.support (at_ r + c.size - 1)).hi ≤ r.hi)).map fun r => (at_ r, r.lo)

/-- GAP of an item that comes from the run that begins at `lo` (R204): the first one of its stretch that is due it, or the first
after a resumption. -/
def BrickGrid.gapAt (g : BrickGrid) (lo : Nat) : Bool := g.gap || (g.run != 0 && g.run != lo + 1)

/-- A stretch after an item: the next output is `a`. -/
def BrickGrid.past (g : BrickGrid) (a lo : Nat) : BrickGrid :=
  { g with next := a, gap := false, change := false, fresh := false, run := lo + 1 }

/-- The cores of a brick's DEST field (R401): bit 3 the cluster core of its cluster, bit 4 the course core of its course. -/
def BrickCfg.coresOf (c : BrickCfg) (n dest : Nat) : List Nat :=
  (if bit dest 3 then [n / 16] else []) ++ (if bit dest 4 then [16 + c.input] else [])

/-- The islands of a brick's DEST field (R205), with the core where it names one. -/
def Module.brickDests (m : Module) (c : BrickCfg) (n dest : Nat) : List (Nat × Option Nat) :=
  (if bit dest 0 then [(c.island, none)] else []) ++ (if bit dest 1 then [(28, none)] else [])
    ++ (if bit dest 2 then [(29, none)] else []) ++ (c.coresOf n dest).map fun k => (m.coreIsl k, some k)

/-- What every emitted item does to the counters (R225), and TAINT_ONSET; `time` is the stamp of its last output, for a spectrum
its FRAME_TIME (log entry 131). -/
def Module.brickItem (m : Module) (n flags time : Nat) : Module :=
  let p := pgBrk n
  let taint := bit flags 0
  let m := if taint then m.bump p BRK_TAINTED.OUTPUTS else m
  let m := if bit flags 4 then m.bump p BRK_GAPS.OUTPUTS else m
  let m := if taint && !(m.bk n).lastTaint then m.raise p 12 else m
  (m.setBk n { m.bk n with lastTaint := taint }).wr64 p BRK_LAST_TIME_LO.TIME BRK_LAST_TIME_HI.TIME time

/-- Send a spectrum of a brick, split as in R175. -/
def Module.sendBrickSpectrum (m : Module) (n : Nat) (to_ : Nat × Option Nat) (act : Nat) (realTime : Bool) (sp : Spectrum) :
    Module :=
  let dst := to_.1
  let body := match to_.2 with
    | some k => Body.coreSpectrum k sp
    | none => .spectrum sp
  let sizes := pieces (ceilDiv (32 + sp.bytes) 4096) (32 + sp.bytes)
  let m := sizes.dropLast.foldl (fun m k =>
    m.send ⟨8 + n / 16, dst, .dat, some act, k, [], realTime, .specPiece (4 + n) sp.seq false⟩) m
  m.send ⟨8 + n / 16, dst, .dat, some act, sizes.getLastD 0, [], realTime, body⟩

/-- The spectrum of the frame of a grid at output a, from the run that begins at `lo` (R200–R204). -/
def Module.brickFrame (m : Module) (n : Nat) (g : BrickGrid) (a lo : Nat) : Module :=
  let p := pgBrk n
  let c := g.cfg
  let b := m.bk n
  let s := c.supports a (a + c.size - 1)
  let flags := m.brickFlags n c s ||| flag b.dropSpec 3 ||| flag (g.gapAt lo) 4 ||| flag g.change 7
  let (base, m) := m.draw (unitCount c.log2m)
  let fb := complexBins (freeUnits base) c.log2m c.unit (windowList c.window c.beta (fun _ => 0) c.log2m)
    ((List.range c.size).map fun i => c.output b.vals (a + i))
  let seq := if g.fresh then 0 else b.specSeq
  let sp : Spectrum := {
    time := c.stamp a % 2 ^ 64, seq := seq % 2 ^ 32, input := c.input, columns := false, complex := c.complex
    detector := 0, window := c.window, overlap := c.overlap, log2n := c.log2m, flags := flags
    finalExp := fb.exp, first := c.first, count := c.count
    entry := m.brickEntry n c s, config := c.config, bytes := binBytes c.complex c.count
    brick := some n, course := c.course, epoch := m.rd p BRK_EPOCH.EPOCH, stages := c.stages, replay := c.role == 4
    payload := fb.binPayload c.complex c.first c.count }
  let m := (m.setBk n { b with specSeq := seq + 1, dropSpec := false }).wr p BRK_SPEC_SEQ.SEQUENCE seq
  let m := (m.brickItem n flags sp.time).addWork 8 1
  (m.brickDests c n c.specDest).foldl (fun m d =>
    m.sendBrickSpectrum n d (m.lv p ACTIVITY_ID.ACTIVITY) (c.role != 4) sp) m

/-- BRICK_SPECTRUM (R202): the next frame of the oldest grid; a grid that has no more is over (R211, R216). -/
def execBrickSpectrum (n : Brick) (s : State) : Host.Outcome State Fault Refusal :=
  .next (match (s.m.bk n).grids with
    | g :: rest =>
      if !g.holds g.next then s.onM fun m => m.setBk n { m.bk n with grids := rest }
      else
        match g.ready (s.m.bk n).got with
        | some (a, lo) =>
          if !g.holds a then s.onM fun m => m.setBk n { m.bk n with grids := rest }
          else if s.m.rd (pgBrk n) BRK_STATUS.FAILED = 0 then
            s.onM fun m =>
              let m := m.brickFrame n g a lo
              m.setBk n { m.bk n with grids := g.past (a + 1) lo :: rest }
          else s
        | none => s
    | [] => s)

/-- The IQ message that is open (R203): its stretch, its first output, how many slots are filled, the start of its run, and whether
it is complete: slot 255 is filled, its run is over, or its stretch is. A stretch that has no more outputs is passed over. -/
def openIn (got : List Span) : List BrickGrid → Option (BrickGrid × Nat × Nat × Nat × Bool)
  | [] => none
  | g :: rest =>
    let c := g.cfg
    let at_ := fun (r : Span) => Nat.max g.next (c.firstFrom r.lo)
    match got.find? fun r => decide ((c.support (at_ r)).hi ≤ r.hi) with
    | some r =>
      let a := at_ r
      let room := 256 - (a - g.origin) % 256
      let k := ((List.range room).takeWhile fun i => decide ((c.support (a + i)).hi ≤ r.hi) && g.holds (a + i)).length
      let last := got.getLast?.map Span.lo == some r.lo
      if k = 0 then openIn got rest else some (g, a, k, r.lo, k == room || !last || !g.holds (a + k))
    | none => none

def BrickSt.openIq (b : BrickSt) : Option (BrickGrid × Nat × Nat × Nat × Bool) := openIn b.got b.iqs

/-- Stretches of IQ outputs that have no more are over. -/
def BrickSt.trimIqs (b : BrickSt) : BrickSt :=
  { b with iqs := b.iqs.filter fun g => g.holds g.next }

/-- The open message of a brick counts its time from the moment it holds a slot (R203). -/
def Module.noteIq (m : Module) (n : Nat) : Module :=
  let b := m.bk n
  if b.openIq.isNone then m.setBk n { b with iqSince := none }
  else if b.iqSince.isNone then m.setBk n { b with iqSince := some m.clk.ticks } else m

/-- Close the IQ message of outputs a … a + k − 1 and send it (R203, R204). -/
def Module.closeIq (m : Module) (n : Nat) (g : BrickGrid) (a k lo : Nat) : Module :=
  let p := pgBrk n
  let c := g.cfg
  let b := m.bk n
  let slot := (a - g.origin) % 256
  let s := c.supports a (a + k - 1)
  let flags := m.brickFlags n c s ||| flag b.dropIq 3 ||| flag (g.gapAt lo) 4 ||| flag g.change 7
  let out := (List.range k).map (a + ·)
  let seq := if g.fresh then 0 else b.iqSeq
  let zero : Cx := (0, 0)
  let msg : IqMsg := {
    stamp := c.stamp (a - slot) % 2 ^ 64, seq := seq % 2 ^ 32, brick := n, epoch := m.rd p BRK_EPOCH.EPOCH, flags := flags
    first := slot, count := k, stages := c.stages, course := c.course, replay := c.role == 4, rate := 5 * c.span / 4
    entry := m.brickEntry n c (c.support a), config := c.config
    taints := (out.filter fun i => touches b.tainted (c.support i)).map fun i => (i - g.origin) % 256
    stamps := out.map fun i => c.stamp i % 2 ^ 64
    payload := ⟨[], blocksOf c.unit 4 (List.replicate slot zero ++ out.map (c.output b.vals)
      ++ List.replicate (256 - slot - k) zero)⟩ }
  let m := (m.setBk n { b with
      iqs := g.past (a + k) lo :: (b.iqs.dropWhile fun h => h != g).drop 1, iqSeq := seq + 1, dropIq := false, iqSince := none }.trimIqs).wr p
    BRK_IQ_SEQ.SEQUENCE seq
  let m := (m.brickItem n flags (c.stamp (a + k - 1) % 2 ^ 64)).noteIq n
  (m.brickDests c n c.iqDest).foldl (fun m d =>
    let body := match d.2 with
      | some j => Body.coreIq j msg
      | none => .iq msg
    m.send ⟨8 + n / 16, d.1, .dat, some (m.lv p ACTIVITY_ID.ACTIVITY), 1104, [], c.role != 4, body⟩) (m.addWork 9 k)

/-- BRICK_IQ_MESSAGE (R203): a message that is complete. -/
def execBrickIqMessage (n : Brick) (s : State) : Host.Outcome State Fault Refusal :=
  .next (match (s.m.bk n).openIq with
    | some (g, a, k, lo, whole) =>
      if whole && s.m.rd (pgBrk n) BRK_STATUS.FAILED == 0 then s.onM fun m => m.closeIq n g a k lo else s
    | none => s)

/-- IQ_MESSAGE_TIMEOUT (R203): 1,024 budget periods after its slot FIRST was filled, a message closes as a partial one. -/
def execIqMessageTimeout (n : Brick) (s : State) : Host.Outcome State Fault Refusal :=
  .next (match (s.m.bk n).openIq, (s.m.bk n).iqSince with
    | some (g, a, k, lo, _), some t =>
      if t + 2097152 ≤ s.m.clk.ticks ∧ s.m.rd (pgBrk n) BRK_STATUS.FAILED = 0 then s.onM fun m => m.closeIq n g a k lo else s
    | _, _ => s)

/-- A sub-band message reaches a cluster; one stamped before the last wrap is in no output any more (R198; log entry 152). -/
def Module.brickFeed (m : Module) (c : Nat) (g : SubMsg) : Module :=
  if m.now + 2 ^ 63 < g.stamp then m
  else (m.takers c g.input g.subband).foldl (fun m n =>
    (m.setBk n ((m.bk n).feed g (m.holdover (8 + c) (m.brickCfg n).loops))).noteIq n) m

/-- An output lost to the budget (R224). -/
def Module.brickDropped (m : Module) (n : Nat) (iq : Bool) : Module :=
  let b := m.bk n
  let m := m.setBk n (if iq then { b with dropIq := true } else { b with dropSpec := true })
  (m.bump (pgBrk n) (if iq then BRK_DROPPED.IQ_MSGS else BRK_DROPPED.SPECTRA)).raise (pgBrk n) 9

/-! ## Epoch-checked messages (R208) -/

/-- The epoch check: `act` when the message is current; STALE_ROLE otherwise; BRICK_FAILED from a FAILED brick (R222). -/
def Module.epochChecked (m : Module) (n course sender msgEpoch kind : Nat) (act : Module → Module) : Module :=
  let p := pgBrk n
  let e := m.rd p BRK_EPOCH.EPOCH
  if msgEpoch ≠ e then
    let m := (m.bump p BRK_STALE.COUNT).wr p BRK_STALE_LAST.SENDER sender
    let m := ((m.wr p BRK_STALE_LAST.KIND kind).wr p BRK_STALE_LAST.MSG_EPOCH msgEpoch).wr p BRK_STALE_LAST.EPOCH e
    (m.raise p 8).postMgt (8 + n / 16) sender .cpl (.staleRole course n msgEpoch e kind)
  else if m.rd p BRK_STATUS.FAILED = 1 then m.postMgt (8 + n / 16) sender .cpl (.brickFailed course n kind)
  else act m

/-- The stretches that begin with settings c at output `next`, with the lattice that starts at `origin`. -/
def BrickSt.stretches (b : BrickSt) (c : BrickCfg) (origin next : Nat) (gap change fresh : Bool) : BrickSt :=
  let run := fun (l : List BrickGrid) => (l.getLast?.map BrickGrid.run).getD 0
  let g := fun (l : List BrickGrid) => (⟨c, origin, next, none, gap, change, fresh, run l⟩ : BrickGrid)
  { b with
    grids := if c.specOn then b.grids ++ [g b.grids] else b.grids
    iqs := if c.iqOn then b.iqs ++ [g b.iqs] else b.iqs }

/-- The outputs under way end with the one before a TIME64 value. -/
def BrickSt.cutAt (b : BrickSt) (t : Nat) : BrickSt :=
  { b with grids := b.grids.map fun g => BrickGrid.cutAt g t, iqs := b.iqs.map fun g => BrickGrid.cutAt g t }.trimIqs

/-- Begin emission at a start tick (R208, R215): the lattices start at the first output at or after it. Frames that start before
an earlier stop complete; after a commit that kept the chain nothing stamped before its commit point comes again (R201, R211). -/
def Module.beginEmission (m : Module) (n tick : Nat) : Module :=
  let c := m.brickCfg n
  let b := m.bk n
  let t := tick64 tick
  let a := c.firstAt t
  let b := b.cutAt (b.emitTo.getD t)
  let b := { b with emitFrom := some t, emitTo := none, gate := none, newConfig := false }.stretches c a
    (Nat.max a (c.firstAt ((m.bk n).gate.getD 0))) true (m.bk n).newConfig true
  (m.setBk n b).noteIq n

/-- End emission at a stop tick (R208, R216): frames that start before it complete, and the IQ message closes as a partial one. -/
def Module.endEmission (m : Module) (n tick : Nat) : Module :=
  (m.setBk n ({ m.bk n with emitTo := some (tick64 tick) }.cutAt (tick64 tick))).noteIq n

/-- STALE_ROLE at course island 24 + d (R210): counted, nothing else. -/
def execStaleRole (c : Cluster) (d : Input) (s : State) : Host.Outcome State Fault Refusal :=
  .next (match s.m.arrival (8 + c.val) (24 + d.val) with
    | some (.staleRole course _ _ _ _) =>
      s.onM fun m =>
        ((m.takeArrival (8 + c.val) (24 + d.val)).bump (pgCrs course) CRS_STALE.COUNT).raise (pgCrs course) 12
    | _ => s)

/-! ## Spare bricks (R219–R222) -/

/-- The bricks of a cluster. -/
def clusterBricks (c : Nat) : List Nat := (List.range 16).map (16 * c + ·)

/-- A SUBSCRIBE or UNSUBSCRIBE of a brick for a route, charged to its activity and held while it has no budget (R212). -/
def Module.subscribeRoute (m : Module) (n x k : Nat) (on : Bool) : Module :=
  m.send ⟨8 + n / 16, 4 + x, .req, some (m.lv (pgBrk n) ACTIVITY_ID.ACTIVITY), 16, [], false,
    if on then .subscribe k n else .unsubscribe k n⟩

/-- A substitution order reaches the cluster (R219, R222): the spare is taken and subscribes, or, with no spare left, the
brick enters FAILED. -/
def Module.brickOrder (m : Module) (n syndrome : Nat) : Module :=
  let p := pgBrk n
  let c := m.brickCfg n
  if m.rd p BRK_PHYS.CLUSTER_SPARE = 1 then
    let m := (clusterBricks (n / 16)).foldl (fun m k => m.wr (pgBrk k) BRK_PHYS.CLUSTER_SPARE 0) m
    let m := (m.setBk n { m.bk n with switching := some syndrome }).wr p BRK_STATUS.SWITCH_PENDING 1
    if c.live then m.subscribeRoute n c.input c.subband true else m
  else
    ((m.wr p BRK_STATUS.FAILED 1).raise p 11).spareExhausted (8 + n / 16) 2 n

/-- The switch itself (R221): the spare serves the logical brick; the old physical brick unsubscribes. -/
def Module.brickSwitched (m : Module) (n : Nat) : Module :=
  let p := pgBrk n
  let c := m.brickCfg n
  let b := m.bk n
  let m := ((m.setBk n { b with slot := 16, switching := none }).wr p BRK_STATUS.SWITCH_PENDING 0).wr p STATUS.SPARE_IN_USE 1
  let m := if c.live then m.subscribeRoute n c.input c.subband false else m
  let m := (m.recordSubst 2 1 n b.slot 16 (some (304 + 17 * (n / 16) + b.slot))).clearSevere (304 + 17 * (n / 16) + b.slot)
  (m.raise p 10).raise (pgCrs (if c.course = 4 then 4 else c.course)) 11

/-- SPARE_WARM (R219): the spare of cluster c can produce output from the interval start E on. -/
def execSpareWarm (c : Cluster) (e : Word64) (s : State) : Host.Outcome State Fault Refusal :=
  .next (match (clusterBricks c).find? fun n => (s.m.bk n).switching.isSome with
    | some n =>
      s.onM fun m =>
        let f := m.brickCfg n
        if f.role = 0 ∨ m.rd (pgCrs f.course) CRS_STATUS.RUN_STATE = 0 then m.brickSwitched n
        else m.postMgt (8 + c) f.island .evt (.switchReq f.course n e.toNat)
    | none => s)

/-- The old brick emits nothing stamped at or after B, the outputs of [B, B + I) are lost, and the spare's own start at B + I with
GAP (R221). -/
def Module.switchAt (m : Module) (n b : Nat) : Module :=
  let c := m.brickCfg n
  let k := m.bk n
  let mb := c.firstAt b
  let cut := k.cutAt b
  let m := if k.emitFrom.isSome then m.setBk n (cut.stretches c mb (mb + c.interval) true false false) else m
  (((m.noteIq n).wr64 (pgBrk n) BRK_SWITCH_LO.B BRK_SWITCH_HI.B b).brickSwitched n)

/-! ## Replay (R217, R218) -/

/-- The values of a message's slots in 2^−143 (R203). -/
def IqMsg.values (g : IqMsg) : List Cx :=
  ((g.payload.blocks.flatMap fun b => b.2.map fun (z : Cx) =>
    (z.1 * 2 ^ (b.1 + 128).toNat, z.2 * 2 ^ (b.1 + 128).toNat)).drop g.first).take g.count

/-- A replay message enters the chain: its slots, its taints, its flags and its ENTRY; `held` as in `feed`. -/
def BrickSt.feedReplay (b : BrickSt) (j : Nat) (g : IqMsg) (held : Bool) : BrickSt :=
  let base := g.stamp / 16 / (64 * 2 ^ j)
  let s : Span := ⟨base + g.first, base + g.first + g.count - 1⟩
  { b with
    got := extendRun b.got s, vals := b.vals ++ [(s.lo, g.values)]
    tainted := b.tainted ++ g.taints.map fun i => ⟨base + i, base + i⟩
    hold := if held then b.hold ++ [s] else b.hold
    marked := b.marked ++ [(s, g.flags / 2 % 128 * 2, g.entry)] }

/-- REPLAY_DATA is processed; one credit goes back for the message consumed (R208, R218). -/
def Module.takeReplay (m : Module) (g : IqMsg) : Module :=
  let n := g.brick
  let m := m.setBk n ((m.bk n).feedReplay (m.brickCfg n).j g (m.holdover (8 + n / 16) [0, 5]))
  (m.noteIq n).send
    ⟨8 + n / 16, 24, .evt, some (m.lv (pgBrk n) ACTIVITY_ID.ACTIVITY), 16, [], false, .replayCredit n⟩

/-! ## The BRK page -/

/-- The course that plays back has a member (R217). -/
def Module.members (m : Module) (d : Nat) : List Nat :=
  (List.range 256).filter fun n => m.lv (pgBrk n) BRK_ROLE.ROLE != 0 && m.lv (pgBrk n) BRK_ROLE.COURSE == d

/-- A role and its destinations break the table of R205. -/
def roleBreaks (role course sd qd : Nat) : Bool :=
  match role with
  | 0 => false
  | 1 => decide (3 < course) || sd == 0
  | 2 => decide (3 < course) || qd == 0
  | 3 => decide (3 < course) || sd == 0 || qd == 0
  | 4 => course != 4 || (sd == 0 && qd == 0)
  | 5 => decide (3 < course) || (sd == 0 && qd == 0) || decide (1 < sd) || decide (1 < qd)
  | _ => false

/-- The checks of a BRK snapshot (R195, R205, R217, R222, R225). -/
def checkBrk (m : Module) (n : Nat) (snap : Store Nat) : List Bad :=
  let p := pgBrk n
  let g := fun (f : Fld) => snapGet snap p f
  let role := g BRK_ROLE.ROLE
  let course := g BRK_ROLE.COURSE
  let sd := g BRK_SPEC_CFG.DEST
  let qd := g BRK_IQ_CFG.DEST
  let j := g BRK_SOURCE.REPLAY_LOG2
  let w := (toSigned 48 (g BRK_NCO_LO.WORD + 2 ^ 32 * g BRK_NCO_HI.WORD)).natAbs
  let span := g BRK_SPAN.SPAN
  let lm := g BRK_XFORM.LOG2M
  chk (role != 0 && m.rd p CTRL.ENABLE == 0) 0x040 0x80 ++ chk (role != 0 && m.rd p BRK_STATUS.FAILED == 1) 0x040 0x81
  ++ chk (decide (5 < role) || decide (4 < course)) 0x040 2 ++ chk (decide (course ≤ 4) && roleBreaks role course sd qd) 0x040 4
  ++ chk (decide (18 < j)) 0x044 2 ++ chk (role == 4 && j != m.lv (pgCrs 4) CRS_REPLAY.LOG2) 0x040 4
  ++ chk (decide (450000000 * 2 ^ 48 < w * 1000000000 + span * 2 ^ 48)) 0x048 2
  ++ chk (span == 0) 0x050 1 ++ chk (span != 0 && outside 1000 200000000 span) 0x050 2
  ++ chk (role == 4 && decide (200000000 < span * 2 ^ j)) 0x040 2
  ++ chk (lm == 0) 0x060 1 ++ chk (lm != 0 && outside 3 14 lm) 0x060 2 ++ chk (g BRK_XFORM.OVERLAP == 3) 0x060 2
  ++ chk (decide (5 < g BRK_XFORM.WINDOW)) 0x060 2 ++ chk (g BRK_XFORM.WINDOW == 5) 0x060 4
  ++ chk (decide (40960 < g BRK_KAISER.BETA)) 0x064 2
  ++ chk (specUsed role sd && g BRK_SPEC_CFG.FORMAT == 1 && (bit sd 1 || bit sd 2)) 0x040 4
  ++ chk (g BRK_SPEC_BINS.COUNT == 0) 0x06C 1
  ++ chk (decide (2 ^ lm < g BRK_SPEC_BINS.FIRST + g BRK_SPEC_BINS.COUNT)) 0x060 2
  ++ chk (iqUsed role qd && (bit qd 1 || bit qd 2)) 0x040 4

/-- The cores that the old or the new settings name (R207). -/
def roleCores (n : Nat) (old new : BrickCfg) : List Nat :=
  let of := fun (c : BrickCfg) =>
    if c.role = 0 then [] else (if c.specOn then c.coresOf n c.specDest else []) ++ (if c.iqOn then c.coresOf n c.iqDest else [])
  (of old ++ of new).dedup

/-- The epoch increments and ROLE_CHANGE goes out (R206, R207). -/
def Module.roleWritten (m : Module) (n : Nat) (old new : BrickCfg) : Module :=
  let p := pgBrk n
  let e := (m.rd p BRK_EPOCH.EPOCH + 1) % 256
  let m := (m.wr p BRK_EPOCH.EPOCH e).bump p BRK_EPOCH.ROLE_WRITES
  let m := [old.island, new.island].dedup.foldl (fun m i =>
    m.postMgt (8 + n / 16) i .evt (.roleChange n e new.role new.course)) m
  let cores := roleCores n old new
  (cores.map m.coreIsl).dedup.foldl (fun m i =>
    m.postMgt (8 + n / 16) i .evt (.coreRole (cores.filter fun k => m.coreIsl k == i) n e new.role new.course)) m

/-- The routes of the old and new settings (R212). -/
def Module.reroute (m : Module) (n : Nat) (old new : BrickCfg) : Module :=
  let p := pgBrk n
  if old.live = new.live ∧ old.input = new.input ∧ old.subband = new.subband then m
  else
    let m := if old.live then m.subscribeRoute n old.input old.subband false else m
    let m := (m.wr p BRK_ROUTE.SUBSCRIBED 0).wr p BRK_STATUS.SUBSCRIBED 0
    if new.live then m.subscribeRoute n new.input new.subband true else m

/-- A flush of the chain at the commit point (R211): nothing before input `point` counts any more, and nothing at all of another
route. Outputs go on from there, unless the role was written: then they wait for an EMIT_START of the new epoch. -/
def Module.flushChain (m : Module) (n point : Nat) (keep written : Bool) (new : BrickCfg) : Module :=
  let b := m.bk n
  let a := new.firstAt (b.emitFrom.getD 0)
  let b' := { BrickSt.init n with
    slot := b.slot, switching := b.switching, newConfig := true, iqSeq := b.iqSeq, specSeq := b.specSeq
    dropSpec := b.dropSpec, dropIq := b.dropIq, lastTaint := b.lastTaint, tainted := if keep then b.tainted else [], lost := if keep then b.lost else []
    hold := if keep then b.hold else []
    got := if keep then (b.got.filter fun r => decide (point ≤ r.hi)).map fun r => ⟨Nat.max point r.lo, r.hi⟩ else []
    vals := if keep then b.vals else [], nextIndex := if keep then b.nextIndex else none }
  if written || b.emitFrom.isNone then m.setBk n b'
  else
    (m.setBk n ({ b' with emitFrom := b.emitFrom, emitTo := b.emitTo, newConfig := false }.stretches new a
      (Nat.max a (new.firstFrom point)) true true false)).noteIq n

/-- A change confined to the transform or the destinations (R211): the frames are re-anchored at the commit point, and the old
ones complete first; an IQ message that is open then closes at the commit point under the old configuration (log entry 132). When
the role was written too, what is stamped from there on waits for an EMIT_START of the new epoch. -/
def Module.reanchor (m : Module) (n time : Nat) (written : Bool) (new : BrickCfg) : Module :=
  let b := m.bk n
  let a := new.firstAt (b.emitFrom.getD 0)
  if b.emitFrom.isNone then m.setBk n { b with newConfig := true }
  else if written then
    (m.setBk n { b.cutAt time with emitFrom := none, emitTo := none, gate := some time, newConfig := true }).noteIq n
  else
    let c := b.cutAt time
    (m.setBk n (c.stretches new a (Nat.max a (new.firstAt time)) false true false)).noteIq n

/-- The chain registers follow the live settings (R194). -/
def Module.chainRegs (m : Module) (n : Nat) (c : BrickCfg) : Module :=
  let p := pgBrk n
  let ratio := (roundAway (c.span * 2 ^ (c.k + c.j) * 2 ^ 31 : Nat) 400000000).toNat
  ((((m.wr p BRK_CHAIN.RESAMP c.resamp.toNat).wr p BRK_CHAIN.STAGES c.k).wr p BRK_RATIO.RATIO ratio).wr p BRK_RATE.RATE
    (500000000 * ratio / 2 ^ (31 + c.k + c.j)))

/-- The commit point of a live brick as a sample index: the first sub-band message boundary at least 64 ticks after validation
(R211). -/
def brickPoint (validated : Nat) : Nat := nextMultiple ((validated + 64) * 16) 16384

/-- The input that a REPLAY brick takes next: replay messages are processed whole, so that the boundary of a commit lies before it
(R211; log entry 133). -/
def BrickSt.nextInput (b : BrickSt) : Nat := (b.got.getLast?.map fun r => r.hi + 1).getD 0

/-- The effects of a BRK commit point (R206, R207, R211, R212). -/
def Module.appliedBrk (m before : Module) (n validated : Nat) (wrote : List Nat) : Module :=
  let old := before.brickCfg n
  let new := m.brickCfg n
  let written := wrote.contains 0x040
  let sample := if old.live then brickPoint validated % 2 ^ 60
    else if old.role = 4 then (m.bk n).nextInput * 64 * 2 ^ old.j else m.rawTick * 16
  let m := m.chainRegs n new
  let m := if written then m.roleWritten n old new else m
  let m := m.reroute n old new
  if new.role = 0 then m.setBk n { (BrickSt.init n) with slot := (m.bk n).slot, switching := (m.bk n).switching }
  else
    let route := old.live = new.live ∧ old.role ≠ 0 ∧ old.course = new.course ∧ old.subband = new.subband ∧ old.j = new.j
    if ¬ route ∨ old.role ≠ new.role ∨ old.nco ≠ new.nco ∨ old.span ≠ new.span then
      m.flushChain n (ceilDiv sample (64 * 2 ^ new.j)) (decide route) written new
    else m.reanchor n (16 * sample) written new

/-- A write of CTRL.ENABLE on a BRK page: 0 counts as a write of ROLE IDLE at the next commit point. -/
def Module.enableBrk (m : Module) (n : Nat) (on : Bool) : Module :=
  let p := pgBrk n
  let m := m.wr p CTRL.ENABLE on.toNat
  if on then m
  else { m.wsh p BRK_ROLE.ROLE 0 with reg.wrote := m.reg.wrote.set 0 (p * 4096 + 0x040) 1 }

/-- STATUS.WARM: the chain holds the whole support of an output. -/
def Module.brickWarm (m : Module) (n : Nat) : Bool :=
  let c := m.brickCfg n
  c.role != 0 && (m.bk n).got.any fun r => decide ((c.support (c.firstFrom r.lo)).hi ≤ r.hi)

/-- STATUS.EMITTING: the start has been reached and the stop has not. -/
def Module.brickEmitting (m : Module) (n : Nat) : Bool := (m.bk n).emits m.now

end Sys2Proof.Machine
end

