-- ==== Sys2Proof/Machine/Events.lean ====
section
/-! DEFINITION. Event inputs and interval timing, island 55 (spec/07). -/

namespace Sys2Proof.Machine

def Module.ev (m : Module) (i : Nat) : EvtIn := m.evtIn.get EvtIn.init i
def Module.setEv (m : Module) (i : Nat) (e : EvtIn) : Module := { m with evtIn := m.evtIn.set EvtIn.init i e }
def Module.iu (m : Module) (u : Nat) : UnitSt := m.unit.get UnitSt.init u
def Module.setIu (m : Module) (u : Nat) (t : UnitSt) : Module := { m with unit := m.unit.set UnitSt.init u t }

/-! ## Results (R237–R239) -/

/-- Place a result in the FIFO of a unit (R239). -/
def Module.putResult (m : Module) (u : Nat) (r : UnitResult) : Module :=
  let t := m.iu u
  let m := (m.setIu u { t with seq := t.seq + 1 }).bump pgEvt EVT_IU_RESULTS.RESULTS 1 u
  if 64 ≤ t.fifo.length then (m.bump pgEvt EVT_IU_COUNTS.FIFO_OVERFLOW 1 u).raise pgEvt 9
  else (m.setIu u { m.iu u with fifo := t.fifo ++ [{ r with seq := t.seq % 65536 }] }).raise pgEvt 8

/-- The bits of the stops taken as coincident. -/
def coincBits (l : List (Nat × Bool)) : Nat :=
  (((List.range l.length).zip l).map fun p => if p.2.2 then 2 ^ p.1 else 0).sum

/-- The INTERVAL result of the stops taken so far. -/
def Module.intervalResult (m : Module) (u : Nat) (incomplete timeout aborted : Bool) : Module :=
  let t := m.iu u
  let m := m.putResult u {
    seq := 0, stops := t.stops.length, holdover := t.hold, incomplete := incomplete, timeout := timeout
    aborted := aborted, dead := t.dead, freq := false, coinc := coincBits t.stops, start := t.start.getD 0
    values := t.stops.map Prod.fst }
  m.setIu u { m.iu u with start := none, stops := [], dead := false, hold := false }

/-- The FREQUENCY result of a gate opening (R238). With no edge at all the spec states no START: a free value. -/
def Module.frequencyResult (m : Module) (u : Nat) (aborted : Bool) : Module :=
  let t := m.iu u
  let few := decide (t.count < 2)
  let (k, m) := m.draw 1
  let first := t.first.getD (Config.free k % 2 ^ 64)
  let span := t.last - first
  let cycles := (t.count - 1) * 2 ^ m.lv pgEvt EVT_IN_CFG.PRESCALE (m.lv pgEvt EVT_IU_CFG.START_EVT u)
  let m := m.putResult u {
    seq := 0, stops := 0, holdover := t.hold, incomplete := few, timeout := false, aborted := aborted
    dead := t.dead, freq := true, coinc := 0, start := first
    values := if few then [0, 0, 0]
      else [span, cycles, (roundAway (cycles * 512000000000000000 : Nat) span).toNat % 2 ^ 64] }
  m.setIu u { m.iu u with first := none, last := 0, count := 0, dead := false, hold := false }

/-- STATE of a unit: 0 OFF, 1 WAIT_GATE, 2 ARMED, 3 MEASURING. -/
def Module.iuState (m : Module) (u : Nat) : Nat := m.rd pgEvt EVT_IU_STATUS.STATE u
def Module.setIuState (m : Module) (u st : Nat) : Module := m.wr pgEvt EVT_IU_STATUS.STATE st u

/-- The gate of a unit opens (R236, R237). -/
def Module.gateOpens (m : Module) (u : Nat) : Module :=
  (m.setIuState u 2).setIu u { m.iu u with
    gate := true, start := none, stops := [], first := none, last := 0, count := 0, dead := false, hold := false, after := none }

/-- The gate of a unit closes (R237, R238). -/
def Module.gateCloses (m : Module) (u : Nat) : Module :=
  let m' := m.setIu u { m.iu u with gate := false }
  if (m.iu u).gate = false then m'
  else if m.lv pgEvt EVT_IU_CFG.MODE u = 2 then (m'.frequencyResult u false).setIuState u 1
  else if m.iuState u = 3 then (m'.intervalResult u true false false).setIuState u 1
  else m'.setIuState u 1

/-- A measurement in progress ends with ABORTED (R237, R238), and the unit waits for its gate to open again. -/
def Module.abortUnit (m : Module) (u : Nat) : Module :=
  let was := (m.iu u).gate
  let m := m.setIu u { m.iu u with edges := [], gate := false, swEnd := none, after := none }
  let m := m.wr pgEvt EVT_IU_STATUS.GATE_OPEN 0 u
  let m :=
    if m.lv pgEvt EVT_IU_CFG.MODE u = 2 ∧ was = true then m.frequencyResult u true
    else if m.iuState u = 3 then m.intervalResult u false false true
    else m
  if m.lv pgEvt EVT_IU_CFG.MODE u = 0 then m else m.setIuState u 1

/-! ## Ordering (R235) -/

/-- The rank of an edge among edges of one stamp: the gate first, then starts, then stops. -/
def Module.edgeRank (m : Module) (u : Nat) (e : UnitEdge) : Nat :=
  if e.input = 8 ∨ (m.lv pgEvt EVT_IU_CFG.GATE_SRC u = 0 ∧ e.input = m.lv pgEvt EVT_IU_CFG.GATE_EVT u) then 0
  else if e.input = m.lv pgEvt EVT_IU_CFG.START_EVT u then 1 else 2

/-- The edge to be decided next: the earliest; but while a unit is armed, a start stamped at most one LSB after a stop
goes before it (R237: that stop is coincident). -/
def Module.nextEdge (m : Module) (u : Nat) : Option UnitEdge :=
  let before := fun (a b : UnitEdge) =>
    decide (a.stamp < b.stamp) || (a.stamp == b.stamp && decide (m.edgeRank u a < m.edgeRank u b))
  let min := (m.iu u).edges.foldl (fun (o : Option UnitEdge) e =>
    match o with
    | none => some e
    | some f => if before e f then some e else some f) none
  match min with
  | some e =>
    if m.iuState u = 2 ∧ m.edgeRank u e = 2 then
      match (m.iu u).edges.find? fun f => m.edgeRank u f == 1 && !f.dead && decide (f.stamp ≤ e.stamp + 1) with
      | some f => some f
      | none => some e
    else some e
  | none => none

/-- A stop is taken; the last one completes the result (R237). -/
def Module.takeStop (m : Module) (u stamp : Nat) (hold : Bool) : Module :=
  let t := m.iu u
  let start := t.start.getD 0
  let near := decide (stamp ≤ start + 1)
  let m := m.setIu u { t with stops := t.stops ++ [(if near then 0 else stamp - start, near)], hold := t.hold || hold }
  if m.lv pgEvt EVT_IU_CFG.STOPS u ≤ (m.iu u).stops.length then
    let m := m.intervalResult u false false false
    if m.lv pgEvt EVT_IU_CFG.REPEAT u = 1 then (m.setIu u { m.iu u with after := some stamp }).setIuState u 2
    else m.setIuState u 1
  else m

/-- An edge of the start or the stop input inside the gate, INTERVAL mode (R237). -/
def Module.intervalEdge (m : Module) (u : Nat) (e : UnitEdge) : Module :=
  let t := m.iu u
  let isStart := e.input == m.lv pgEvt EVT_IU_CFG.START_EVT u
  let isStop := e.input == m.lv pgEvt EVT_IU_CFG.STOP_EVT u
  let mayStart : Bool := match t.after with
    | some a => decide (a < e.stamp)
    | none => true
  if e.dead then
    if (m.iuState u = 3 ∧ isStop) ∨ (m.iuState u = 2 ∧ isStart) then m.setIu u { t with dead := true } else m
  else if m.iuState u = 2 ∧ isStart ∧ mayStart then (m.setIu u { t with start := some e.stamp, stops := [], hold := e.hold }).setIuState u 3
  else if m.iuState u = 2 ∧ isStop then m.bump pgEvt EVT_IU_COUNTS.EARLY_STOP 1 u
  else if m.iuState u = 3 ∧ isStop then
    if e.stamp + 1 < t.start.getD 0 then m.bump pgEvt EVT_IU_COUNTS.EARLY_STOP 1 u else m.takeStop u e.stamp e.hold
  else m

/-- An edge inside the gate, FREQUENCY mode (R238). -/
def Module.frequencyEdge (m : Module) (u : Nat) (e : UnitEdge) : Module :=
  let t := m.iu u
  if e.input ≠ m.lv pgEvt EVT_IU_CFG.START_EVT u then m
  else if e.dead then m.setIu u { t with dead := true }
  else (m.setIu u { t with first := some (t.first.getD e.stamp), last := e.stamp, count := t.count + 1, hold := t.hold || e.hold }).setIuState u 3

/-- An edge of the gate input: an external gate opens and closes with its level (R236; a gate that is at its open level when the
unit is set up opens with the next opening edge: log entry 135). -/
def Module.gateEdge (m : Module) (u : Nat) (e : UnitEdge) : Module :=
  let opens := e.rise == (e.input == 8 || m.lv pgEvt EVT_IU_CFG.GATE_POL u == 0)
  if e.dead then m.setIu u { m.iu u with dead := true }
  else
    let m := if e.input = 8 then m else m.wr pgEvt EVT_IU_STATUS.GATE_OPEN opens.toNat u
    if opens then (if (m.iu u).gate then m else m.gateOpens u) else m.gateCloses u

/-- Decide one edge (R236, R237). -/
def Module.decideEdge (m : Module) (u : Nat) (e : UnitEdge) : Module :=
  let m := m.setIu u { m.iu u with edges := (m.iu u).edges.erase e }
  let mode := m.lv pgEvt EVT_IU_CFG.MODE u
  if mode = 0 then m
  else if m.edgeRank u e = 0 then m.gateEdge u e
  else if (m.iu u).gate = false then m
  else if mode = 2 then m.frequencyEdge u e
  else m.intervalEdge u e

/-- IU_DECISION (R235): the next edge of the unit is decided, 8 ticks after it arrived. -/
def execIuDecision (u : Fin 4) (s : State) : Host.Outcome State Fault Refusal :=
  .next (match s.m.nextEdge u with
    | some e => if e.arrived + 8 ≤ s.m.clk.ticks then s.onM fun m => m.decideEdge u e else s
    | none => s)

/-- Decide every edge stamped before an instant, earliest first. -/
def Module.decideBefore (m : Module) (u instant : Nat) : Nat → Module
  | 0 => m
  | fuel + 1 =>
    match m.nextEdge u with
    | some e => if e.stamp < instant then (m.decideEdge u e).decideBefore u instant fuel else m
    | none => m

/-- Everything that is stamped before the instant is decided. -/
def Module.settle (m : Module) (u instant : Nat) : Module := m.decideBefore u instant (m.iu u).edges.length

/-! ## The inputs (R228–R232) -/

/-- The units that use an input take its edge (R235). -/
def Module.unitsTake (m : Module) (i stamp : Nat) (rise dead : Bool) : Module :=
  [0, 1, 2, 3].foldl (fun m u =>
    let uses := m.lv pgEvt EVT_IU_CFG.START_EVT u == i || m.lv pgEvt EVT_IU_CFG.STOP_EVT u == i
      || (m.lv pgEvt EVT_IU_CFG.GATE_SRC u == 0 && m.lv pgEvt EVT_IU_CFG.GATE_EVT u == i)
    if m.lv pgEvt EVT_IU_CFG.MODE u ≠ 0 ∧ uses then
      m.setIu u { m.iu u with edges := (m.iu u).edges ++ [⟨stamp, i, rise, dead, m.holdover 55 [0, 5], m.clk.ticks⟩] }
    else m) m

/-- Some converter or course waits for starts from an input (R108, R214). -/
def Module.startsNamed (m : Module) (i : Nat) : Bool :=
  ([0, 1, 2, 3].any fun x => m.lv (pgCnv x) CNV_RUN.START_SRC == 1 && m.lv (pgCnv x) CNV_RUN.START_EVT == i)
  || [0, 1, 2, 3, 4].any fun d => m.lv (pgCrs d) CRS_RUN.START_SRC == 1 && m.lv (pgCrs d) CRS_RUN.START_EVT == i

/-- The start ticks of a qualified edge (R108, R214): the first multiple of 4,096 ticks at least 4,096 ticks after it. -/
def Module.sendStarts (m : Module) (i stamp : Nat) : Module :=
  if m.startsNamed i then
    [0, 1, 2, 3, 24, 25, 26, 27].foldl (fun m d =>
      m.postMgt 55 d .evt (.startTick i (nextMultiple (stamp / 256 + 4096) 4096))) m
  else m

/-- An edge that leaves the hold-off at an instant (fraction LSBs): edge select, prescaler, timestamper (R230–R232). -/
def Module.conditionEdge (m : Module) (i instant : Nat) (level : Bool) : Module :=
  let e := m.ev i
  let edge := m.lv pgEvt EVT_IN_CFG.EDGE i
  let selected := edge == 2 || (edge == 0 && level) || (edge == 1 && !level)
  if ¬ selected then m
  else
    let passes := e.count % 2 ^ m.lv pgEvt EVT_IN_CFG.PRESCALE i == 0
    let m := m.setEv i { e with count := e.count + 1 }
    let stamp := ((instant : Int) + toSigned 16 (m.lv pgEvt EVT_IN_DELAY.DELAY i)).toNat
    let early := match e.last with
      | some l => decide (instant < l + 512)
      | none => false
    if ¬ passes then m
    else if early then
      (((m.setEv i { m.ev i with dead := true }).bump pgEvt EVT_IN_DEADTIME.LOST 1 i).raise pgEvt 11).unitsTake i stamp
        level true
    else
      let m := m.setEv i { m.ev i with last := some instant, stamps := (m.ev i).stamps ++ [(stamp, m.holdover 55 [0, 5])] }
      let m := (m.step64 pgEvt EVT_IN_EDGES_LO.EDGES EVT_IN_EDGES_HI.EDGES 1 i).wr64 pgEvt EVT_IN_LAST_LO.TIME
        EVT_IN_LAST_HI.TIME (stamp % 2 ^ 64) i
      (m.sendStarts i stamp).unitsTake i stamp level false

/-- The hold-off passes a transition on and starts to ignore further ones (R229), after one that restores agreement too (log entry
134). -/
def Module.passEdge (m : Module) (i instant : Nat) (level : Bool) : Module :=
  let hold := m.lv pgEvt EVT_IN_HOLDOFF.HOLDOFF_EN i == 1
  let m := m.setEv i { m.ev i with
    passed := level
    holdEnd := if hold then some (instant + 256 * m.lv pgEvt EVT_IN_HOLDOFF.TICKS i) else none }
  m.conditionEdge i instant level

/-- The hold-off period is over (R229): the comparator's level is the input's; the transition that restores agreement with what was
passed on goes on at that instant. -/
def Module.endHoldoff (m : Module) (i instant : Nat) : Module :=
  let m := m.setEv i { m.ev i with holdEnd := none }
  if (m.ev i).level = (m.ev i).passed then m else m.passEdge i instant (m.ev i).level

/-- A hold-off period that was over before an instant ends. -/
def Module.holdoffDue (m : Module) (i instant : Nat) : Module :=
  match (m.ev i).holdEnd with
  | some t => if t ≤ instant then m.endHoldoff i t else m
  | none => m

/-- EVT_EDGE (R228–R232): the comparator of an input switches at the present tick and a fraction of it. -/
def execEvtEdge (i : Fin 8) (level : Bool) (frac : Byte) (s : State) : Host.Outcome State Fault Refusal :=
  .next (s.onM fun m =>
    let instant := m.tick * 256 + frac.toNat
    let m := m.holdoffDue i instant
    let m := (m.setEv i { m.ev i with level := level }).wr pgEvt EVT_IN_STATUS.LEVEL level.toNat i
    if m.lv pgEvt EVT_IN_CFG.EN i = 0 then m.setEv i { m.ev i with passed := level, holdEnd := none }
    else if (m.ev i).holdEnd.isSome then m.bump pgEvt EVT_IN_HELD.HELD 1 i
    else m.passEdge i instant level)

/-- HOLDOFF_END (R229): the end of the period, with the level that the comparator has then. -/
def execHoldoffEnd (i : Fin 2) (level : Bool) (s : State) : Host.Outcome State Fault Refusal :=
  .next (match (s.m.ev i).holdEnd with
    | some t =>
      if t / 256 ≤ s.m.tick then
        s.onM fun m =>
          ((m.setEv i { m.ev i with level := level }).wr pgEvt EVT_IN_STATUS.LEVEL level.toNat i).endHoldoff i t
      else s
    | none => s)

/-! ## Notices (R240, R241) -/

/-- EVENT_NOTICE (R240): the oldest 64-tick block with stamps that no notice has taken, once it has ended. -/
def execEventNotice (i : Fin 8) (s : State) : Host.Outcome State Fault Refusal :=
  .next (match (s.m.ev i).stamps with
    | (first, _) :: _ =>
      if (first / 16384 + 1) * 64 ≤ s.m.tick then
        s.onM fun m =>
          let e := m.ev i
          let block := first / 16384
          let mine := e.stamps.filter fun t => t.1 / 16384 == block
          let held := mine.any Prod.snd
          let m := m.setEv i { e with stamps := e.stamps.filter (fun t => t.1 / 16384 != block), dead := false }
          let courses := [0, 1, 2, 3].filter fun x => bit (m.lv pgEvt EVT_IN_CFG.COURSES i) x
          let m := courses.foldl (fun m x =>
            m.send ⟨55, 24 + x, .evt, some (m.lv pgEvt ACTIVITY_ID.ACTIVITY), 16 + 8 * mine.length, [], true,
              .notice ⟨block * 16384 % 2 ^ 64, i, held, e.dropped.contains x, e.dead, mine.map Prod.fst⟩⟩) m
          m.setEv i { m.ev i with dropped := e.dropped.filter fun x => !courses.contains x }
      else s
    | [] => s)

/-- A notice lost to the budget (R241). -/
def Module.noticeDropped (m : Module) (i x : Nat) : Module :=
  ((m.setEv i { m.ev i with dropped := (m.ev i).dropped ++ [x] }).bump pgEvt EVT_IN_NOTICE_DROPS.DROPS 1 i).raise pgEvt 10

/-! ## Code-density tables (R233) -/

/-- A build of the code-density tables starts unless one runs. -/
def Module.startBuild (m : Module) : Module :=
  if m.rd pgEvt EVT_STATUS.CD_BUILDING = 1 then m
  else { m.wr pgEvt EVT_STATUS.CD_BUILDING 1 with clk.cdStart := m.clk.ticks }

/-- CD_REBUILD. -/
def State.takeCdRebuild (s : State) : State := (s.onM Module.startBuild)

/-- The command: a write that does this. -/
def execCdRebuild (r : Requester) (s : State) : Host.Outcome State Fault Refusal :=
  .next (s.via (.cdRebuild r) r pgEvt fun s => s.takeCdRebuild)

/-- CD_BUILD_DONE: 10 ms after its start a build ends, and the new tables come into force; one that did not succeed changes no
table. -/
def execCdBuildDone (ok : Bool) (s : State) : Host.Outcome State Fault Refusal :=
  .next (if s.m.rd pgEvt EVT_STATUS.CD_BUILDING = 1 ∧ s.m.clk.cdStart + 20000000 ≤ s.m.clk.ticks then
    s.onM fun m =>
      let m := m.wr pgEvt EVT_STATUS.CD_BUILDING 0
      if ok then
        let m := (m.bump pgEvt EVT_CD_STATUS.BUILDS).wr pgEvt EVT_CD_STATUS.VALID 1
        ({ m.wr pgEvt EVT_STATUS.CD_VALID 1 with clk.cdTemp := toSigned 16 (m.rd pgSaf SAF_TEMP.NOW 6) }).raise pgEvt 12
      else m
  else s)

/-! ## Gates and timeouts (R236, R237) -/

/-- The unit that EVT_IU_SEL names. -/
def Module.iuSel (m : Module) : Nat := m.rd pgEvt EVT_IU_SEL.UNIT

/-- The software gate of a unit opens or closes at a tick: the unit orders it among its edges (R235, R236). -/
def Module.softGate (m : Module) (u tick : Nat) (opens : Bool) : Module :=
  (m.wr pgEvt EVT_IU_STATUS.GATE_OPEN opens.toNat u).setIu u { m.iu u with
    edges := (m.iu u).edges ++ [⟨tick * 256, 8, opens, false, false, m.clk.ticks⟩]
    swEnd := if opens then some (tick + m.lv pgEvt EVT_IU_GATE_TICKS.TICKS u) else none }

/-- SWGATE_OPEN (R236): no effect while open, with GATE_SRC EXTERNAL, or on a unit that is OFF. -/
def State.takeSwgateOpen (s : State) : State :=
  let u := s.m.iuSel
  (if s.m.lv pgEvt EVT_IU_CFG.GATE_SRC u = 1 ∧ s.m.rd pgEvt EVT_IU_STATUS.GATE_OPEN u = 0
      ∧ s.m.lv pgEvt EVT_IU_CFG.MODE u ≠ 0 then
    s.onM fun m => m.softGate u m.tick true
  else s)

/-- The command: a write that does this. -/
def execSwgateOpen (r : Requester) (s : State) : Host.Outcome State Fault Refusal :=
  .next (s.via (.swgateOpen r) r pgEvt fun s => s.takeSwgateOpen)

/-- SWGATE_CLOSE (R236). -/
def State.takeSwgateClose (s : State) : State :=
  let u := s.m.iuSel
  (if s.m.lv pgEvt EVT_IU_CFG.GATE_SRC u = 1 ∧ s.m.rd pgEvt EVT_IU_STATUS.GATE_OPEN u = 1 then
    s.onM fun m => m.softGate u m.tick false
  else s)

/-- The command: a write that does this. -/
def execSwgateClose (r : Requester) (s : State) : Host.Outcome State Fault Refusal :=
  .next (s.via (.swgateClose r) r pgEvt fun s => s.takeSwgateClose)

/-- SWGATE_EXPIRE (R236): GATE_TICKS ticks after the opening. -/
def execSwgateExpire (u : Fin 4) (s : State) : Host.Outcome State Fault Refusal :=
  .next (match (s.m.iu u).swEnd with
    | some t => if t ≤ s.m.tick then s.onM fun m => m.softGate u t false else s
    | none => s)

/-- The measurement that began at stamp `a` runs out of time: what is stamped before the expiry still counts (R235, R237); with
CONTINUOUS the unit is armed again. -/
def Module.expireUnit (m : Module) (u a expiry : Nat) : Module :=
  let m := m.settle u expiry
  if m.iuState u = 3 ∧ (m.iu u).start = some a then
    let m := m.intervalResult u false true false
    if m.lv pgEvt EVT_IU_CFG.REPEAT u = 1 then (m.setIu u { m.iu u with after := some (expiry - 1) }).setIuState u 2
    else m.setIuState u 1
  else m

/-- IU_TIMEOUT (R237): TIMEOUT ticks after the start, decided with the wait of R235. -/
def execIuTimeout (u : Fin 4) (s : State) : Host.Outcome State Fault Refusal :=
  .next (match (s.m.iu u).start with
    | some a =>
      let expiry := a + 256 * s.m.lv pgEvt EVT_IU_TIMEOUT.TICKS u
      if s.m.lv pgEvt EVT_IU_CFG.MODE u = 1 ∧ s.m.iuState u = 3 ∧ expiry / 256 + 8 ≤ s.m.tick then
        s.onM fun m => m.expireUnit u a expiry
      else s
    | none => s)

/-- EVT_RES_POP (R239): the oldest result of the selected unit is removed. -/
def State.takeEvtResPop (s : State) : State :=
  (s.onM fun m => m.setIu m.iuSel { m.iu m.iuSel with fifo := (m.iu m.iuSel).fifo.drop 1 })

/-- The command: a write that does this. -/
def execEvtResPop (r : Requester) (s : State) : Host.Outcome State Fault Refusal :=
  .next (s.via (.evtResPop r) r pgEvt fun s => s.takeEvtResPop)

/-! ## The commit of EVT -/

/-- The checks of an EVT snapshot (R242). -/
def checkEvt (snap : Store Nat) : List Bad :=
  let g := fun (f : Fld) (b : Nat) => snapGet snap pgEvt f b
  (List.range 8).flatMap (fun i =>
    chk (decide (8 < g EVT_IN_CFG.PRESCALE i)) 0x044 2 i ++ chk (g EVT_IN_CFG.EDGE i == 3) 0x044 2 i
    ++ chk (decide (1500 < (toSigned 13 (g EVT_IN_THRESH.THRESH i)).natAbs)) 0x048 2 i
    ++ chk (decide (100 < g EVT_IN_HYST.HYST i)) 0x04C 2 i ++ chk (decide (2 ≤ i) && g EVT_IN_HYST.HYST i != 0) 0x04C 4 i
    ++ chk (decide (2 ≤ i) && g EVT_IN_HOLDOFF.HOLDOFF_EN i == 1) 0x050 4 i
    ++ chk (g EVT_IN_HOLDOFF.HOLDOFF_EN i == 1 && g EVT_IN_HOLDOFF.TICKS i == 0) 0x050 1 i
    ++ chk (decide (2000000 < g EVT_IN_HOLDOFF.TICKS i)) 0x050 2 i
    ++ chk (decide (2560 < (toSigned 16 (g EVT_IN_DELAY.DELAY i)).natAbs)) 0x054 2 i)
  ++ (List.range 4).flatMap (fun u =>
    let mode := g EVT_IU_CFG.MODE u
    let on := fun (i : Nat) => g EVT_IN_CFG.EN i == 1
    let start := g EVT_IU_CFG.START_EVT u
    let stop := g EVT_IU_CFG.STOP_EVT u
    let gate := g EVT_IU_CFG.GATE_EVT u
    let ext := g EVT_IU_CFG.GATE_SRC u == 0
    chk (mode == 3) 0x084 2 u
    ++ chk (mode == 1 && g EVT_IU_CFG.STOPS u == 0) 0x084 1 u
    ++ chk (mode == 1 && decide (16 < g EVT_IU_CFG.STOPS u)) 0x084 2 u
    ++ chk (mode != 0 && ext && (gate == start || (mode == 1 && gate == stop))) 0x084 4 u
    ++ chk (mode != 0 && !on start) 0x044 4 start ++ chk (mode == 1 && !on stop) 0x044 4 stop
    ++ chk (mode != 0 && ext && !on gate) 0x044 4 gate
    ++ chk (mode != 2 && g EVT_IU_TIMEOUT.TICKS u == 0) 0x084 1 u
    ++ chk (g EVT_IU_GATE_TICKS.TICKS u == 0) 0x08C 1 u)
  ++ chk (g EVT_CD_CTRL.TEMP_STEP 0 == 0) 0x0C4 1

/-- The fields of an input's conditioning, and of a unit. -/
def inputFields : List Fld := [EVT_IN_CFG.PRESCALE, EVT_IN_CFG.EDGE, EVT_IN_CFG.EN, EVT_IN_THRESH.THRESH, EVT_IN_HYST.HYST,
  EVT_IN_HOLDOFF.HOLDOFF_EN, EVT_IN_HOLDOFF.TICKS, EVT_IN_DELAY.DELAY]
def unitFields : List Fld := [EVT_IU_CFG.STOPS, EVT_IU_CFG.REPEAT, EVT_IU_CFG.GATE_POL, EVT_IU_CFG.GATE_SRC,
  EVT_IU_CFG.GATE_EVT, EVT_IU_CFG.STOP_EVT, EVT_IU_CFG.START_EVT, EVT_IU_CFG.MODE, EVT_IU_TIMEOUT.TICKS,
  EVT_IU_GATE_TICKS.TICKS]

/-- Two configurations differ in one of the fields of a bank. -/
def differs (a b : Module) (p : Nat) (fs : List Fld) (bank : Nat) : Bool := fs.any fun f => a.lv p f bank != b.lv p f bank

/-- The effects of an EVT commit point: a changed input restarts its prescaler (R230); a changed unit ends its measurement
with ABORTED, under the old settings, and waits for its gate (R237). -/
def Module.appliedEvt (m before : Module) : Module :=
  let m := (List.range 8).foldl (fun m i =>
    if differs m before pgEvt inputFields i then
      m.setEv i { m.ev i with count := 0, holdEnd := none, passed := (m.ev i).level }
    else m) m
  (List.range 4).foldl (fun m u =>
    if differs m before pgEvt unitFields u then
      let live := m.reg.live
      let m := { ({ m with reg.live := before.reg.live }.abortUnit u) with reg.live := live }
      m.setIuState u (if m.lv pgEvt EVT_IU_CFG.MODE u = 0 then 0 else 1)
    else m) m

end Sys2Proof.Machine
end

