-- ==== Sys2Proof/Machine/Trigger.lean ====
section
/-! DEFINITION. The trigger engines (spec/08): the slot timeline, the sixteen conditions, the sequencer, the log. The
meanings that pass a trigger on to the acquisition writer stand in Machine/Courses.lean. -/

namespace Sys2Proof.Machine

def Module.tg (m : Module) (d : Nat) : TrgSt := m.trg.get TrgSt.init d
def Module.setTg (m : Module) (d : Nat) (t : TrgSt) : Module := { m with trg := m.trg.set TrgSt.init d t }

/-- A condition register of course d. -/
def Module.cnd (m : Module) (d i : Nat) (f : Fld) : Nat := m.lv (pgTrg d) f i

/-! ## Which condition takes an item (R249) -/

def Module.takes (m : Module) (d i : Nat) (k : AtomKind) : Bool :=
  let t := m.cnd d i TRG_COND_CFG.TYPE
  let src := m.cnd d i TRG_COND_CFG.SOURCE
  let unit := m.cnd d i TRG_COND_CFG.UNIT
  let brick := m.cnd d i TRG_COND_CFG.BRICK
  match k with
  | .raw _ => t == 1 || (t == 2 && src == 0)
  | .spec s =>
    t == 3 && (match s.brick with
      | none => s.input == d && src == (if s.columns then 3 else 2)
      | some n => src == 4 && brick == n)
  | .iq n _ _ => t == 2 && src == 1 && brick == n
  | .rects r => t == 4 && unit == r.engine
  | .event e => t == 5 && unit == e
  | .soft mask => t == 6 && bit mask i
  | .cross c => t == 8 && unit == c

/-- Some condition of the engine takes the item. -/
def Module.wanted (m : Module) (d : Nat) (k : AtomKind) : Bool := (List.range 16).any fun i => m.takes d i k

/-- A qualifier of the condition excludes an item with these marks (R261). -/
def Module.excludes (m : Module) (d i : Nat) (taint holdover drop : Bool) : Bool :=
  (taint && m.cnd d i TRG_COND_CFG.IGNORE_TAINT == 1) || (holdover && m.cnd d i TRG_COND_CFG.IGNORE_HOLDOVER == 1)
    || (drop && m.cnd d i TRG_COND_CFG.IGNORE_DROP == 1)

/-- The bricks that enabled conditions name (R248). -/
def Module.namedBricks (m : Module) (d : Nat) : List Nat :=
  ((List.range 16).filter fun i =>
    (m.cnd d i TRG_COND_CFG.TYPE == 2 && m.cnd d i TRG_COND_CFG.SOURCE == 1)
      || (m.cnd d i TRG_COND_CFG.TYPE == 3 && m.cnd d i TRG_COND_CFG.SOURCE == 4)).map fun i => m.cnd d i TRG_COND_CFG.BRICK

/-! ## The timeline (R244–R248) -/

/-- The engine takes items: it evaluates, or its course is yet to start (R271). -/
def Module.takesItems (m : Module) (d : Nat) : Bool :=
  let r := m.rd (pgCrs d) CRS_STATUS.RUN_STATE
  (m.tg d).running || r == 1 || r == 3

/-- The timeline of course P begins with its first item (log entry 136): requests already made belong to that slot. -/
def TrgSt.begin (t : TrgSt) (slot : Nat) : TrgSt :=
  { t with
    start := some slot, nextSlot := slot, entrySlot := slot
    atoms := t.atoms.map fun a => { a with slot := slot, instant := slot * 256 } }

/-- Place an item on the timeline (R244, R271): items before the start tick are discarded uncounted. -/
def Module.placeAtom (m : Module) (d : Nat) (a : Atom) : Module :=
  let t := m.tg d
  if ¬ m.takesItems d then m
  else if d = 4 then
    let t := if t.running && t.start.isNone then t.begin a.slot else t
    m.setTg d { t with atoms := t.atoms ++ [a], top := Nat.max t.top a.slot }
  else if t.running = true ∧ a.slot < t.start.getD 0 then m
  else m.setTg d { t with atoms := t.atoms ++ [a] }

/-- Course P notes an item of brick n (R248). -/
def Module.noteItem (m : Module) (d n slot : Nat) : Module :=
  if d = 4 then
    let t := m.tg d
    m.setTg d { t with
      seen := t.seen.set 0 n (Nat.max (t.seen.get 0 n) slot)
      seenAt := if (m.namedBricks d).contains n then m.tick else t.seenAt }
  else m

/-! ## Items of each kind -/

/-- The raw samples of a message (R244, R261): tainted when the sample or one of the 64 before it is over range, flagged when
the converter or the island flags its instant (log entry 125). -/
def rawMarks (spans : List Span) (hold : Bool) : Nat → Option Nat → List CSample → List MarkedSample × Option Nat
  | _, last, [] => ([], last)
  | i, last, s :: l =>
    let last := if s.ovr then some i else last
    let taint := match last with
      | some k => decide (i ≤ k + 64)
      | none => false
    let (out, e) := rawMarks spans hold (i + 1) last l
    (⟨16 * i, s.value, taint, hold || spans.any fun p => decide (p.lo ≤ i ∧ i ≤ p.hi)⟩ :: out, e)

/-- Cut marked samples into slots. -/
def rawSlots : Nat → List MarkedSample → List (Nat × List MarkedSample)
  | 0, _ => []
  | _, [] => []
  | fuel + 1, r :: l =>
    let here := fun (s : MarkedSample) => s.time / 256 == r.time / 256
    (r.time / 256, (r :: l).takeWhile here) :: rawSlots fuel ((r :: l).dropWhile here)

/-- Raw samples reach course d; `lost` ones were discarded under R123 and count as zero. -/
def Module.rawAtoms (m : Module) (d : Nat) (g : SampleMsg) (lost : Bool) : Module :=
  let samples := if lost then g.samples.map fun _ => (⟨0, false, false⟩ : CSample) else g.samples
  let (marked, last) := rawMarks g.holdover (m.holdover (courseIsland d) [0, 5, d + 1]) g.first (m.tg d).lastOvr samples
  let m := m.setTg d { m.tg d with lastOvr := last }
  (rawSlots marked.length marked).foldl (fun m s =>
    m.placeAtom d ⟨s.1, s.1 * 256, m.tick, false, false, lost, false, .raw s.2⟩) m

/-- Flags of an item: GAP or CONFIG_CHANGE restart its conditions (R262). -/
def restarts (flags : Nat) : Bool := bit flags 4 || bit flags 7

/-- The first item of a new epoch of a brick's spectra or IQ restarts the conditions on it (R262). -/
def Module.epochDue (m : Module) (d k : Nat) : Bool × Module :=
  let t := m.tg d
  (t.newEpochs.contains k, m.setTg d { t with newEpochs := t.newEpochs.filter fun j => j != k })

/-- The instant of an item: course P replays recorded ones (R248). -/
def Module.itemTime (m : Module) (d t : Nat) : Nat := if d = 4 then t else m.unwrap t

/-- The comparisons that a spectrum costs: every condition that judges it counts its own (R254). -/
def Module.comparisons (m : Module) (d : Nat) (s : Spectrum) : Nat :=
  if s.complex then 0
  else s.count * ((List.range 16).filter fun i =>
    m.takes d i (.spec s) && !m.excludes d i (bit s.flags 0) (bit s.flags 1) (bit s.flags 3)).length

/-- The tick at which a spectrum's result is ready: 128 comparisons a tick, spectra in arrival order (R254). -/
def Module.compare (m : Module) (d : Nat) (s : Spectrum) : Nat × Module :=
  let n := if (m.tg d).running then m.comparisons d s else 0
  if n = 0 then (m.tick, m)
  else
    let done := Nat.max (128 * m.tick) (m.tg d).compared + n
    (ceilDiv done 128, m.setTg d { m.tg d with compared := done })

/-- A spectrum reaches course d. -/
def Module.specAtom (m : Module) (d : Nat) (s : Spectrum) : Module :=
  let t := m.itemTime d s.time
  let (fresh, m) := match s.brick with
    | some n =>
      let (fresh, m) := m.epochDue d (2 * n)
      (fresh, m.noteItem d n (t / 256))
    | none => (false, m)
  let (ready, m) := m.compare d s
  m.placeAtom d ⟨t / 256, t, ready, bit s.flags 0, bit s.flags 1, bit s.flags 3, fresh || restarts s.flags, .spec s⟩

/-- The pairs (I, Q) of an IQ message, each with its exponent (R203). -/
def Payload.pairs (p : Payload) : List (Int × Cx) := p.blocks.flatMap fun b => b.2.map fun z => (b.1, z)

/-- A brick IQ message reaches course d: one item for each slot, of power |z|² (R170, R252). -/
def Module.iqAtoms (m : Module) (d : Nat) (g : IqMsg) : Module :=
  let (fresh, m) := m.epochDue d (2 * g.brick + 1)
  let values := g.payload.pairs.drop g.first
  let m := match g.stamps.getLast? with
    | some t => m.noteItem d g.brick (m.itemTime d t / 256)
    | none => m
  ((List.range g.count).zip (g.stamps.zip values)).foldl (fun m p =>
    let t := m.itemTime d p.2.1
    let (e, z) := p.2.2
    m.placeAtom d ⟨t / 256, t, m.tick, g.taints.contains (g.first + p.1), bit g.flags 1, bit g.flags 3,
      p.1 == 0 && (fresh || restarts g.flags), .iq g.brick (z.1 * z.1 + z.2 * z.2).toNat (2 * e - 30)⟩) m

/-- An event notice reaches course d: one item for each stamp; its BUDGET_DROP excludes nothing (R261). -/
def Module.eventAtoms (m : Module) (d : Nat) (n : Notice) : Module :=
  (n.stamps.map fun t => m.itemTime d t).foldl (fun m t =>
    m.placeAtom d ⟨t / 256, t, m.tick, false, n.holdover, false, false, .event n.input⟩) m

/-- A rectangle report reaches course d (R256). -/
def Module.rectAtom (m : Module) (d : Nat) (r : RectReport) : Module :=
  let t := m.itemTime d r.stop
  m.placeAtom d ⟨t / 256, t, m.tick, bit r.flags 0, bit r.flags 1, bit r.flags 2, bit r.flags 4, .rects r⟩

/-- A cross notice reaches course d (R260). -/
def Module.crossAtom (m : Module) (d c time : Nat) : Module :=
  let time := m.itemTime d time
  m.placeAtom d ⟨time / 256, time, m.tick, false, false, false, false, .cross c⟩

/-- TRG_SWTRIG (R258): the slot of the write; on course P the slot after the last one evaluated (R248). -/
def State.takeTrgSwtrig (s : State) (d : Course) (conds : BitVec 16) : State :=
  s.onM fun m =>
    let t := m.tg d
    let slot := if d.val = 4 then t.nextSlot else m.tick
    let a : Atom := ⟨slot, slot * 256, m.tick, false, false, false, false, .soft conds.toNat⟩
    if d.val = 4 then (if m.takesItems d then m.setTg d { t with atoms := t.atoms ++ [a] } else m) else m.placeAtom d a

/-- The command: a write that does this. -/
def execTrgSwtrig (r : Requester) (d : Course) (conds : BitVec 16) (s : State) : Host.Outcome State Fault Refusal :=
  .next (s.via (.trgSwtrig r d conds) r (pgTrg d) fun s => s.takeTrgSwtrig d conds)

/-! ## Conditions -/

/-- The power num ÷ den, as R169 rounds it, reads at least u in Q8.8 dBFS: exact, for 10^((2u − 1) ÷ 5120) is never
rational. -/
def powerAtLeast (num den : Nat) (u : Int) : Bool :=
  if u ≤ -32768 then true
  else if num = 0 ∨ 32767 < u then false
  else if 1 ≤ 2 * u - 1 then decide (den ^ 5120 * 10 ^ (2 * u - 1).toNat < num ^ 5120)
  else decide (den ^ 5120 < num ^ 5120 * 10 ^ (1 - 2 * u).toNat)

/-- The sum of powers num × 2^exp as a fraction n ÷ 2^k. -/
def sumPowers (l : List (Nat × Int)) : Nat × Nat :=
  let e := (l.map Prod.snd).foldl min 0
  ((l.map fun p => p.1 * 2 ^ (p.2 - e).toNat).sum, e.natAbs)

/-- What a condition finds at one item or sample: its new state, and whether it is true there. -/
structure Verdict where
  st   : CondSt
  hit  : Bool
  deriving DecidableEq, Repr

/-- LEVEL (R251) at one raw sample; with HYST 0 a sample at the threshold is true and re-arms (log entry 139). -/
def levelAt (mode : Nat) (upper lower hyst v : Int) (c : CondSt) : Verdict :=
  let up := c.rise && decide (upper ≤ v)
  let down := c.fall && decide (v ≤ lower)
  let c' : CondSt := ⟨(c.rise && !up) || decide (v ≤ upper - hyst), (c.fall && !down) || decide (lower + hyst ≤ v), c.window⟩
  match mode with
  | 0 => ⟨c', up⟩
  | 1 => ⟨c', down⟩
  | 2 => ⟨c', up || down⟩
  | _ => ⟨c', decide (upper < v) || decide (v < lower)⟩

/-- POWER (R252) from a test "the power is at least u". -/
def powerAt (mode : Nat) (upper lower hyst : Int) (atLeast : Int → Bool) (c : CondSt) : Verdict :=
  let atMost := fun (u : Int) => !atLeast (u + 1)
  let up := c.rise && atLeast upper
  let down := c.fall && atMost lower
  let c' : CondSt := ⟨(c.rise && !up) || atMost (upper - hyst), (c.fall && !down) || atLeast (lower + hyst), c.window⟩
  match mode with
  | 0 => ⟨c', up⟩
  | 1 => ⟨c', down⟩
  | 2 => ⟨c', atLeast upper⟩
  | _ => ⟨c', atMost lower⟩

/-- The signed levels and the hysteresis of a condition. -/
def Module.levels (m : Module) (d i : Nat) : Int × Int × Int :=
  (toSigned 16 (m.cnd d i TRG_COND_LEVEL.UPPER), toSigned 16 (m.cnd d i TRG_COND_LEVEL.LOWER),
    (m.cnd d i TRG_COND_PARAM.HYST : Nat))

/-- One item of the given power at a POWER condition (R252, R261): no power until the window holds L items, nor while it holds
an excluded one. -/
def Module.powerItem (m : Module) (d i : Nat) (skip : Bool) (power : Nat × Int) (c : CondSt) : Verdict :=
  let (upper, lower, hyst) := m.levels d i
  let len := 2 ^ m.cnd d i TRG_COND_PARAM.LOG2L
  let w := c.window ++ [if skip then none else some power]
  let c := { c with window := w.drop (w.length - len) }
  if c.window.length < len ∨ c.window.contains none then ⟨c, false⟩
  else
    let (n, k) := sumPowers (c.window.filterMap id)
    powerAt (m.cnd d i TRG_COND_CFG.MODE) upper lower hyst (powerAtLeast n (len * 2 ^ k)) c

/-- One raw sample at a LEVEL or POWER condition; its power is 2 (s ÷ 2,048)² (R252). -/
def Module.rawAt (m : Module) (d i : Nat) (skip : Bool) (v : Int) (c : CondSt) : Verdict :=
  if m.cnd d i TRG_COND_CFG.TYPE = 1 then
    let (upper, lower, hyst) := m.levels d i
    if skip then ⟨c, false⟩ else levelAt (m.cnd d i TRG_COND_CFG.MODE) upper lower hyst v c
  else m.powerItem d i skip (v.natAbs * v.natAbs, -21) c

/-- A true item: its instant, and the taint, holdover and lateness of the item. -/
structure Hit where
  instant  : Nat
  taint    : Bool
  holdover : Bool
  late     : Bool
  deriving DecidableEq, Repr

/-- The samples of a slot at a condition: its state, the first true sample, and the exclusions. -/
def Module.rawFold (m : Module) (d i : Nat) (drop late : Bool) (c : CondSt) : List MarkedSample → CondSt × Option Hit × Nat
  | [] => (c, none, 0)
  | s :: l =>
    let skip := m.excludes d i s.taint s.holdover drop
    let r := m.rawAt d i skip s.value c
    let (c', hit, n) := m.rawFold d i drop late r.st l
    (c', if r.hit then some ⟨s.time, s.taint, s.holdover, late⟩ else hit, n + skip.toNat)

/-- Value j of a LOG payload, signed Q8.8 (R169). -/
def logValue (s : Spectrum) (j : Nat) : Int := s.payload.log.getD j 0

/-- The values of a spectrum that violate their mask entries (R253). -/
def Module.violations (m : Module) (d i : Nat) (s : Spectrum) : Nat :=
  let mode := m.cnd d i TRG_COND_CFG.MODE
  ((List.range s.count).filter fun j =>
    let e := m.cnd d i TRG_COND_MASK_BASE.BASE + j * m.cnd d i TRG_COND_MASK_LEN.LEN / s.count
    let up := decide (toSigned 16 (m.lv (pgTrg d) TRG_MASK_DATA.UPPER e) < logValue s j)
    let down := decide (logValue s j < toSigned 16 (m.lv (pgTrg d) TRG_MASK_DATA.LOWER e))
    match mode with
    | 0 => up
    | 1 => down
    | _ => up || down).length

/-- One item at a condition in slot t: the condition's state, the true item, and the items ignored. -/
def Module.itemAt (m : Module) (d i t : Nat) (a : Atom) (c : CondSt) : CondSt × Option Hit × Nat :=
  let c := if a.restart then CondSt.init else c
  let late := d != 4 && decide (a.slot < t)
  let skip := m.excludes d i a.taint a.holdover a.drop
  let hit := fun (b : Bool) => if b then some (⟨a.instant, a.taint, a.holdover, late⟩ : Hit) else none
  match a.kind with
  | .raw l => m.rawFold d i a.drop late c l
  | .iq _ num exp =>
    let v := m.powerItem d i skip (num, exp) c
    (v.st, hit v.hit, skip.toNat)
  | .spec s =>
    if skip || s.complex then (c, none, 1)
    else (c, hit (decide (m.cnd d i TRG_COND_COUNT.COUNT ≤ m.violations d i s)), 0)
  | .rects r =>
    if skip then (c, none, 1)
    else
      let enough := decide (m.cnd d i TRG_COND_COUNT.COUNT ≤ r.counts.getD (m.cnd d i TRG_COND_CFG.RECT) 0)
      (c, hit (if m.cnd d i TRG_COND_CFG.MODE = 0 then enough else !enough), 0)
  | .event _ | .soft _ | .cross _ => if skip then (c, none, 1) else (c, hit true, 0)

/-- A true condition of a slot. -/
structure Truth where
  cond : Nat
  hit  : Hit
  deriving DecidableEq, Repr

/-- The items of a slot at a condition, in order; the first true item counts. -/
def Module.condFold (m : Module) (d i t : Nat) (c : CondSt) : List Atom → CondSt × Option Hit × Nat
  | [] => (c, none, 0)
  | a :: l =>
    let (c, h, n) := m.itemAt d i t a c
    let (c, h', n') := m.condFold d i t c l
    (c, h.or h', n + n')

/-- A TIMER is true in every PERIOD-th slot from PHASE on, by the 56-bit tick count (R259). -/
def Module.timerHit (m : Module) (d i t : Nat) : Option Hit :=
  if t % 2 ^ 56 % m.cnd d i TRG_COND_PERIOD.PERIOD = m.cnd d i TRG_COND_PHASE.PHASE then some ⟨t * 256, false, false, false⟩
  else none

/-- Evaluate condition i in slot t: its counts and its last instant (R246, R261, R263). -/
def Module.evalCond (m : Module) (d i t : Nat) (atoms : List Atom) : Module × Option Truth :=
  let p := pgTrg d
  let mine := atoms.filter fun a => m.takes d i a.kind
  let (c, h, n) := m.condFold d i t ((m.tg d).conds.get CondSt.init i) mine
  let h := if m.cnd d i TRG_COND_CFG.TYPE = 7 then m.timerHit d i t else h
  let late := if d = 4 then 0 else (mine.filter fun a => decide (a.slot < t)).length
  let m := m.setTg d { m.tg d with conds := (m.tg d).conds.set CondSt.init i c }
  let m := if 0 < n then m.bump p TRG_COND_IGNORED.ITEMS n i else m
  let m := if 0 < late then (m.bump p TRG_COND_LATE.ITEMS late i).raise p 10 else m
  match h with
  | some h =>
    ((m.bump p TRG_COND_TRUE.SLOTS 1 i).wr64 p TRG_COND_LAST_LO.TIME TRG_COND_LAST_HI.TIME (h.instant % 2 ^ 64) i,
      some ⟨i, { h with instant := h.instant % 2 ^ 64 }⟩)
  | none => (m, none)

/-- The conditions i, i + 1, … in slot t. -/
def Module.evalConds (m : Module) (d t : Nat) (atoms : List Atom) : List Nat → Module × List Truth
  | [] => (m, [])
  | i :: l =>
    let (m, h) := m.evalCond d i t atoms
    let (m, r) := m.evalConds d t atoms l
    (m, h.toList ++ r)

/-! ## The sequencer (R263–R267) -/

/-- The trigger passed to the acquisition writer (R268). -/
structure Fire where
  time     : Nat
  mask     : Nat
  cond     : Nat
  left     : Nat
  entered  : Nat
  taint    : Bool
  holdover : Bool
  deriving DecidableEq, Repr

def Module.seqState (m : Module) (d : Nat) : Nat := m.rd (pgTrg d) TRG_SEQ_STATUS.STATE

/-- Entry into a state (R264). -/
def Module.enterState (m : Module) (d st slot : Nat) : Module :=
  let p := pgTrg d
  let m := (m.wr p TRG_SEQ_STATUS.STATE st).wr p TRG_SEQ_STATUS.COUNT_NOW 0
  (m.bump p TRG_ST_VISITS.ENTRIES 1 st).setTg d { m.tg d with entrySlot := slot }

/-- Add an entry to the log (R274). -/
def Module.addLog (m : Module) (d : Nat) (e : TrgLog) : Module :=
  let p := pgTrg d
  let t := m.tg d
  if 256 ≤ t.log.length then (m.bump p TRG_LOG_STATUS.OVERFLOW).raise p 12
  else m.setTg d { t with log := t.log ++ [{ e with seq := t.logSeq % 65536 }], logSeq := t.logSeq + 1 }

/-- The slot at which a hold may end, but for the EVENTS count (R267). -/
def Module.holdFloor (m : Module) (d t0 : Nat) : Nat :=
  if m.lv (pgTrg d) TRG_SEQ_CFG.HOLDOFF_MODE = 1 then t0 + Nat.max 128 (m.lv (pgTrg d) TRG_HOLDOFF.VALUE) else t0 + 128

/-- The hold ends at slot t. -/
def Module.holdOver (m : Module) (d t : Nat) : Bool :=
  let s := m.tg d
  match s.hold with
  | some (t0, n) =>
    match s.holdTo with
    | some e => decide (e ≤ t)
    | none =>
      decide (m.holdFloor d t0 ≤ t)
        && (m.lv (pgTrg d) TRG_SEQ_CFG.HOLDOFF_MODE != 2 || decide (m.lv (pgTrg d) TRG_HOLDOFF.VALUE ≤ n))
  | none => false

/-- The hold ends: the entry slot of the state is that slot. -/
def Module.endHold (m : Module) (d t : Nat) : Module :=
  (m.wr (pgTrg d) TRG_SEQ_STATUS.HOLDING 0).setTg d { m.tg d with hold := none, holdTo := none, entrySlot := t }

/-- An injection request to converter d (R266). -/
def Module.requestInjection (m : Module) (d : Nat) : Module := m.postMgt (24 + d) d .req (.injectReq d)

/-- Cross notices to every course of CROSS_DEST (R266). -/
def Module.sendCross (m : Module) (d time mask : Nat) : Module :=
  [0, 1, 2, 3].foldl (fun m y =>
    if bit (m.lv (pgTrg d) TRG_SEQ_CFG.CROSS_DEST) y then m.postMgt (24 + d) (24 + y) .evt (.cross d time mask) else m) m

/-- The actions of an advance (R266), in their order, and the trigger for the writer. -/
def Module.advance (m : Module) (d t mask : Nat) (a : Truth) : Module × Option Fire :=
  let p := pgTrg d
  let st := m.seqState d
  let on := fun (f : Fld) => m.lv p f st == 1
  let next := m.lv p TRG_ST_CTRL.NEXT st
  let trig := on TRG_ST_CTRL.TRIGGER
  let inj := on TRG_ST_CTRL.INJECT && d != 4
  let e : TrgLog := ⟨0, st, next, a.cond, a.hit.taint, a.hit.holdover, a.hit.late, inj, trig, mask, a.hit.instant⟩
  let m1 := if trig || on TRG_ST_CTRL.MARK then m.addLog d e else m
  let m1 := if trig then (m1.raise p 8).bump p TRG_TRIGGERS.COUNT else m1
  let m1 := if inj then m1.requestInjection d else m1
  let m1 := if on TRG_ST_CTRL.CROSS && trig && m.cnd d a.cond TRG_COND_CFG.TYPE != 8 then m1.sendCross d a.hit.instant mask
    else m1
  let m1 := if on TRG_ST_CTRL.IRQ then m1.raise p 9 else m1
  let m1 := m1.enterState d next t
  if trig then
    ((m1.wr p TRG_SEQ_STATUS.HOLDING 1).setTg d { m1.tg d with hold := some (t, 0), holdTo := none, lastTrig := some t },
      some ⟨a.hit.instant, mask, a.cond, st, next, a.hit.taint, a.hit.holdover⟩)
  else (m1, none)

/-- The sequencer in slot t (R263, R265). -/
def Module.sequence (m : Module) (d t : Nat) (truths : List Truth) : Module × Option Fire :=
  let p := pgTrg d
  let st := m.seqState d
  let go := m.lv p TRG_ST_MASKS.GO_MASK st
  let reset := m.lv p TRG_ST_MASKS.RESET_MASK st
  let mask := (truths.map fun h => 2 ^ h.cond).sum
  let live := truths.filter fun h => bit go h.cond || bit reset h.cond
  let m := if 2 ≤ live.length then m.bump p TRG_SAME_SLOT.COUNT else m
  if (m.tg d).hold.isSome then
    let c := m.lv p TRG_SEQ_CFG.HOLDOFF_COND
    if truths.any fun h => h.cond == c then
      (m.setTg d { m.tg d with hold := (m.tg d).hold.map fun h => (h.1, if h.1 < t then h.2 + 1 else h.2) }, none)
    else (m, none)
  else
    match live with
    | a :: _ =>
      if bit reset a.cond then (m.enterState d (m.lv p TRG_ST_CTRL.RESET_TO st) t, none)
      else if m.rd p TRG_SEQ_STATUS.COUNT_NOW + 1 < m.lv p TRG_ST_COUNT.COUNT st then
        (m.step p TRG_SEQ_STATUS.COUNT_NOW, none)
      else m.advance d t mask a
    | [] =>
      if m.lv p TRG_ST_CTRL.TIMEOUT_EN st = 1 ∧ t = (m.tg d).entrySlot + m.lv p TRG_ST_TIMEOUT.TICKS st then
        ((m.enterState d (m.lv p TRG_ST_CTRL.TIMEOUT_TO st) t).raise p 13, none)
      else (m, none)

/-- The largest lag between an item's slot and its result (R246); course P knows none (R248). -/
def Module.noteLag (m : Module) (d : Nat) (l : List Atom) : Module :=
  let p := pgTrg d
  let lag := (l.map fun a => if m.wanted d a.kind then a.ready - a.slot else 0).foldl Nat.max (m.rd p TRG_LAT_MAX.TICKS)
  if d = 4 then m else m.wr p TRG_LAT_MAX.TICKS (Nat.min lag (2 ^ 23 - 1))

/-- Evaluate the next slot t (R245, R246, R263): the items of slot t, and earlier ones whose result came after their slot had
closed. -/
def Module.evaluateSlot (m : Module) (d : Nat) : Module × Option Fire :=
  let t := (m.tg d).nextSlot
  let m := if m.holdOver d t then m.endHold d t else m
  let st := m.tg d
  let due := fun (a : Atom) => decide (a.slot ≤ t ∧ a.ready ≤ m.tick)
  let here := st.atoms.filter due
  let m := m.setTg d { st with
    atoms := st.atoms.filter (fun a => !due a), nextSlot := t + 1
    evalTick := m.tick, evals := if st.evalTick = m.tick then st.evals + 1 else 1 }
  let (m, truths) := (m.noteLag d here).evalConds d t here (List.range 16)
  let m := m.wr64 (pgTrg d) TRG_SLOT_LO.TIME TRG_SLOT_HI.TIME (tick64 t)
  m.sequence d t truths

/-- The commit point of a TRG page whose course is ARMED or RUNNING (R272); on course P a tick of the island's time (log
entry 136). -/
def Module.trgCommitSlot (m : Module) (d : Nat) : Option Nat :=
  (m.reg.commits.get none (pgTrg d)).map fun c => nextMultiple (c.tick + 64) 4096

/-- Slots before the next one are all of those before a commit point. -/
def Module.atTrgCommit (m : Module) (d tc : Nat) : Bool :=
  decide (tc ≤ m.tick) && (d == 4 || !(m.tg d).running || decide (tc ≤ (m.tg d).nextSlot))

/-- The next slot is due: HORIZON ticks behind the present and at most two slots in a tick (R245); on course P by what its
bricks have delivered (R248). -/
def Module.slotDue (m : Module) (d : Nat) : Bool :=
  let t := m.tg d
  let horizon := m.lv (pgTrg d) TRG_HORIZON.TICKS
  let named := m.namedBricks d
  if d = 4 then
    t.start.isSome && (t.atoms.all fun a => decide (t.nextSlot < a.slot ∨ a.ready ≤ m.tick))
      && ((!named.isEmpty && named.all fun n => decide (t.nextSlot < t.seen.get 0 n))
        || decide (t.seenAt + horizon ≤ m.tick ∧ t.nextSlot ≤ t.top))
  else decide (t.nextSlot + horizon ≤ m.tick) && (t.evalTick != m.tick || decide (t.evals < 2))

/-- The next slot may be evaluated: the engine runs, the slot is due, and no commit point lies at or before it (R247). -/
def Module.mayEvaluate (m : Module) (d : Nat) : Bool :=
  (m.tg d).running && m.slotDue d && (match m.trgCommitSlot d with
    | some tc => !m.atTrgCommit d tc
    | none => true)

/-- The next slot is the expiry slot of a timeout that no hold suspends (R265). -/
def Module.timeoutDue (m : Module) (d : Nat) : Bool :=
  let p := pgTrg d
  let st := m.seqState d
  m.mayEvaluate d && (m.tg d).hold.isNone && m.lv p TRG_ST_CTRL.TIMEOUT_EN st == 1
    && (m.tg d).nextSlot == (m.tg d).entrySlot + m.lv p TRG_ST_TIMEOUT.TICKS st

/-- TRG_HOLD_END (R267): the hold ends at the next slot, which is then evaluated normally. -/
def execTrgHoldEnd (d : Course) (s : State) : Host.Outcome State Fault Refusal :=
  .next (if (s.m.mayEvaluate d && s.m.holdOver d (s.m.tg d).nextSlot) = true then s.onM fun m => m.endHold d (m.tg d).nextSlot else s)

/-- INJECTION_COMPLETION (R269) at the head of X → 24 + X. -/
def execInjectionCompletion (x : Input) (s : State) : Host.Outcome State Fault Refusal :=
  .next (match s.m.arrival x (24 + x.val) with
    | some (.injectDone _ why) =>
      s.onM fun m =>
        let p := pgTrg x
        let m := m.takeArrival x (24 + x.val)
        if why = 0 then m.bump p TRG_INJECT.ACCEPTED
        else ((m.bump p TRG_INJECT.REFUSED).wr p TRG_INJECT.LAST_REASON why).raise p 11
    | _ => s)

/-- TRG_LOG_POP (R274). -/
def State.takeTrgLogPop (s : State) (d : Course) : State :=
  (s.onM fun m => m.setTg d { m.tg d with log := (m.tg d).log.drop 1 })

/-- The command: a write that does this. -/
def execTrgLogPop (r : Requester) (d : Course) (s : State) : Host.Outcome State Fault Refusal :=
  .next (s.via (.trgLogPop r d) r (pgTrg d) fun s => s.takeTrgLogPop d)

/-- The mask copy runs: at most 33 µs (R255). -/
def Module.maskCopying (m : Module) (d : Nat) : Bool :=
  m.rd (pgTrg d) TRG_MASK_STATUS.COPYING == 1 && decide (m.tick < (m.tg d).copyFrom + 66000)

/-- MASK_COPY_DONE (R255). -/
def execMaskCopyDone (d : Course) (s : State) : Host.Outcome State Fault Refusal :=
  .next (s.onM fun m => m.wr (pgTrg d) TRG_MASK_STATUS.COPYING 0)

/-! ## Running the engine (R271) -/

/-- The engine starts in START_STATE at a slot: every condition restarts, and items before the slot are discarded. Course P
evaluates recorded stamps, and its timeline begins with its first item (R248). -/
def Module.startEngine (m : Module) (d slot : Nat) : Module :=
  let p := pgTrg d
  let t := m.tg d
  let m := m.setTg d { t with
    running := true, start := if d = 4 then none else some slot, nextSlot := slot
    atoms := t.atoms.filter (fun a => d != 4 && decide (slot ≤ a.slot)), hold := none, holdTo := none, lastTrig := none
    conds := [], compared := 128 * m.tick, seen := [], top := 0, seenAt := m.tick }
  (m.wr p TRG_SEQ_STATUS.HOLDING 0).enterState d (m.lv p TRG_SEQ_CFG.START_STATE) slot

/-- The engine evaluates no further slots; the log is kept. -/
def Module.stopEngine (m : Module) (d : Nat) : Module := m.setTg d { m.tg d with running := false, atoms := [] }

/-- A write of CTRL.ENABLE on a TRG page. -/
def Module.enableTrg (m : Module) (d : Nat) (on : Bool) : Module :=
  let p := pgTrg d
  let was := m.rd p CTRL.ENABLE == 1
  let m := m.wr p CTRL.ENABLE on.toNat
  if on && !was && m.rd (pgCrs d) CRS_STATUS.RUN_STATE == 2 then m.startEngine d (nextMultiple (m.tick + 64) 4096)
  else if !on && was then m.stopEngine d
  else m

/-! ## The commit of TRG -/

/-- The checks of one condition (R249, R253, R259, R260, R275). -/
def checkCond (d : Nat) (snap : Store Nat) (i : Nat) : List Bad :=
  let g := fun (f : Fld) => snapGet snap (pgTrg d) f i
  let t := g TRG_COND_CFG.TYPE
  let src := g TRG_COND_CFG.SOURCE
  let mode := g TRG_COND_CFG.MODE
  let up := toSigned 16 (g TRG_COND_LEVEL.UPPER)
  let lo := toSigned 16 (g TRG_COND_LEVEL.LOWER)
  let usesSrc := t == 1 || t == 2 || t == 3
  let badSrc := (t == 1 && (src != 0 || d == 4)) || (t == 2 && !(src == 1 || (src == 0 && d != 4)))
    || (t == 3 && !(src == 4 || ((src == 2 || src == 3) && d != 4))) || ((t == 4 || t == 5 || t == 8) && d == 4)
  chk (decide (8 < t)) 0x054 2 i ++ chk (usesSrc && decide (4 < src)) 0x054 2 i
  ++ chk (!(usesSrc && decide (4 < src)) && badSrc) 0x054 4 i
  ++ chk ((t == 3 && mode == 3) || (t == 4 && decide (1 < mode))) 0x054 4 i
  ++ chk (t == 8 && decide (3 < g TRG_COND_CFG.UNIT)) 0x054 2 i ++ chk (t == 8 && g TRG_COND_CFG.UNIT == d) 0x054 4 i
  ++ chk (t == 1 && (decide (up < -2048) || decide (2047 < up) || decide (lo < -2048) || decide (2047 < lo))) 0x054 2 i
  ++ chk ((t == 1 && decide (4095 < g TRG_COND_PARAM.HYST)) || (t == 2 && decide (0x7FFF < g TRG_COND_PARAM.HYST))) 0x054 2 i
  ++ chk (decide (16 < g TRG_COND_PARAM.LOG2L)) 0x05C 2 i
  ++ chk ((t == 3 || t == 4) && g TRG_COND_COUNT.COUNT == 0) 0x054 1 i
  ++ chk (t == 3 && decide (524288 < g TRG_COND_COUNT.COUNT)) 0x054 2 i
  ++ chk (t == 3 && decide (65536 < g TRG_COND_MASK_BASE.BASE + g TRG_COND_MASK_LEN.LEN)) 0x054 2 i
  ++ chk (t == 3 && g TRG_COND_MASK_LEN.LEN == 0) 0x054 1 i
  ++ chk (t == 7 && g TRG_COND_PERIOD.PERIOD == 0) 0x054 1 i
  ++ chk (g TRG_COND_PERIOD.PERIOD != 0 && decide (g TRG_COND_PERIOD.PERIOD < 128)) 0x06C 2 i
  ++ chk (t == 7 && g TRG_COND_PERIOD.PERIOD != 0 && decide (g TRG_COND_PERIOD.PERIOD ≤ g TRG_COND_PHASE.PHASE)) 0x054 2 i

/-- The checks of a TRG snapshot (R266, R273, R275). -/
def checkTrg (d : Nat) (snap : Store Nat) : List Bad :=
  let g := fun (f : Fld) (b : Nat) => snapGet snap (pgTrg d) f b
  let cross := g TRG_SEQ_CFG.CROSS_DEST 0
  let mode := g TRG_SEQ_CFG.HOLDOFF_MODE 0
  let hz := g TRG_HORIZON.TICKS 0
  chk (bit cross d || bit cross 4 || (d == 4 && cross != 0)) 0x040 4 ++ chk (mode == 3) 0x040 2
  ++ chk ((mode == 1 || mode == 2) && g TRG_HOLDOFF.VALUE 0 == 0) 0x040 1
  ++ chk (hz == 0) 0x048 1 ++ chk (hz != 0 && outside 64 4194304 hz) 0x048 2
  ++ (List.range 16).flatMap (checkCond d snap)
  ++ (List.range 8).flatMap (fun st =>
    chk (g TRG_ST_CTRL.INJECT st == 1 && d == 4) 0x098 4 st
    ++ chk (g TRG_ST_CTRL.CROSS st == 1 && g TRG_ST_CTRL.TRIGGER st == 0) 0x098 4 st
    ++ chk (g TRG_ST_COUNT.COUNT st == 0) 0x09C 1 st
    ++ chk (g TRG_ST_CTRL.TIMEOUT_EN st == 1 && g TRG_ST_TIMEOUT.TICKS st == 0) 0x098 1 st)

/-- The fields of a condition, of the sequencer, and of a state. -/
def condFields : List Fld := [TRG_COND_CFG.BRICK, TRG_COND_CFG.RECT, TRG_COND_CFG.UNIT, TRG_COND_CFG.IGNORE_DROP,
  TRG_COND_CFG.IGNORE_HOLDOVER, TRG_COND_CFG.IGNORE_TAINT, TRG_COND_CFG.MODE, TRG_COND_CFG.SOURCE, TRG_COND_CFG.TYPE,
  TRG_COND_LEVEL.UPPER, TRG_COND_LEVEL.LOWER, TRG_COND_PARAM.HYST, TRG_COND_PARAM.LOG2L, TRG_COND_COUNT.COUNT,
  TRG_COND_MASK_BASE.BASE, TRG_COND_MASK_LEN.LEN, TRG_COND_PERIOD.PERIOD, TRG_COND_PHASE.PHASE]
def seqFields : List Fld := [TRG_SEQ_CFG.CROSS_DEST, TRG_SEQ_CFG.HOLDOFF_COND, TRG_SEQ_CFG.HOLDOFF_MODE,
  TRG_SEQ_CFG.START_STATE, TRG_HOLDOFF.VALUE]
def stateFields : List Fld := [TRG_ST_MASKS.RESET_MASK, TRG_ST_MASKS.GO_MASK, TRG_ST_CTRL.IRQ, TRG_ST_CTRL.MARK,
  TRG_ST_CTRL.CROSS, TRG_ST_CTRL.INJECT, TRG_ST_CTRL.TRIGGER, TRG_ST_CTRL.TIMEOUT_EN, TRG_ST_CTRL.TIMEOUT_TO,
  TRG_ST_CTRL.RESET_TO, TRG_ST_CTRL.NEXT, TRG_ST_COUNT.COUNT, TRG_ST_TIMEOUT.TICKS]

/-- The effects of a TRG commit point (R255, R262, R272). -/
def Module.appliedTrg (m before : Module) (d : Nat) : Module :=
  let p := pgTrg d
  let m := m.setTg d { m.tg d with copyFrom := m.tick }
  let m := (List.range 16).foldl (fun m i =>
    if differs m before p condFields i then m.setTg d { m.tg d with conds := (m.tg d).conds.set CondSt.init i CondSt.init }
    else m) m
  let m := (m.wr p TRG_MASK_STATUS.BANK (1 - m.rd p TRG_MASK_STATUS.BANK)).wr p TRG_MASK_STATUS.COPYING 1
  let seq := differs m before p seqFields 0 || (List.range 8).any fun st => differs m before p stateFields st
  if (m.tg d).running && seq then
    let tc := (m.tg d).nextSlot
    let m := m.enterState d (m.lv p TRG_SEQ_CFG.START_STATE) tc
    match (m.tg d).lastTrig with
    | some t =>
      if tc < t + 128 then
        (m.wr p TRG_SEQ_STATUS.HOLDING 1).setTg d { m.tg d with hold := some (t, 0), holdTo := some (t + 128) }
      else (m.wr p TRG_SEQ_STATUS.HOLDING 0).setTg d { m.tg d with hold := none, holdTo := none }
    | none => (m.wr p TRG_SEQ_STATUS.HOLDING 0).setTg d { m.tg d with hold := none, holdTo := none }
  else m

end Sys2Proof.Machine
end

