-- ==== Sys2Proof/Machine/Records.lean ====
section
/-! DEFINITION. The byte layouts of spec/05, 06 and 09: spectra, IQ messages, records and marks. -/

namespace Sys2Proof.Machine

/-! ## Payloads (R169, R170) -/

/-- A LOG payload (R169), padded to 4 bytes. -/
def logBytes (p : Payload) : List Byte :=
  (p.log.flatMap fun v => leBytes 2 (ofSigned 16 v)) ++ leBytes (2 * (p.log.length % 2)) 0

/-- A COMPLEX payload: groups of up to 64 pairs behind their exponent (R170, R203). -/
def complexBytes (p : Payload) : List Byte :=
  p.blocks.flatMap fun b => leBytes 1 (ofSigned 8 b.1) ++ leBytes 3 0
    ++ b.2.flatMap fun z => leBytes 2 (ofSigned 16 z.1) ++ leBytes 2 (ofSigned 16 z.2)

/-- A little-endian field of bytes. -/
def le (l : List Byte) (ofs n : Nat) : Nat := leNat ((l.drop ofs).take n)

/-- `n` groups of 64 pairs read back from their layout. -/
def parseBlocks (l : List Byte) : Nat → List (Int × List Cx)
  | 0 => []
  | n + 1 => (toSigned 8 (le l 0 1), (List.range 64).map fun i =>
      (toSigned 16 (le l (4 + 4 * i) 2), toSigned 16 (le l (6 + 4 * i) 2))) :: parseBlocks (l.drop 260) n

/-- DESC of a spectrum (R173, R202). -/
def Spectrum.desc (s : Spectrum) : Nat :=
  s.input + (if s.brick.isSome then flag s.replay 2 else flag s.columns 2) + flag s.complex 3 + s.detector * 16
    + s.window * 64 + s.overlap * 512 + s.log2n * 2048

/-- The header of a spectrum (R173, R202). -/
def Spectrum.header (s : Spectrum) : List Byte :=
  leBytes 8 s.time ++ leBytes 4 s.seq ++ leBytes 2 s.desc ++ leBytes 1 s.flags ++ leBytes 1 s.finalExp
  ++ (match s.brick with
    | none => leBytes 4 s.first ++ leBytes 4 s.count
    | some n => leBytes 2 (n + 256 * s.course) ++ leBytes 1 s.epoch ++ leBytes 1 s.stages ++ leBytes 2 s.first
        ++ leBytes 2 s.count)
  ++ leBytes 2 s.entry ++ leBytes 2 s.config ++ leBytes 4 s.bytes

/-- The values of a spectrum in 1/256 dB (R169): as a LOG payload carries them, or of the powers of a COMPLEX one. -/
def Spectrum.levels (s : Spectrum) : List Int :=
  if s.complex then s.payload.pairs.map fun p =>
    let e := 2 * p.1 - 30
    logDb ((p.2.1 * p.2.1 + p.2.2 * p.2.2).toNat * 2 ^ e.toNat) (2 ^ (-e).toNat)
  else s.payload.log

/-- A whole spectrum. -/
def Spectrum.whole (s : Spectrum) : List Byte :=
  s.header ++ if s.complex then complexBytes s.payload else logBytes s.payload

/-- A map of set bits as little-endian bytes. -/
def bitMap (n : Nat) (l : List Nat) : List Byte := leBytes n ((l.dedup.map fun i => 2 ^ i).sum)

/-- An IQ message (R203). -/
def IqMsg.whole (m : IqMsg) : List Byte :=
  leBytes 8 m.stamp ++ leBytes 4 m.seq ++ leBytes 1 m.brick ++ leBytes 1 m.epoch ++ leBytes 1 m.flags ++ leBytes 1 m.first
  ++ leBytes 2 m.count ++ leBytes 1 m.stages ++ leBytes 1 (m.course + flag m.replay 3) ++ leBytes 4 m.rate
  ++ leBytes 2 m.entry ++ leBytes 2 m.config ++ leBytes 4 0 ++ bitMap 32 m.taints
  ++ complexBytes m.payload

/-! ## Raw samples (R104, R105) -/

/-- A C16 word. -/
def CSample.c16 (s : CSample) : Nat := ofSigned 12 s.value * 16 + flag s.ovr 3 + flag s.entryStart 2

/-- A P12 block: 168 samples, two in three bytes, and the trailer. -/
def p12Block (seq entry : Nat) (l : List CSample) : List Byte :=
  let body := (((List.range l.length).zip l).map fun p => ofSigned 12 p.2.value * 2 ^ (12 * p.1)).sum
  let firstOvr := l.findIdx fun s => s.ovr
  let any := l.any fun s => s.ovr
  let change := (l.drop 1).any fun s => s.entryStart
  leBytes 252 body ++ leBytes 4 (seq % 65536 * 65536 + flag any 15 + (if any then firstOvr else 0xFF) * 128
    + flag change 6 + entry)

/-! ## Items -/

/-- Header flags from the flags of an item (R174 to R293). -/
def headerFlags (f : Nat) : Nat :=
  flag (bit f 0) 1 + flag (bit f 1) 2 + flag (bit f 5) 3 + flag (bit f 4) 4 + flag (bit f 3) 5 + flag (bit f 2) 6

/-! ## Marks (R295) -/

/-- The instant of a mark. -/
def Mark.time : Mark → Nat
  | .swap i => i.time
  | .entry i => 16 * i.index % 2 ^ 64
  | .pause n => 16 * n % 2 ^ 64
  | .drop s => 16 * s.lo % 2 ^ 64
  | .genChange t _ => t * 256 % 2 ^ 64
  | .switched _ b _ => b

/-- A signed 8-bit saturating value. -/
def sat8 (i : Int) : Nat := ofSigned 8 (max (-128) (min 127 i))

/-- The 16 bytes of a mark, INPUT_GEN in force at it being `gen`. -/
def Mark.bytes (gen : Nat) : Mark → List Byte
  | .entry i => leBytes 8 (Mark.entry i).time ++ leBytes 1 1 ++ leBytes 1 (i.entry + flag i.injected 6 + flag i.resumed 7)
      ++ leBytes 6 (i.source + i.atten * 256 + gen * 65536)
  | .swap i => leBytes 8 i.time ++ leBytes 1 2 ++ leBytes 1 (flag i.large 0)
      ++ leBytes 6 (i.lane + i.out * 256 + i.inn * 65536 + sat8 i.ofs * 2 ^ 24 + sat8 i.gain * 2 ^ 32
        + sat8 (i.skew.getD 0) * 2 ^ 40)
  | .pause n => leBytes 8 (Mark.pause n).time ++ leBytes 1 3 ++ leBytes 7 0
  | .drop s => leBytes 8 (Mark.drop s).time ++ leBytes 1 4 ++ leBytes 1 0 ++ leBytes 6 ((s.hi + 1 - s.lo) % 2 ^ 32)
  | .switched n b i => leBytes 8 b ++ leBytes 1 5 ++ leBytes 1 0 ++ leBytes 6 (n + i % 2 ^ 32 * 65536)
  | .genChange _ _ => []

/-- Insert by time, after marks of the same time. -/
def insertMark (k : Mark) : List Mark → List Mark
  | [] => [k]
  | j :: l => if k.time < j.time then k :: j :: l else j :: insertMark k l

def sortMarks (l : List Mark) : List Mark := l.foldl (fun acc k => insertMark k acc) []

end Sys2Proof.Machine
end

