-- ==== Sys2Proof/Machine/Measure.lean ====
section
/-! DEFINITION. The hardware measurements of a record (spec/09, R300). -/

namespace Sys2Proof.Machine

/-! ## Magnitudes: |s| in LSB, |z| in Q2.14, as the square num × 2^exp -/

/-- A sample of a record: its instant, the square of its magnitude, and its code for RAW. -/
structure MeasSample where
  time : Nat
  num  : Nat
  exp  : Int
  code : Int
  deriving DecidableEq, Repr

/-- The magnitude is at least t. -/
def MeasSample.atLeast (s : MeasSample) (t : Nat) : Bool :=
  decide (t * t * 2 ^ (-s.exp).toNat ≤ s.num * 2 ^ s.exp.toNat)

/-- The magnitude is at most t. -/
def MeasSample.atMost (s : MeasSample) (t : Int) : Bool :=
  decide (0 ≤ t) && decide (s.num * 2 ^ s.exp.toNat ≤ t.toNat * t.toNat * 2 ^ (-s.exp).toNat)

/-- The magnitude to the nearest unit. -/
def MeasSample.mag (s : MeasSample) : Nat := (Nat.sqrt (4 * s.num * 2 ^ s.exp.toNat / 2 ^ (-s.exp).toNat) + 1) / 2

/-- The samples of an item of RAW or BRICK_IQ. -/
def Item.samples (i : Item) : List MeasSample :=
  match i.body with
  | .sample v _ => [⟨i.time, v.natAbs * v.natAbs, 0, v⟩]
  | .block b => ((List.range b.length).zip b).map fun p => ⟨i.time + 16 * p.1, p.2.value.natAbs * p.2.value.natAbs, 0, p.2.value⟩
  | .iq g =>
    (g.stamps.zip (g.payload.pairs.drop g.first)).map fun p =>
      ⟨p.1, (p.2.2.1 * p.2.2.1 + p.2.2.2 * p.2.2.2).toNat, 2 * p.2.1 - 2, 0⟩
  | .spec _ => []

/-- The interval from the last sample of a record to the one that would follow it (log entry 144). -/
def Item.spacing (i : Item) : Nat :=
  match i.body with
  | .iq g => 512000000000 / Nat.max 1 g.rate
  | _ => 16

/-- TIME_ABOVE: each sample at or above the threshold adds the interval to the next one's instant. -/
def timeAbove (thresh last : Nat) : List MeasSample → Nat
  | [] => 0
  | [s] => if s.atLeast thresh then last else 0
  | s :: r :: l => (if s.atLeast thresh then r.time - s.time else 0) + timeAbove thresh last (r :: l)

/-- The crossings: instants of the first sample at or above THRESH after one at or below THRESH − HYST. -/
def crossings (thresh hyst : Nat) : Bool → List MeasSample → List Nat
  | _, [] => []
  | armed, s :: l =>
    if armed && s.atLeast thresh then s.time :: crossings thresh hyst false l
    else crossings thresh hyst (armed || s.atMost ((thresh : Int) - hyst)) l

/-- AMPLITUDE: the greatest value minus the least. -/
def spread (l : List Int) : Nat := (l.foldl max (l.headD 0) - l.foldl min (l.headD 0)).toNat

/-! ## Powers of spectra, in 2^−128 -/

/-- e^x for x in units of 2^−80 (below 2.31), in those units. -/
def expSeries : Nat → Nat → Nat → Nat → Nat
  | 0, _, _, _ => 0
  | f + 1, m, t, x => t + expSeries f (m + 1) (t * x / one80 / (m + 1)) x

/-- The power of a LOG value v ÷ 256 dB: 10^(v ÷ 2,560) (log entry 144); ln 10 in units of 2^−80. -/
def logPower (v : Int) : Nat :=
  let q := v / 2560
  let s := expSeries 64 0 one80 ((v % 2560).toNat * 2783654570780253816072539 / 2560) * 2 ^ 48
  if 0 ≤ q then s * 10 ^ q.toNat else s / 10 ^ (-q).toNat

/-- The power of each value of a spectrum. -/
def Spectrum.powers (s : Spectrum) : List Nat :=
  if s.complex then s.payload.pairs.map fun p =>
    let e := 2 * p.1 + 98
    (p.2.1 * p.2.1 + p.2.2 * p.2.2).toNat * 2 ^ e.toNat / 2 ^ (-e).toNat
  else s.payload.log.map logPower

/-- Add lists value by value. -/
def addLists : List Nat → List Nat → List Nat
  | a :: l, b :: r => (a + b) :: addLists l r
  | [], r => r
  | l, [] => l

/-- The number of values before the cumulative sum reaches num ÷ den of the total. -/
def reachAt (num den total : Nat) : Nat → List Nat → Nat
  | _, [] => 0
  | acc, p :: l => if num * total ≤ (acc + p) * den then 0 else reachAt num den total (acc + p) l + 1

/-- The peak over spectra: value, item, place in the payload; the earliest item, then the lowest bin, on ties. -/
def peakOf (l : List (Nat × Spectrum)) : Option (Int × Nat × Nat × Spectrum) :=
  l.foldl (fun acc p =>
    ((List.range p.2.count).zip p.2.levels).foldl (fun acc q =>
      match acc with
      | some (v, i, j, s) => if v < q.2 then some (q.2, p.1, q.1, p.2) else some (v, i, j, s)
      | none => some (q.2, p.1, q.1, p.2)) acc) none

/-- The bin centre of value j of a spectrum in µHz (R168, R200); a column by its first bin (log entry 144). -/
def Module.binCentre (m : Module) (s : Spectrum) (j : Nat) : Nat :=
  match s.brick with
  | none =>
    let bins := m.lv (pgWte s.input) WTE_COL_BINS.BINS
    let b := if s.columns then s.first + j * bins / Nat.max 1 s.count else s.first + j
    b * 32000000000000000 / 2 ^ s.log2n
  | some n =>
    let c := m.brickCfg n
    let fk : Int := (125000000 + 250000000 * c.subband : Nat)
    let num : Int := fk * 2 ^ 50 + toSigned 48 c.nco * 500000000 * 4
      + ((s.first + j : Nat) - (2 ^ s.log2n / 2 : Nat) : Int) * (5 * c.span : Nat) * (2 ^ 48 / 2 ^ s.log2n : Nat)
    (roundAway (num * 1000000) (2 ^ 50)).toNat

/-- k bin spacings of a spectrum in µHz. -/
def Module.binSpan (m : Module) (s : Spectrum) (k : Nat) : Nat :=
  match s.brick with
  | none => k * 32000000000000000 / 2 ^ s.log2n
  | some n => (roundAway ((k * 5 * (m.brickCfg n).span * 1000000 : Nat) : Int) (4 * 2 ^ s.log2n)).toNat

/-- ENBW of a spectrum's window in 1/4,096 bin (R163, R200). -/
def Module.enbwOf (m : Module) (s : Spectrum) : Nat :=
  match s.brick with
  | none => m.rd (pgWte s.input) WTE_WIN_GAIN.ENBW
  | some n => (windowMetrics (windowList s.window (m.brickCfg n).beta (fun _ => 0) s.log2n)).2.1

/-- What the measurements of a record's items find (R300). -/
structure Measured where
  valid     : Nat
  peakPwr   : Int
  chanPwr   : Int
  amplitude : Nat
  peakFreq  : Nat
  obw       : Nat
  above     : Nat
  period    : Nat
  crossed   : Nat
  peakItem  : Nat
  deriving DecidableEq, Repr

/-- The measurements `en` over items: thresholds, the channel's first value and count, and OBW_FRAC. -/
def Module.measureItems (m : Module) (en thresh hyst first count frac : Nat) (l : List Item) : Measured :=
  let samples := l.flatMap Item.samples
  let raw := l.all fun i => match i.body with
    | .iq _ => false
    | _ => true
  let specs := ((List.range l.length).zip l).filterMap fun p => match p.2.body with
    | .spec s => some (p.1, s)
    | _ => none
  let peak := peakOf specs
  let bins := (specs.map fun p => (p.2.powers.drop first).take count).foldl addLists []
  let total := bins.sum
  let head := specs.head?.map Prod.snd
  let cross := crossings thresh hyst false samples
  let lo := reachAt (65536 - frac) 131072 total 0 bins
  let hi := reachAt (65536 + frac) 131072 total 0 bins
  let ok := fun (i : Nat) => bit en i && (match i with
    | 0 => peak.isSome
    | 1 => head.isSome
    | 2 => head.isSome && decide (0 < total)
    | 4 => decide (2 ≤ cross.length)
    | _ => !samples.isEmpty)
  let pick := fun (i n : Nat) => if ok i then n else 0
  { valid := ([0, 1, 2, 3, 4, 5].map fun i => flag (ok i) i).sum
    peakPwr := if ok 0 then (peak.map fun p => p.1).getD 0 else 0
    chanPwr := if ok 1 then logDb (total * 4096) (specs.length * 2 ^ 128 * (head.map m.enbwOf).getD 4096) else 0
    amplitude := pick 5 (Nat.min 65535 (spread (samples.map fun s => if raw then s.code else s.mag)))
    peakFreq := pick 0 ((peak.map fun p => m.binCentre p.2.2.2 p.2.2.1).getD 0)
    obw := pick 2 ((head.map fun s => m.binSpan s (hi - lo + 1)).getD 0)
    above := pick 3 (timeAbove thresh ((l.getLast?.map Item.spacing).getD 16) samples)
    period := pick 4 (roundAway ((cross.getLastD 0 - cross.headD 0 : Nat) : Int) (cross.length - 1)).toNat
    crossed := if bit en 4 then cross.length else 0
    peakItem := pick 0 ((peak.map fun p => p.2.1).getD 0) }

/-- The measurement block but for the core slots (R301). -/
def Measured.bytes (r : Measured) (slots : Nat) : List Byte :=
  leBytes 2 r.valid ++ leBytes 2 (ofSigned 16 r.peakPwr) ++ leBytes 2 (ofSigned 16 r.chanPwr) ++ leBytes 2 r.amplitude
    ++ leBytes 8 r.peakFreq ++ leBytes 8 r.obw ++ leBytes 8 r.above ++ leBytes 8 r.period ++ leBytes 4 r.crossed
    ++ leBytes 4 r.peakItem ++ leBytes 1 slots ++ leBytes 15 0

/-- Enabled measurements that could not be formed (R300). -/
def Measured.invalid (r : Measured) (en : Nat) : Nat :=
  ([0, 1, 2, 3, 4, 5].filter fun i => bit en i && !bit r.valid i).length

end Sys2Proof.Machine
end

