-- ==== Sys2Proof/Machine/Acquire.lean ====
section
/-! DEFINITION. The acquisition writers and the replay of records (spec/09). -/

namespace Sys2Proof.Machine

def Module.cpt (m : Module) (b : Nat) : CapSt := m.cap.get CapSt.init b
def Module.setCpt (m : Module) (b : Nat) (c : CapSt) : Module := { m with cap := m.cap.set CapSt.init b c }
def Module.crs (m : Module) (d : Nat) : CourseSt := m.course.get CourseSt.init d
def Module.setCrs (m : Module) (d : Nat) (c : CourseSt) : Module := { m with course := m.course.set CourseSt.init d c }

/-- A field of a capture: of what it was armed with, which no commit changes while its records are unfinished (R284), else the
live one. -/
def Module.cap_ (m : Module) (b : Nat) (f : Fld) : Nat :=
  match (m.cpt b).conf with
  | some st => st.get 0 (fieldKey pgAcq f b)
  | none => m.lv pgAcq f b

/-- A field of a capture's measurements, likewise. -/
def Module.meas_ (m : Module) (b : Nat) (f : Fld) : Nat :=
  match (m.cpt b).conf with
  | some st => st.get 0 (fieldKey pgMeas f b)
  | none => m.lv pgMeas f b

/-- STATE of a capture: 0 IDLE, 1 ARMED, 2 COLLECTING, 3 FULL. -/
def Module.capState (m : Module) (b : Nat) : Nat := m.rd pgAcq ACQ_CAP_STATUS.STATE b

/-! ## Geometry (R277–R283) -/

/-- A source: bytes of an item, its period as a fraction of LSBs, and the samples an item holds. -/
structure SrcInfo where
  bytes : Nat
  num   : Nat
  den   : Nat
  each  : Nat
  count : Nat
  log   : Bool
  deriving DecidableEq, Repr

/-- The source `src` of course d with a brick, under the live configuration. -/
def Module.srcInfo (m : Module) (d src specSrc n : Nat) : SrcInfo :=
  let w := m.wteCfg d
  let c := m.brickCfg n
  let bins : SrcInfo := ⟨32 + binBytes w.complex w.binCount, 16 * w.hop, 1, 1, w.binCount, !w.complex⟩
  let cols : SrcInfo := ⟨32 + binBytes false w.colCount, 16 * w.hop, 1, 1, w.colCount, true⟩
  let spec : SrcInfo := ⟨32 + binBytes c.complex c.count, c.hop * 2048000000000, 5 * c.span, 1, c.count, !c.complex⟩
  match src with
  | 0 => if m.lv (pgCnv d) CNV_FORMAT.RAW_FMT = 0 then ⟨2, 16, 1, 1, 0, false⟩ else ⟨256, 2688, 1, 168, 0, false⟩
  | 1 => bins
  | 2 => cols
  | 3 => spec
  | 4 => ⟨1104, 256 * 2048000000000, 5 * c.span, 256, 0, false⟩
  | _ => { (if specSrc = 0 then bins else if specSrc = 1 then cols else spec) with bytes := 0 }

/-- What a capture's geometry follows from, read through `g` (live, or a snapshot). -/
def Module.infoOf (m : Module) (g : Fld → Nat) : SrcInfo :=
  m.srcInfo (g ACQ_CAP_CFG.COURSE) (g ACQ_CAP_CFG.SRC) (g ACQ_CAP_SOURCE.SPEC_SRC) (g ACQ_CAP_SOURCE.BRICK)

/-- A measurement block is present (R280). -/
def Module.measured (m : Module) (b : Nat) : Bool := m.meas_ b MEAS_EN.ENABLES != 0 || m.meas_ b MEAS_EN.CORE_SLOTS != 0

/-- MARK_OFFSET and ITEM_OFFSET (R280). -/
def Module.markOffset (m : Module) (b : Nat) : Nat :=
  128 + if m.measured b then 64 * (1 + m.meas_ b MEAS_EN.CORE_SLOTS) else 0
def Module.itemOffset (m : Module) (b slots : Nat) : Nat := m.markOffset b + nextMultiple (16 * slots) 64

/-- ITEM_CAP (R280). -/
def itemCap (segBytes itemOffset itemBytes : Nat) : Nat := if itemBytes = 0 then 0 else (segBytes - itemOffset) / itemBytes

/-- The lookahead A (R281). -/
def SrcInfo.lookahead (i : SrcInfo) (horizon : Nat) : Nat := ceilDiv ((horizon + 256) * 256 * i.den) i.num + 1

/-- Pi and Qi (R281). -/
def itemsPre (each n : Nat) : Nat := if each = 1 ∨ n = 0 then n else ceilDiv n each + 1
def itemsPost (each n : Nat) : Nat := if each = 1 then n else ceilDiv n each + 1

/-- ACQ_CAP_RATE (R283): units per period per stack, with the duplication of R285. -/
def SrcInfo.rate (i : SrcInfo) (n : Nat) : Nat := ceilDiv (2 * i.bytes * 524288 * i.den) (i.num * 64 * n)

/-- From FRAME_TIME to the instant of the last converter sample of a spectrum's frame (log entry 145). -/
def Module.coverOf (m : Module) (sp : Spectrum) : Nat :=
  match sp.brick with
  | none => 16 * (2 ^ sp.log2n - 1)
  | some n => (2 ^ sp.log2n - 1) * 2048000000000 / Nat.max 1 (5 * (m.brickCfg n).span)

/-- The byte offset of a segment in its region. -/
def Module.segOfs (m : Module) (b index : Nat) : Nat := index * (m.cap_ b ACQ_CAP_SEG_SIZE.SIZE * 4096)

def Module.capInfo (m : Module) (b : Nat) : SrcInfo := m.infoOf (m.cap_ b)
def Module.changeOnly (m : Module) (b : Nat) : Bool := m.cap_ b ACQ_CAP_CFG.SRC == 5
def Module.streaming (m : Module) (b : Nat) : Bool := m.cap_ b ACQ_CAP_CFG.MODE == 1
def Module.capOfs (m : Module) (b : Nat) : Nat := m.itemOffset b (m.cap_ b ACQ_CAP_MARKS.SLOTS)
def Module.capIsland (m : Module) (b : Nat) : Nat := courseIsland (m.cap_ b ACQ_CAP_CFG.COURSE)
def Module.capAct (m : Module) (b : Nat) : Nat := m.cap_ b ACQ_CAP_REGION.ACT

/-- Pi and Qi of a capture (R281). -/
def Module.capPre (m : Module) (b : Nat) : Nat := itemsPre (m.cpt b).each (m.cap_ b ACQ_CAP_PRE.PRE)
def Module.capPost (m : Module) (b : Nat) : Nat := itemsPost (m.cpt b).each (m.cap_ b ACQ_CAP_POST.POST)

/-- A capture is armed. -/
def Module.capArmed (m : Module) (b : Nat) : Bool := m.lv pgAcq ACQ_CAP_CFG.ARM b == 1

/-- The armed captures of a course. -/
def Module.capsOf (m : Module) (d : Nat) : List Nat :=
  (List.range 32).filter fun b => m.capArmed b && m.cap_ b ACQ_CAP_CFG.COURSE == d

/-- The lookahead of a capture, at each ACQ and TRG commit point (R281). -/
def Module.showLookahead (m : Module) (b : Nat) : Module :=
  m.wr pgAcq ACQ_CAP_LOOKAHEAD.A
    ((m.capInfo b).lookahead (m.lv (pgTrg (m.cap_ b ACQ_CAP_CFG.COURSE)) TRG_HORIZON.TICKS)) b

/-- The registers that the geometry shows (R280, R283, R303), at the commit point that arms the capture. -/
def Module.capRegs (m : Module) (b : Nat) : Module :=
  let i := m.capInfo b
  let nStacks := (m.region (m.cap_ b ACQ_CAP_REGION.REGION)).stackSet.length
  let size := m.cap_ b ACQ_CAP_SEG_SIZE.SIZE * 4096
  ((m.wr pgAcq ACQ_CAP_ITEM_CAP.SLOTS (itemCap size (m.capOfs b) i.bytes) b).wr pgAcq ACQ_CAP_ITEM_BYTES.BYTES i.bytes b).wr
    pgAcq ACQ_CAP_RATE.UNITS (if nStacks = 0 then 0 else i.rate nStacks) b

/-! ## HBM writes of the writers (R297) -/

/-- A write of a course's writer that waits for its budget (R41). -/
def State.waitWrite (s : State) (b ofs : Nat) (data : List Byte) : State :=
  s.unitWrite (s.m.capIsland b) (s.m.capAct b) (s.m.cap_ b ACQ_CAP_REGION.REGION) ofs data

/-- Stretches that touch are written as one. -/
def joinRuns : List (Nat × List Byte) → List (Nat × List Byte)
  | [] => []
  | (o, d) :: l =>
    match joinRuns l with
    | (p, e) :: r => if o + d.length = p then (o, d ++ e) :: r else (o, d) :: (p, e) :: r
    | [] => [(o, d)]

/-- Items written together (R297): the writer of course P waits; those of courses A–D are real-time writers, whose items are
discarded when they do not fit, and wait only behind an earlier write of the pair that is held. True unless discarded. -/
def State.itemWrite (s : State) (b count : Nat) (l : List (Nat × List Byte)) : Bool × State :=
  let runs := joinRuns l
  let r := s.m.cap_ b ACQ_CAP_REGION.REGION
  if s.m.cap_ b ACQ_CAP_CFG.COURSE = 4 ∨ s.m.writesHeld (s.m.capIsland b) = true then
    (true, runs.foldl (fun s p => s.waitWrite b p.1 p.2) s)
  else
    let places := runs.map fun p => (p.1, p.2.length)
    let total := (places.map Prod.snd).sum
    match s.m.chargeOrDrop (s.m.capAct b) total (stackCosts (s.m.region r) places) with
    | (true, m) => (true, runs.foldl (fun s p => s.hbmWrite (s.m.capIsland b) r p.1 p.2) { s with m := m })
    | (false, m) => (false, { s with m := (m.bump pgAcq ACQ_CAP_DROPPED.ITEMS count b).raise pgAcq 14 })

/-! ## Segments (R285–R291) -/

/-- The segments with an index, changed. -/
def CapSt.onSeg (c : CapSt) (index : Nat) (f : Seg → Seg) : CapSt :=
  { c with segs := c.segs.map fun g => if g.index = index then f g else g }

def Module.onSeg (m : Module) (b index : Nat) (f : Seg → Seg) : Module := m.setCpt b ((m.cpt b).onSeg index f)

/-- The collecting segment: the last one, not yet a record. -/
def CapSt.collecting (c : CapSt) : Option Seg :=
  match c.segs.getLast? with
  | some g => if g.trig.isNone then some g else none
  | none => none

/-- The segments that count as open: the collecting one and the records still gathering (R286). -/
def CapSt.openCount (c : CapSt) : Nat := (c.segs.filter fun g => g.close.isNone).length

/-- A segment is free (R289, R290). -/
def Module.segFree (m : Module) (b : Nat) : Bool :=
  decide (m.rd pgAcq ACQ_CAP_USED.SEGMENTS b + (m.cpt b).segs.length < m.rd pgAcq ACQ_CAP_LEN.LEN b)

/-- Open the next segment as `g`: TYPE reads 0 and the core slots are zero before any item is written (R288, R301). -/
def State.openAs (s : State) (b : Nat) (g : Seg) : State :=
  let c := s.m.cpt b
  let g := { g with index := c.next }
  let next := if s.m.rd pgAcq ACQ_CAP_LEN.LEN b ≤ c.next + 1 then 0 else c.next + 1
  let s := s.onM fun m => m.setCpt b { c with segs := c.segs ++ [g], next := next }
  let s := s.waitWrite b (s.m.segOfs b g.index) [0, 0]
  let slots := s.m.meas_ b MEAS_EN.CORE_SLOTS
  if slots = 0 then s else s.waitWrite b (s.m.segOfs b g.index + 192) (leBytes (64 * slots) 0)

/-- Parts that wait take the segments that are free (R296). -/
def State.openStalled (s : State) (b : Nat) : Nat → State
  | 0 => s
  | fuel + 1 =>
    match (s.m.cpt b).stall with
    | g :: rest =>
      if s.m.segFree b then
        ((s.onM fun m => m.setCpt b { m.cpt b with stall := rest }).openAs b { g with closedAt := s.m.clk.ticks }).openStalled b fuel
      else s
    | [] => s

/-- Open a collecting segment when the capture collects and has none, and one is free. -/
def State.reopen (s : State) (b : Nat) : State :=
  let s := s.openStalled b 16
  if 2 ≤ s.m.capState b ∧ (s.m.cpt b).collecting = none ∧ s.m.segFree b = true then s.openAs b (Seg.open_ 0) else s

/-- A record closes for a cause (R287). -/
def Seg.closes (g : Seg) (cause tick : Nat) : Seg :=
  if g.trig.isSome ∧ g.close.isNone then { g with close := some cause, closedAt := tick } else g

/-- Every record of a capture closes for a cause, also one whose next part waits for a segment. -/
def Module.closeRecords (m : Module) (b cause : Nat) : Module :=
  let c := m.cpt b
  m.setCpt b { c with
    segs := c.segs.map fun g => g.closes cause m.clk.ticks, stall := c.stall.map fun g => g.closes cause m.clk.ticks }

/-- The collecting segment starts afresh. -/
def Module.restartCollecting (m : Module) (b : Nat) : Module :=
  m.setCpt b { m.cpt b with segs := (m.cpt b).segs.map fun g =>
    if g.trig.isNone then { g with items := [], written := 0, dropped := 0, preLost := false } else g }

/-! ## Items (R285, R296) -/

/-- An item with its bytes. -/
structure Feedstock where
  item : Item
  data : List Byte
  deriving DecidableEq, Repr

/-- A segment takes one item into the next slot of its ring. -/
def Seg.push (g : Seg) (cap : Nat) (i : Item) : Seg :=
  let l := g.items ++ [i]
  { g with items := l.drop (l.length - cap), written := g.written + 1 }

/-- A segment takes items: written together where the budget allows it (R285, R297). A slot holds no more than ITEM_BYTES. -/
def State.segPush (s : State) (b index : Nat) (l : List Feedstock) : State :=
  match (s.m.cpt b).segs.find? fun g => g.index == index with
  | some g =>
    if l = [] then s
    else
      let cap := s.m.rd pgAcq ACQ_CAP_ITEM_CAP.SLOTS b
      let size := s.m.rd pgAcq ACQ_CAP_ITEM_BYTES.BYTES b
      let base := s.m.segOfs b g.index + s.m.capOfs b
      let placed := ((List.range l.length).map fun i => (g.written + i) % Nat.max 1 cap).zip l
      let (ok, s) := s.itemWrite b l.length (placed.map fun p => (base + p.1 * size, p.2.data.take size))
      s.onM fun m => m.onSeg b index fun g =>
        placed.foldl (fun g p => g.push cap { p.2.item with slot := p.1, stored := ok }) g
  | none => s

/-- The items of a record (R285): the last Pi before the trigger item, and from it at most Qi; a later part holds only
items from the trigger item onward. -/
def Seg.record (g : Seg) (pre post : Nat) : List Item × List Item :=
  match g.trig with
  | some (t, _) =>
    let early := if g.part = 0 then g.items.takeWhile fun i => decide (i.time < t) else []
    let late := if g.part = 0 then g.items.dropWhile fun i => decide (i.time < t) else g.items
    (early.drop (early.length - pre), late.take (post - g.before))
  | none => ([], [])

/-- Items from the trigger item onward that a record, or its part, still takes (R287). -/
def Seg.room (g : Seg) (stream : Bool) (cap pre post : Nat) : Nat :=
  let (early, late) := g.record pre post
  let left := post - g.before - late.length
  if stream then Nat.min left (cap - early.length - late.length) else left

/-- The segment has what it needs, or its part is full (R287). -/
def Seg.closing (g : Seg) (stream : Bool) (cap pre post : Nat) : Option Nat :=
  if g.trig.isNone ∨ g.close.isSome then none
  else
    let (early, late) := g.record pre post
    if post ≤ g.before + late.length then some 1
    else if stream ∧ cap ≤ early.length + late.length then some 7
    else none

/-- The part that continues a full one. -/
def Seg.further (g : Seg) (pre post : Nat) : Seg :=
  let (early, late) := g.record pre post
  { Seg.open_ 0 with
    trig := g.trig, seq := g.seq, part := g.part + 1, before := g.before + late.length, prior := g.prior ++ early ++ late }

/-- A part begins (R296): in the segment that follows, which the collecting one gives up and leaves for the next free one; else in
a free one; else it waits, and the writer discards items (log entry 142). Answers its segment. -/
def State.beginPart (s : State) (b : Nat) (g : Seg) : Option Nat × State :=
  match (s.m.cpt b).collecting with
  | some k =>
    let s := s.onM fun m => m.onSeg b k.index fun _ => { g with index := k.index }
    (some k.index, s.reopen b)
  | none =>
    if s.m.segFree b then (some (s.m.cpt b).next, s.openAs b g)
    else
      (none, s.onM fun m =>
        (m.setCpt b { m.cpt b with stall := (m.cpt b).stall ++ [{ g with overrun := true }] }).raise pgAcq 11)

/-- What a segment needs to close, closes it; a full part goes on in the next. Answers the segment that goes on. -/
def State.closeSeg (s : State) (b index : Nat) : Option Nat × State :=
  let pre := s.m.capPre b
  let post := s.m.capPost b
  match (s.m.cpt b).segs.find? fun g => g.index == index with
  | some g =>
    match g.closing (s.m.streaming b) (s.m.rd pgAcq ACQ_CAP_ITEM_CAP.SLOTS b) pre post with
    | some 7 =>
      (s.onM fun m => m.onSeg b index fun g => { g.closes 7 m.clk.ticks with last := false }).beginPart b (g.further pre post)
    | some k => (none, s.onM fun m => m.onSeg b index fun g => g.closes k m.clk.ticks)
    | none => (some index, s)
  | none => (none, s)

/-- Items discarded while a part waits for its segment (R296). -/
def Module.overrun (m : Module) (b n : Nat) : Module :=
  let k := ((m.cpt b).stall.filter fun g => g.close.isNone).length
  if k = 0 ∨ n = 0 then m
  else
    let m := m.setCpt b { m.cpt b with stall := (m.cpt b).stall.map fun g =>
      if g.close.isNone then { g with dropped := g.dropped + n } else g }
    (m.bump pgAcq ACQ_CAP_DROPPED.ITEMS (k * n) b).raise pgAcq 11

/-- A record takes items until it closes; what a full part leaves goes to the next. -/
def State.feedRecord (s : State) (b : Nat) : Nat → Nat → List Feedstock → State
  | 0, _, _ => s
  | fuel + 1, index, l =>
    match (s.m.cpt b).segs.find? fun g => g.index == index with
    | some g =>
      let t := (g.trig.getD (0, 0)).1
      let started := g.part != 0 || g.items.any fun i => decide (t ≤ i.time)
      let early := if started then [] else l.takeWhile fun f => decide (f.item.time < t)
      let s := s.segPush b index early
      let rest := l.drop early.length
      let n := match (s.m.cpt b).segs.find? fun g => g.index == index with
        | some g => g.room (s.m.streaming b) (s.m.rd pgAcq ACQ_CAP_ITEM_CAP.SLOTS b) (s.m.capPre b) (s.m.capPost b)
        | none => 0
      match (s.segPush b index (rest.take n)).closeSeg b index with
      | (some k, s) => if k = index ∨ rest.drop n = [] then s else s.feedRecord b fuel k (rest.drop n)
      | (none, s) => s
    | none => s

/-- Every open segment takes the items of a message: the records, then the collecting segment. -/
def State.takeAll (s : State) (b : Nat) (l : List Feedstock) : State :=
  let s := s.onM fun m => m.overrun b l.length
  let open_ := ((s.m.cpt b).segs.filter fun g => g.trig.isSome && g.close.isNone).map Seg.index
  let s := open_.foldl (fun s k => s.feedRecord b (l.length + 2) k l) s
  match (s.m.cpt b).collecting with
  | some g => s.segPush b g.index l
  | none => s

/-- Items of a message reach a capture that stores fixed-size items (R285, R287). One that carries CONFIG_CHANGE or has another
size closes the records, and the collecting segment restarts from it (log entry 141). -/
def State.capItems (s : State) (b : Nat) (change : Bool) (l : List Feedstock) : State :=
  let size := s.m.rd pgAcq ACQ_CAP_ITEM_BYTES.BYTES b
  if change ∨ l.any fun f => f.data.length ≠ size then
    let s := (s.onM fun m => (m.closeRecords b 5).restartCollecting b).reopen b
    match (s.m.cpt b).collecting with
    | some g => s.segPush b g.index l
    | none => s
  else s.takeAll b l

/-! ## Change-only storage (R298, R299) -/

/-- A frame of R299. -/
def changeFrame (s : Spectrum) (key : Bool) (quiet : Nat) (l : List (Nat × Int)) : List Byte :=
  leBytes 8 s.time ++ leBytes 4 l.length ++ leBytes 2 quiet ++ leBytes 1 s.flags ++ leBytes 1 key.toNat
  ++ if key then (l.flatMap fun p => leBytes 2 (ofSigned 16 p.2)) ++ leBytes (2 * (l.length % 2)) 0
    else l.flatMap fun p => leBytes 2 p.1 ++ leBytes 2 (ofSigned 16 p.2)

/-- A spectrum is stored as a key frame: the first, every KEY_EVERY-th with KEY_EN, and one with GAP or BUDGET_DROP. -/
def Module.keyFrame (m : Module) (b : Nat) (g : Seg) (flags : Nat) : Bool :=
  g.ref.isEmpty || (m.cap_ b ACQ_CAP_CHANGE.KEY_EN == 1 && decide (m.cap_ b ACQ_CAP_CHANGE.KEY_EVERY ≤ g.sinceKey + 1))
    || bit flags 4 || bit flags 3

/-- One spectrum at one change-only record. A frame that the budget discards leaves the values stored before it in force. -/
def State.judge (s : State) (b : Nat) (g : Seg) (sp : Spectrum) : State :=
  let key := s.m.keyFrame b g sp.flags
  let pairs := (List.range sp.payload.log.length).zip sp.payload.log
  let kept := if key then pairs else pairs.filter fun p =>
    decide (s.m.cap_ b ACQ_CAP_CHANGE.DEADBAND < (p.2 - g.ref.getD p.1 0).natAbs)
  let time := s.m.itemTime (s.m.cap_ b ACQ_CAP_CFG.COURSE) sp.time
  let item := fun (stored : Bool) => (⟨time, time + s.m.coverOf sp, 0, sp.flags, stored, .spec sp⟩ : Item)
  let g := { g with judged := g.judged + 1 }
  if kept = [] ∧ sp.flags = 0 ∧ g.quiet < 65535 then
    s.onM fun m => m.onSeg b g.index fun _ =>
      { g with quiet := g.quiet + 1, sinceKey := g.sinceKey + 1, items := g.items ++ [item false] }
  else
    let data := changeFrame sp key g.quiet kept
    if s.m.cap_ b ACQ_CAP_SEG_SIZE.SIZE * 4096 < s.m.capOfs b + g.used + data.length then
      s.onM fun m => m.onSeg b g.index fun _ => g.closes 4 m.clk.ticks
    else
      let (ok, s) := s.itemWrite b 1 [(s.m.segOfs b g.index + s.m.capOfs b + g.used, data)]
      s.onM fun m => m.onSeg b g.index fun _ =>
        if ok then { g with
          ref := pairs.map fun p => if kept.contains p then p.2 else g.ref.getD p.1 0
          used := g.used + data.length, quiet := 0, sinceKey := if key then 0 else g.sinceKey + 1
          items := g.items ++ [item true] }
        else { g with dropped := g.dropped + 1, sinceKey := g.sinceKey + 1, items := g.items ++ [item false] }

/-- A spectrum reaches a change-only capture. CONFIG_CHANGE closes the records that have begun; one that waits for its
first spectrum takes it as its key frame. -/
def State.capChange (s : State) (b : Nat) (sp : Spectrum) : State :=
  if sp.complex then s.onM fun m => m.bump pgAcq ACQ_CAP_IGNORED.ITEMS 1 b
  else
    let post := s.m.cap_ b ACQ_CAP_POST.POST
    (s.m.cpt b).segs.foldl (fun s g =>
      if g.trig.isNone ∨ g.close.isSome then s
      else
        let s := if bit sp.flags 7 && decide (0 < g.judged) then s.onM fun m => m.onSeg b g.index fun g => g.closes 5 m.clk.ticks
          else s.judge b g sp
        s.onM fun m => m.onSeg b g.index fun g => if post ≤ g.judged then g.closes 1 m.clk.ticks else g) s

/-! ## Arrivals -/

/-- A brick's role in the epoch table of a course is SENTINEL (R278). -/
def Module.sentinel (m : Module) (d n : Nat) : Bool := (m.crs d).epochs.get 0 n / 256 % 8 == 5

/-- The captures of a course that collect and name a source. -/
def Module.collectors (m : Module) (d : Nat) (p : Nat → Bool) : List Nat :=
  (m.capsOf d).filter fun b => decide (2 ≤ m.capState b) && p b

/-- A spectrum reaches the writer of course d. -/
def State.acqSpectrum (s : State) (d : Nat) (sp : Spectrum) : State :=
  let from_ := fun (b src : Nat) => match sp.brick with
    | none => src == (if sp.columns then 2 else 1)
    | some n => src == 3 && s.m.cap_ b ACQ_CAP_SOURCE.BRICK == n
  let chg := fun (b : Nat) => match sp.brick with
    | none => s.m.cap_ b ACQ_CAP_SOURCE.SPEC_SRC == (if sp.columns then 1 else 0)
    | some n => s.m.cap_ b ACQ_CAP_SOURCE.SPEC_SRC == 2 && s.m.cap_ b ACQ_CAP_SOURCE.BRICK == n
  let skip := match sp.brick with
    | some n => s.m.sentinel d n
    | none => false
  let time := if d = 4 then sp.time else s.m.unwrap sp.time
  let f : Feedstock := ⟨⟨time, time + s.m.coverOf sp, 0, sp.flags, true, .spec sp⟩, sp.whole⟩
  (s.m.collectors d fun b => from_ b (s.m.cap_ b ACQ_CAP_CFG.SRC) || (s.m.changeOnly b && chg b)).foldl (fun s b =>
    if skip then s.onM fun m => m.bump pgAcq ACQ_CAP_IGNORED.ITEMS 1 b
    else if s.m.changeOnly b then s.capChange b sp
    else s.capItems b (bit sp.flags 7) [f]) s

/-- A brick IQ message reaches the writer of course d. -/
def State.acqIq (s : State) (d : Nat) (g : IqMsg) : State :=
  let of := fun t => if d = 4 then t else s.m.unwrap t
  let first := g.stamps.headD g.stamp
  let f : Feedstock := ⟨⟨of first, of (g.stamps.getLastD first), 0, g.flags, true, .iq g⟩, g.whole⟩
  (s.m.collectors d fun b => s.m.cap_ b ACQ_CAP_CFG.SRC == 4 && s.m.cap_ b ACQ_CAP_SOURCE.BRICK == g.brick).foldl (fun s b =>
    if s.m.sentinel d g.brick then s.onM fun m => m.bump pgAcq ACQ_CAP_IGNORED.ITEMS 1 b
    else s.capItems b (bit g.flags 7) [f]) s

/-- The items of a raw message: C16 samples, or the P12 blocks (R277); HOLDOVER and INJECTED_ENTRY over every sample of a block
(R293; log entry 125). -/
def Module.rawItems (m : Module) (d : Nat) (g : SampleMsg) : List Feedstock :=
  let hold := m.holdover (courseIsland d) [0, 5, d + 1]
  let flags := fun (n k : Nat) =>
    flag (hold || touches g.holdover ⟨n, n + k⟩) 1 + flag (injectedIn g.entries ⟨n, n + k⟩) 2
  if g.p12 then
    (List.range (g.samples.length / 168)).map fun k =>
      let l := (g.samples.drop (168 * k)).take 168
      let n := g.first + 168 * k
      ⟨⟨16 * n, 16 * (n + 167), 0, flags n 167, true, .block l⟩,
        p12Block (g.block + k) (match entryAt g.entries n with
          | some i => i.entry
          | none => 0) l⟩
  else
    ((List.range g.samples.length).zip g.samples).map fun p =>
      ⟨⟨16 * (g.first + p.1), 16 * (g.first + p.1), 0, flags (g.first + p.1) 0, true, .sample p.2.value p.2.ovr⟩,
        leBytes 2 p.2.c16⟩

/-- A raw message reaches the writer of course d. -/
def State.acqRaw (s : State) (d : Nat) (g : SampleMsg) : State :=
  (s.m.collectors d fun b => s.m.cap_ b ACQ_CAP_CFG.SRC == 0).foldl (fun s b => s.capItems b false (s.m.rawItems d g)) s

/-! ## Triggers (R285, R286, R290) -/

/-- The trigger is missed. -/
def Module.trigMissed (m : Module) (b : Nat) : Module := (m.bump pgAcq ACQ_CAP_MISSED.TRIGGERS 1 b).raise pgAcq 10

/-- The segment at READ is taken without being read (R290). -/
def Module.overwriteOldest (m : Module) (b : Nat) : Module :=
  let r := m.rd pgAcq ACQ_CAP_READ.SEGMENT b
  let len := m.rd pgAcq ACQ_CAP_LEN.LEN b
  ((m.wr pgAcq ACQ_CAP_READ.SEGMENT (if len ≤ r + 1 then 0 else r + 1) b).wr pgAcq ACQ_CAP_USED.SEGMENTS
    (m.rd pgAcq ACQ_CAP_USED.SEGMENTS b - 1) b).bump pgAcq ACQ_CAP_OVERWRITTEN.SEGMENTS 1 b

/-- The ring is full of records not yet released (R290). -/
def Module.ringFull (m : Module) (b : Nat) : Bool :=
  m.rd pgAcq ACQ_CAP_USED.SEGMENTS b == m.rd pgAcq ACQ_CAP_LEN.LEN b && !m.streaming b

/-- The collecting segment becomes the record of a trigger, and the next free segment opens. -/
def State.makeRecord (s : State) (b time mask : Nat) (g : Seg) : State :=
  let early := (g.items.takeWhile fun i => decide (i.time < time)).length
  let lost := decide (early < s.m.capPre b) && decide (s.m.rd pgAcq ACQ_CAP_ITEM_CAP.SLOTS b < g.written) && !s.m.changeOnly b
  let s := s.onM fun m =>
    let c := (m.cpt b).onSeg g.index fun g => { g with trig := some (time, mask), seq := (m.cpt b).seq, preLost := lost }
    m.setCpt b { c with seq := c.seq + 1 }
  let s := if lost then s.onM fun m => (m.bump pgAcq ACQ_CAP_PRE_LOST.RECORDS 1 b).raise pgAcq 13 else s
  let s := s.reopen b
  if s.m.changeOnly b then s else (s.closeSeg b g.index).2

/-- A trigger reaches one capture (R285, R286, R290; log entry 140): with 16 segments open, or with none to take, it is missed. A
ring full of unreleased records stops the capture, or gives up the segment at READ. -/
def State.capTrigger (s : State) (b time mask : Nat) : State :=
  let c := s.m.cpt b
  if 16 ≤ c.openCount then s.onM fun m => m.trigMissed b
  else
    match c.collecting with
    | some g => s.makeRecord b time mask g
    | none =>
      if s.m.ringFull b then
        if s.m.cap_ b ACQ_CAP_CFG.FULL_POLICY = 1 then
          let s := (s.onM fun m => m.overwriteOldest b).openAs b (Seg.open_ 0)
          match (s.m.cpt b).collecting with
          | some g => s.makeRecord b time mask g
          | none => s
        else s.onM fun m => ((m.trigMissed b).wr pgAcq ACQ_CAP_STATUS.STATE 3 b).raise pgAcq 9
      else s.onM fun m => m.trigMissed b

/-- A trigger of course d reaches every armed capture of the course (R268, R277). -/
def State.acqTrigger (s : State) (d time mask : Nat) : State :=
  let time := s.m.itemTime d time
  ((s.m.capsOf d).filter fun b => decide (2 ≤ s.m.capState b)).foldl (fun s b => s.capTrigger b time mask) s

/-! ## Running with the course -/

/-- A capture begins to collect. -/
def State.collect (s : State) (b : Nat) : State := (s.onM fun m => m.wr pgAcq ACQ_CAP_STATUS.STATE 2 b).reopen b

/-- The course starts: armed captures collect. -/
def State.acqStart (s : State) (d : Nat) : State :=
  ((s.m.capsOf d).filter fun b => s.m.capState b == 1).foldl (fun s b => s.collect b) s

/-- The course stops (R287): records keep the items stamped before the stop; collecting segments are reused. -/
def Module.acqStop (m : Module) (d stop : Nat) : Module :=
  (m.capsOf d).foldl (fun m b =>
    if m.capState b = 2 ∨ m.capState b = 3 then
      let c := m.cpt b
      let next := match c.collecting with
        | some g => g.index
        | none => c.next
      let kept := fun (g : Seg) =>
        if g.close.isSome then g else { g with items := g.items.filter fun i => decide (i.time < stop) }
      let m := m.setCpt b { c with segs := (c.segs.filter fun g => g.trig.isSome).map kept, next := next }
      (m.closeRecords b 2).wr pgAcq ACQ_CAP_STATUS.STATE 1 b
    else m) m

/-- ROLE_CHANGE of a capture's brick (R287). -/
def Module.acqRole (m : Module) (d n : Nat) : Module :=
  ((m.capsOf d).filter fun b => decide (3 ≤ m.cap_ b ACQ_CAP_CFG.SRC) && m.cap_ b ACQ_CAP_SOURCE.BRICK == n
      && (m.cap_ b ACQ_CAP_CFG.SRC != 5 || m.cap_ b ACQ_CAP_SOURCE.SPEC_SRC == 2)).foldl (fun m b =>
    (m.closeRecords b 6).restartCollecting b) m

/-- Raw samples are wanted of converter d while a raw capture is armed, or a LEVEL or POWER condition on WIDEBAND is
enabled on an ARMED or RUNNING course (R122, R250, R277). -/
def Module.wantsRaw (m : Module) (d : Nat) : Bool :=
  ((m.capsOf d).any fun b => m.cap_ b ACQ_CAP_CFG.SRC == 0)
  || (m.rd (pgCrs d) CRS_STATUS.RUN_STATE != 0 && m.rd (pgTrg d) CTRL.ENABLE == 1 && (List.range 16).any fun i =>
      m.cnd d i TRG_COND_CFG.TYPE == 1 || (m.cnd d i TRG_COND_CFG.TYPE == 2 && m.cnd d i TRG_COND_CFG.SOURCE == 0))

/-- A change of that wish goes to the converter. -/
def Module.refreshRaw (m : Module) (d : Nat) : Module :=
  if 4 ≤ d ∨ m.wantsRaw d = (m.crs d).rawAsked then m
  else (m.setCrs d { m.crs d with rawAsked := m.wantsRaw d }).postMgt (24 + d) d .req (.rawRequest (m.wantsRaw d))

/-! ## Spare switches (R219, R220) -/

/-- A brick's output is held by an open segment of its course. -/
def Module.segmentHolds (m : Module) (d n : Nat) : Bool :=
  (m.capsOf d).any fun b => decide (0 < (m.cpt b).openCount) && m.cap_ b ACQ_CAP_SOURCE.BRICK == n
    && decide (3 ≤ m.cap_ b ACQ_CAP_CFG.SRC) && (m.cap_ b ACQ_CAP_CFG.SRC != 5 || m.cap_ b ACQ_CAP_SOURCE.SPEC_SRC == 2)

/-- The first interval start of a brick at or after an instant (R221). -/
def Module.intervalAt (m : Module) (d n t : Nat) : Nat :=
  let c := m.brickCfg n
  let origin := c.firstAt (m.rd64 (pgCrs d) CRS_START_ACTUAL_LO.ACTUAL CRS_START_ACTUAL_HI.ACTUAL)
  c.stamp (latticeFrom origin c.interval (c.firstAt t))

/-- Grant a switch at B (R220): the course keeps the switch as a mark. -/
def Module.grantSwitch (m : Module) (d n b : Nat) : Module :=
  let cs := m.crs d
  let m := m.setCrs d { cs with
    waiting := cs.waiting.filter fun w => w.1 != n
    marks := cs.marks ++ [.switched n b (m.brickCfg n).interval] }
  m.postMgt (courseIsland d) (8 + n / 16) .evt (.switchGrant d n (cs.epochs.get 0 n % 256) b)

/-- Grant what no open segment holds any more. -/
def Module.grantWaiting (m : Module) (d : Nat) : Module :=
  (m.crs d).waiting.foldl (fun m w =>
    if m.segmentHolds d w.1 then m else m.grantSwitch d w.1 (m.intervalAt d w.1 (Nat.max w.2.1 m.now))) m

/-- SWITCH_REQ (R220) at the head of 8 + c → 24 + d. -/
def execSwitchReq (c : Cluster) (d : Input) (s : State) : Host.Outcome State Fault Refusal :=
  .next (match s.m.arrival (8 + c.val) (24 + d.val) with
    | some (.switchReq course n e) =>
      s.onM fun m =>
        let m := m.takeArrival (8 + c.val) (24 + d.val)
        (m.setCrs course { m.crs course with waiting := (m.crs course).waiting ++ [(n, e, m.clk.ticks)] }).grantWaiting course
    | _ => s)

/-- SWITCH_TIMEOUT (R220): SWITCH_TIMEOUT milliseconds after the request, the first interval start from there on. -/
def execSwitchTimeout (n : Brick) (s : State) : Host.Outcome State Fault Refusal :=
  let d := (s.m.brickCfg n).course
  .next (match (s.m.crs d).waiting.find? fun w => w.1 == n.val with
    | some w =>
      if w.2.2 + s.m.lv (pgCrs d) CRS_SWITCH_TIMEOUT.MS * 2000000 ≤ s.m.clk.ticks then
        s.onM fun m => m.grantSwitch d n (m.intervalAt d n (Nat.max w.2.1 m.now))
      else s
    | none => s)

/-! ## Closing a record (R288, R292–R295) -/

/-- INPUT_GEN in force at an instant, from the notices that a course has received (R276); of replayed data, that of their record
(R302). -/
def CourseSt.genAt (c : CourseSt) (t : Nat) : Nat :=
  c.marks.foldl (fun g k => match k with
    | .genChange tick n => if tick * 256 ≤ t then n else g
    | _ => g) c.gen

def ReplaySt.genAt (r : ReplaySt) (t : Nat) : Nat :=
  match r.gens.find? fun p => decide (p.1.lo ≤ t ∧ t ≤ p.1.hi) with
  | some p => p.2
  | none => (r.gens.head?.map Prod.snd).getD 0

def Module.genAt (m : Module) (d t : Nat) : Nat := if d = 4 then m.play.genAt t else (m.crs d).genAt t

/-- A TIME64 value lies in a span of instants. -/
def inSpan (first last t : Nat) : Bool := decide ((t + (2 ^ 64 - first % 2 ^ 64)) % 2 ^ 64 ≤ last - first)

/-- The marks of a record's span (R295): DROP marks only in RAW records, switches only of its own brick. -/
def Module.spanMarks (m : Module) (b first last : Nat) : List Mark :=
  let d := m.cap_ b ACQ_CAP_CFG.COURSE
  sortMarks ((m.crs d).marks.filter fun k => inSpan first last k.time && match k with
    | .genChange _ _ => false
    | .drop _ => m.cap_ b ACQ_CAP_CFG.SRC == 0
    | .switched n _ _ => m.cap_ b ACQ_CAP_SOURCE.BRICK == n && decide (3 ≤ m.cap_ b ACQ_CAP_CFG.SRC)
    | _ => true)

/-- A span meets the switch interval [B, B + I) of the record's brick (R293). -/
def Module.meetsSwitch (m : Module) (b first last : Nat) : Bool :=
  decide (3 ≤ m.cap_ b ACQ_CAP_CFG.SRC) && (m.crs (m.cap_ b ACQ_CAP_CFG.COURSE)).marks.any fun k => match k with
    | .switched n start i =>
      m.cap_ b ACQ_CAP_SOURCE.BRICK == n
        && decide (start ≤ last ∧ first < start + i * 2048000000000 / Nat.max 1 (5 * (m.brickCfg n).span))
    | _ => false

/-- ITEM_FMT of a record (R292): by its items, else by the live configuration. -/
def Module.itemFmt (m : Module) (b : Nat) (l : List Item) : Nat :=
  match m.cap_ b ACQ_CAP_CFG.SRC, l.head?.map Item.body with
  | 4, _ => 4
  | 5, _ => 5
  | _, some (.sample _ _) => 0
  | _, some (.block _) => 1
  | _, some (.spec s) => if s.complex then 3 else 2
  | 0, _ => (m.cpt b).each / 168
  | _, _ => if (m.capInfo b).log then 2 else 3

/-- The header flags of a record (R103, R293). -/
def Module.recordFlags (m : Module) (b : Nat) (l : List Item) (dropped first last calGen : Nat) : Nat :=
  let d := m.cap_ b ACQ_CAP_CFG.COURSE
  let raw := m.cap_ b ACQ_CAP_CFG.SRC == 0
  let marks := m.spanMarks b first last
  let ovr := l.any fun i => match i.body with
    | .sample _ o => o
    | .block s => s.any fun x => x.ovr
    | _ => false
  let items := (l.map fun i => headerFlags i.flags).foldl (fun a f => a ||| f) 0
  let swap := raw && marks.any fun k => match k with
    | .swap i => i.calchg
    | _ => false
  let pause := marks.any fun k => match k with
    | .pause _ => true
    | _ => false
  let drop := marks.any fun k => match k with
    | .drop _ => true
    | _ => false
  items ||| flag ovr 0 ||| flag (swap || m.genAt d last != calGen) 3 ||| flag (pause || m.meetsSwitch b first last) 4
    ||| flag (drop || decide (0 < dropped)) 5 ||| flag (d == 4) 7

/-- The items of a record's segment, and how many of them precede the trigger item. -/
def Module.segItems (m : Module) (b : Nat) (g : Seg) : List Item × Nat :=
  if m.changeOnly b then (g.items, 0)
  else
    let (early, late) := g.record (m.capPre b) (m.capPost b)
    (early ++ late, (early.filter Item.stored).length)

/-- A record formed (R292, R294): header without CRC and directory, marks, and the module past free values. With no item
stored the spec states no FIRST_TIME and LAST_TIME: free values. -/
def Module.formRecord (m : Module) (b : Nat) (g : Seg) : List Byte × List Byte × List Byte × Module :=
  let d := m.cap_ b ACQ_CAP_CFG.COURSE
  let src := m.cap_ b ACQ_CAP_CFG.SRC
  let chg := m.changeOnly b
  let (all, early) := m.segItems b g
  let l := all.filter Item.stored
  let (k, m) := m.draw 2
  let first := match l with
    | i :: _ => i.time
    | [] => Config.free k % 2 ^ 64
  let lastTime := match l.getLast? with
    | some i => i.time
    | none => Config.free (k + 1) % 2 ^ 64
  let fin := match l.getLast? with
    | some i => i.fin
    | none => first
  let calGen := m.genAt d (((g.prior.filter Item.stored).head?.map Item.time).getD first)
  let marks := m.spanMarks b first fin
  let stored := marks.take (m.cap_ b ACQ_CAP_MARKS.SLOTS)
  let meas := m.measured b && g.last
  let size := m.cap_ b ACQ_CAP_SEG_SIZE.SIZE * 4096
  let itemBytes := if chg then 0 else m.rd pgAcq ACQ_CAP_ITEM_BYTES.BYTES b
  let used := if chg then g.used else l.length * itemBytes
  let pay := if chg then ceilDiv (m.capOfs b + used - 64) 64 else (size - 64) / 64
  let dropped := g.dropped + if chg then 0 else all.length - l.length
  let short := g.part == 0 && !chg && decide ((g.record (m.capPre b) (m.capPost b)).1.length < m.capPre b)
  let brick := if src = 3 ∨ src = 4 ∨ (src = 5 ∧ m.cap_ b ACQ_CAP_SOURCE.SPEC_SRC = 2) then
    m.cap_ b ACQ_CAP_SOURCE.BRICK + 2048 else 0
  let epoch := if brick = 0 then 0 else match l with
    | i :: _ => (match i.body with
      | .spec s => s.epoch
      | .iq q => q.epoch
      | _ => 0)
    | [] => (m.crs d).epochs.get 0 (m.cap_ b ACQ_CAP_SOURCE.BRICK) % 256
  let (t, mask) := g.trig.getD (0, 0)
  let header := leBytes 2 (src + 1)
    ++ leBytes 2 (m.itemFmt b l + flag meas 4 + flag (m.streaming b) 5 + 256)
    ++ leBytes 2 (brick + d * 256 + d % 4 * 4096)
    ++ leBytes 1 epoch ++ leBytes 1 (m.recordFlags b l dropped first fin calGen)
    ++ leBytes 4 (g.index + m.cap_ b ACQ_CAP_REGION.REGION * 2 ^ 20 + b * 2 ^ 26) ++ leBytes 8 t ++ leBytes 8 first
    ++ leBytes 4 pay ++ leBytes 2 mask ++ leBytes 2 (if meas then 128 else 0) ++ leBytes 4 calGen ++ leBytes 4 g.seq
    ++ leBytes 16 0
  let dir := leBytes 4 l.length ++ leBytes 4 (if chg then 0 else m.rd pgAcq ACQ_CAP_ITEM_CAP.SLOTS b)
    ++ leBytes 4 itemBytes ++ leBytes 4 (match l with
      | i :: _ => i.slot
      | [] => 0)
    ++ leBytes 4 early ++ leBytes 4 (m.capOfs b) ++ leBytes 2 (m.markOffset b)
    ++ leBytes 2 stored.length ++ leBytes 2 (Nat.min 65535 (marks.length - stored.length)) ++ leBytes 2 g.part
    ++ leBytes 8 lastTime ++ leBytes 4 dropped ++ leBytes 1 (g.close.getD 0)
    ++ leBytes 1 (flag short 0 + flag g.preLost 1 + flag g.overrun 2 + flag (g.last && m.streaming b) 3) ++ leBytes 2 0
    ++ leBytes 8 used ++ leBytes 8 0
  (header, dir, stored.flatMap fun k => k.bytes (m.genAt d k.time), m)

/-- The measurement block of a record, in its final part (R296, R300, R301). -/
def Module.measure (m : Module) (b : Nat) (g : Seg) : List Byte × Module :=
  if m.measured b ∧ g.last = true then
    let en := m.meas_ b MEAS_EN.ENABLES
    let r := m.measureItems en (m.meas_ b MEAS_THRESH.THRESH) (m.meas_ b MEAS_THRESH.HYST) (m.meas_ b MEAS_CH_FIRST.FIRST)
      (m.meas_ b MEAS_CH_COUNT.COUNT) (m.meas_ b MEAS_OBW.FRAC) (g.prior ++ (m.segItems b g).1)
    (r.bytes (m.meas_ b MEAS_EN.CORE_SLOTS),
      (m.bump pgMeas MEAS_RECORDS.COUNT 1 b).bump pgMeas MEAS_INVALID.COUNT (r.invalid en) b)
  else ([], m)

/-- A closed record gets its mark list, measurement block and directory; its header is formed. -/
def State.fileRecord (s : State) (b : Nat) (g : Seg) : State :=
  let (header, dir, marks, m) := s.m.formRecord b g
  let (block, m) := m.measure b g
  let base := m.segOfs b g.index
  let s := { s with m := m.onSeg b g.index fun g => { g with filed := some (header ++ dir) } }
  let s := if marks = [] then s else s.waitWrite b (base + m.markOffset b) marks
  let s := if block = [] then s else s.waitWrite b (base + 128) block
  s.waitWrite b (base + 64) dir

/-- RECORD_CLOSE_WRITE (R288): 256 ticks after the close. -/
def execRecordCloseWrite (cap : Fin 32) (s : State) : Host.Outcome State Fault Refusal :=
  .next (match (s.m.cpt cap).segs.find? fun g => g.close.isSome && g.filed.isNone with
    | some g => if g.closedAt + 256 ≤ s.m.clk.ticks then s.fileRecord cap g else s
    | none => s)

/-- The new ring length takes effect as WRITE wraps (R291). -/
def Module.applyLength (m : Module) (b : Nat) : Module :=
  let len := m.lv pgAcq ACQ_CAP_LEN_NEXT.LEN b
  let old := m.rd pgAcq ACQ_CAP_LEN.LEN b
  let used := m.rd pgAcq ACQ_CAP_USED.SEGMENTS b
  let read := m.rd pgAcq ACQ_CAP_READ.SEGMENT b
  let gone := ((List.range used).filter fun i => decide (len ≤ (read + i) % Nat.max 1 old)).length
  let m := (m.bump pgAcq ACQ_CAP_DISCARDED.SEGMENTS gone b).wr pgAcq ACQ_CAP_USED.SEGMENTS (used - gone) b
  let m := if len ≤ read then m.wr pgAcq ACQ_CAP_READ.SEGMENT 0 b else m
  let m := m.setCpt b { m.cpt b with next := if len ≤ (m.cpt b).next then 0 else (m.cpt b).next }
  ((m.wr pgAcq ACQ_CAP_LEN.LEN len b).wr pgAcq ACQ_CAP_STATUS.LEN_PENDING 0 b).raise pgAcq 12

/-- The notices of a finished record: to the streams in stream-through mode (R383), and to the cores (R403). -/
def Module.noteRecord (m : Module) (b : Nat) (g : Seg) : Module :=
  let isl := m.capIsland b
  let note : RecNote := ⟨b, m.cap_ b ACQ_CAP_REGION.REGION, g.index, m.segOfs b g.index, none, (g.trig.getD (0, 0)).1,
    64 + 64 * le (g.filed.getD []) 28 4⟩
  let m := if m.streaming b then m.postMgt isl 24 .evt (.recordReady note) else m
  if m.streaming b && !g.last then m
  else (List.range 20).foldl (fun m c =>
    if bit (m.lv (pgCore c) CORE_REC_CAPS.CAPTURES) b then
      let k := m.lv (pgCore c) CORE_REC_SLOT.SLOT
      let slot := if k < m.meas_ b MEAS_EN.CORE_SLOTS then some (note.segOfs + 128 + 64 * (1 + k)) else none
      m.postMgt isl (m.coreIsl c) .evt (.record { note with slot := slot } c)
    else m) m

/-- A record is done: WRITE, USED and ACQ_CAP_DONE advance (R288). -/
def Module.recordDone (m : Module) (b : Nat) (g : Seg) : Module :=
  let wraps := decide (m.rd pgAcq ACQ_CAP_LEN.LEN b ≤ g.index + 1)
  let m := m.setCpt b { m.cpt b with segs := (m.cpt b).segs.filter fun h => h.index != g.index }
  let m := (m.wr pgAcq ACQ_CAP_WRITE.SEGMENT (if wraps then 0 else g.index + 1) b).wr pgAcq ACQ_CAP_USED.SEGMENTS
    (m.rd pgAcq ACQ_CAP_USED.SEGMENTS b + 1) b
  let m := (m.step pgAcq ACQ_CAP_DONE.RECORDS 1 b).wr64 pgAcq ACQ_CAP_LAST_TRIG_LO.TIME ACQ_CAP_LAST_TRIG_HI.TIME
    (g.trig.getD (0, 0)).1 b
  let m := if wraps ∧ m.rd pgAcq ACQ_CAP_STATUS.LEN_PENDING b = 1 then m.applyLength b else m
  ((m.raise pgAcq 8).noteRecord b g).addWork 11 1

/-- The header of a filed record goes out once every earlier write of the island has completed (R18, R288). -/
def State.writeHeader (s : State) (b : Nat) (g : Seg) : State :=
  let body := g.filed.getD []
  (s.onM fun m => m.onSeg b g.index fun g => { g with headed := true }).waitWrite b (s.m.segOfs b g.index)
    (body.take 60 ++ leBytes 4 (crc32c body))

/-- RECORD_DONE (R288): the header of the oldest record is written; when it has completed, the record is done. -/
def execRecordDone (cap : Fin 32) (s : State) : Host.Outcome State Fault Refusal :=
  let b := cap.val
  .next (match (s.m.cpt b).segs.head? with
    | some g =>
      if g.filed = none ∨ s.m.writesHeld (s.m.capIsland b) = true then s
      else
        let s := if g.headed then s else s.writeHeader b g
        if s.m.writesHeld (s.m.capIsland b) then s
        else (s.onM fun m => (m.recordDone b g).grantWaiting (m.cap_ b ACQ_CAP_CFG.COURSE)).reopen b
    | none => s)

/-- Release segments up to a new READ (R289): the number released, when all of them are closed. -/
def Module.released (m : Module) (b v : Nat) : Option Nat :=
  let len := m.rd pgAcq ACQ_CAP_LEN.LEN b
  let r := m.rd pgAcq ACQ_CAP_READ.SEGMENT b
  let n := if r ≤ v then v - r else v + len - r
  if v < len ∧ n ≤ m.rd pgAcq ACQ_CAP_USED.SEGMENTS b then some n else none

/-- ACQ_CAP_READ advances, and a full capture collects again. -/
def State.advanceRead (s : State) (b v n : Nat) : State :=
  let s := s.onM fun m =>
    let m := (m.wr pgAcq ACQ_CAP_READ.SEGMENT v b).wr pgAcq ACQ_CAP_USED.SEGMENTS (m.rd pgAcq ACQ_CAP_USED.SEGMENTS b - n) b
    if m.capState b = 3 ∧ 0 < n then m.wr pgAcq ACQ_CAP_STATUS.STATE 2 b else m
  s.reopen b

/-- ACQ_CAP_READ_WRITE (R289): ignored in stream-through mode; a release of a segment not yet closed is rejected. -/
def State.takeAcqCapReadWrite (s : State) (v : BitVec 20) : State :=
  let b := s.m.rd pgAcq ACQ_CAP_SEL.CAPTURE
  if s.m.streaming b then s
  else match s.m.released b v.toNat with
    | some n => s.advanceRead b v.toNat n
    | none => s.onM fun m => m.bump pgAcq ACQ_CAP_PRE_LOST.READ_REJECTS 1 b

/-- The command: a write that does this. -/
def execAcqCapReadWrite (r : Requester) (v : BitVec 20) (s : State) : Host.Outcome State Fault Refusal :=
  .next (s.via (.acqCapReadWrite r v) r pgAcq fun s => s.takeAcqCapReadWrite v)

/-! ## Replay (R302, R217, R218) -/

/-- The segment size of a region: that of the lowest capture that names it (DEDUCED, log entry 30). -/
def Module.replaySegBytes (m : Module) (r : Nat) : Nat :=
  let f := fun (b : Nat) (f : Fld) => m.lv pgAcq f b
  match (List.range 32).find? fun b => f b ACQ_CAP_REGION.REGION == r && f b ACQ_CAP_SEG_COUNT.COUNT != 1 with
  | some b => f b ACQ_CAP_SEG_SIZE.SIZE * 4096
  | none => f 0 ACQ_CAP_SEG_SIZE.SIZE * 4096

/-- An IQ message read back from its layout (R203), its slots at the rate of course P. -/
def parseIq (l : List Byte) (j : Nat) : IqMsg :=
  let first := le l 15 1
  let count := le l 16 2
  { stamp := le l 0 8, seq := le l 8 4, brick := le l 12 1, epoch := le l 13 1, flags := le l 14 1, first := first
    count := count, stages := le l 18 1, course := 4, replay := true, rate := le l 20 4, entry := le l 24 2
    config := le l 26 2, taints := (List.range 256).filter fun i => bit (le l 32 32) i
    stamps := (List.range count).map fun i => le l 0 8 + 1024 * 2 ^ j * (first + i)
    payload := ⟨[], parseBlocks (l.drop 64) 4⟩ }

/-- Send waiting messages of a member while it holds fewer than four (R218), with the epoch that the course believes current as
each leaves (R208). `due` is when a message may leave. -/
def Module.pumpMember (m : Module) (n : Nat) (due : IqMsg → Bool) : Nat → Module
  | 0 => m
  | fuel + 1 =>
    match m.play.queue.get [] n with
    | g :: rest =>
      if m.play.out.get 0 n < 4 ∧ due g = true then
        let act := m.lv pgAcq ACTIVITY_ID.ACTIVITY
        let m := { m with
          play.queue := m.play.queue.set [] n rest, play.out := m.play.out.set 0 n (m.play.out.get 0 n + 1) }
        (m.send ⟨24, 8 + n / 16, .dat, some act, 1104, [], false,
          .replayData { g with epoch := (m.crs 4).epochs.get 0 n % 256 }⟩).pumpMember n due fuel
      else m
    | [] => m

/-- PACE FREE: credits alone limit the rate. -/
def Module.freePace (m : Module) (_g : IqMsg) : Bool := m.lv (pgCrs 4) CRS_REPLAY.PACE == 0

/-- The messages of one replayed record for a member: rewritten, the first with GAP. -/
def forMember (n : Nat) (l : List IqMsg) : List IqMsg :=
  ((List.range l.length).zip l).map fun p => { p.2 with
    brick := n, course := 4, flags := if p.1 = 0 then p.2.flags ||| 16 else p.2.flags }

/-- A segment that a replay reads, by its first 128 bytes: whether it is a record of IQ messages with a valid CRC, and where its
messages stand, in time order from FIRST_SLOT. -/
def replayHead (base : Nat) (head : List Byte) : Bool × List Nat :=
  (le head 0 2 == 5 && le head 60 4 == crc32c (head.take 60 ++ (head.drop 64).take 64),
    (List.range (le head 64 4)).map fun i =>
      base + le head 84 4 + (le head 76 4 + i) % Nat.max 1 (le head 68 4) * le head 72 4)

/-- The unit of the replay reads among those whose transfers a budget pauses (R41). -/
def replayUnit : Nat := 4096

/-- Read the messages at offsets of a region, every unit checked. -/
def State.readIqs (s : State) (r j : Nat) : List Nat → List IqMsg × State
  | [] => ([], s)
  | o :: l =>
    let (data, _, s) := s.checkedRead 24 r o 1104
    let (rest, s) := s.readIqs r j l
    (parseIq data j :: rest, s)

/-- A segment has been read: its messages wait for every member, or it is skipped (R302). -/
def Module.replayTake (m : Module) (j calGen : Nat) (good : Bool) (l : List IqMsg) : Module :=
  match l.head?, l.getLast? with
  | some g, some h =>
    if good && g.rate == 500000000 / 2 ^ j then
      let m := { m with
        play.gens := (⟨g.stamp, h.stamps.getLastD h.stamp⟩, calGen) :: m.play.gens
        play.first := some (m.play.first.getD g.stamp) }
      (m.members 4).foldl (fun m n =>
        { m with play.queue := m.play.queue.set [] n (forMember n l) }.pumpMember n m.freePace 4) m
    else m.bump pgAcq ACQ_REPLAY_REJECTED.SEGMENTS
  | _, _ => m.bump pgAcq ACQ_REPLAY_REJECTED.SEGMENTS

/-- Read the next segment, its charges waiting (R297). -/
def State.replayRead (s : State) : State :=
  let m := s.m
  let seg := m.lv pgAcq ACQ_REPLAY_FIRST.SEGMENT + m.play.next
  let r := m.lv pgAcq ACQ_REPLAY_CFG.REGION
  let base := seg * m.replaySegBytes r
  let j := m.lv (pgCrs 4) CRS_REPLAY.LOG2
  let (good, slots) := replayHead base (readBytes s.hbm (m.region r) base 128)
  let slots := if good then slots else []
  let msgs := (m.region r).readMsgs 24 base 128 ++ slots.flatMap fun o => (m.region r).readMsgs 24 o 1104
  match m.letThrough replayUnit (m.lv pgAcq ACTIVITY_ID.ACTIVITY) msgs with
  | (false, m) => { s with m := m }
  | (true, m) =>
    let (head, _, s) := ({ s with m := m } : State).checkedRead 24 r base 128
    let (l, s) := s.readIqs r j slots
    s.onM fun m =>
      ({ m.wr pgAcq ACQ_REPLAY_POS.SEGMENT seg with play.next := m.play.next + 1 }).replayTake j (le head 36 4) good l

/-- REPLAY_SEGMENT (R302): the next segment, once every message of the one before has left; or the end of the replay. -/
def execReplaySegment (s : State) : Host.Outcome State Fault Refusal :=
  let m := s.m
  let n := m.lv pgAcq ACQ_REPLAY_COUNT.SEGMENTS
  .next (if m.rd (pgCrs 4) CRS_STATUS.RUN_STATE ≠ 2 ∨ m.lv pgAcq ACQ_REPLAY_CFG.EN = 0 ∨ m.rd pgAcq ACQ_REPLAY_POS.DONE = 1
      ∨ (m.members 4).any fun k => m.play.queue.get [] k != [] then s
    else if n = 0 then
      s.onM fun m => ((m.wr pgAcq ACQ_REPLAY_POS.DONE 1).wr pgAcq ACQ_REPLAY_POS.ZERO_LENGTH 1).raise pgAcq 15
    else if n ≤ m.play.next then s.onM fun m => (m.wr pgAcq ACQ_REPLAY_POS.DONE 1).raise pgAcq 15
    else s.replayRead)

/-- REPLAY_CREDIT (R218): a member has consumed a message. -/
def execReplayCredit (c : Cluster) (s : State) : Host.Outcome State Fault Refusal :=
  .next (match s.m.arrival (8 + c.val) 24 with
    | some (.replayCredit n) =>
      s.onM fun m =>
        let m := m.takeArrival (8 + c.val) 24
        let m := { m with play.out := m.play.out.set 0 n (m.play.out.get 0 n - 1) }
        m.pumpMember n m.freePace 4
    | _ => s)

/-- REPLAY_PACE (R218): with PACE REAL_TIME a message leaves no earlier than its STAMP, counted from the first, after
START_ACTUAL. -/
def execReplayPace (s : State) : Host.Outcome State Fault Refusal :=
  .next (if s.m.lv (pgCrs 4) CRS_REPLAY.PACE = 1 then
    s.onM fun m =>
      let start := m.rd64 (pgCrs 4) CRS_START_ACTUAL_LO.ACTUAL CRS_START_ACTUAL_HI.ACTUAL
      let due := fun (g : IqMsg) => decide (g.stamp - m.play.first.getD 0 ≤ m.now - start)
      (m.members 4).foldl (fun m n => m.pumpMember n due 4) m
  else s)

/-! ## The commits of ACQ and MEAS -/

/-- The capture fields of ACQ but LEN_NEXT, with their registers. -/
def captureFields : List Fld := [ACQ_CAP_CFG.COURSE, ACQ_CAP_CFG.SRC, ACQ_CAP_CFG.FULL_POLICY, ACQ_CAP_CFG.MODE,
  ACQ_CAP_SOURCE.BRICK, ACQ_CAP_SOURCE.SPEC_SRC, ACQ_CAP_REGION.DRAIN_ACT, ACQ_CAP_REGION.ACT, ACQ_CAP_REGION.REGION,
  ACQ_CAP_SEG_SIZE.SIZE, ACQ_CAP_SEG_COUNT.COUNT, ACQ_CAP_PRE.PRE, ACQ_CAP_POST.POST, ACQ_CAP_MARKS.SLOTS,
  ACQ_CAP_CHANGE.KEY_EN, ACQ_CAP_CHANGE.KEY_EVERY, ACQ_CAP_CHANGE.DEADBAND]

def measFields : List Fld := [MEAS_EN.CORE_SLOTS, MEAS_EN.ENABLES, MEAS_CH_FIRST.FIRST, MEAS_CH_COUNT.COUNT, MEAS_OBW.FRAC,
  MEAS_THRESH.HYST, MEAS_THRESH.THRESH]

/-- Which measurements a source allows (R300). -/
def measAllowed (src specSrc i : Nat) : Bool :=
  match i with
  | 0 => src == 1 || src == 2 || src == 3 || src == 5
  | 1 | 2 => src == 1 || src == 3 || (src == 5 && specSrc != 1)
  | _ => src == 0 || src == 4

/-- A measurement block by the live registers (R280). -/
def Module.measLive (m : Module) (b : Nat) : Bool :=
  m.lv pgMeas MEAS_EN.ENABLES b != 0 || m.lv pgMeas MEAS_EN.CORE_SLOTS b != 0

/-- The checks of one capture (R277, R279, R282–R284, R291, R298, R303). -/
def checkCapture (m : Module) (snap : Store Nat) (b : Nat) : List Bad :=
  let g := fun (f : Fld) => snapGet snap pgAcq f b
  let d := g ACQ_CAP_CFG.COURSE
  let src := g ACQ_CAP_CFG.SRC
  let ss := g ACQ_CAP_SOURCE.SPEC_SRC
  let armed := m.capArmed b
  let stays := armed && g ACQ_CAP_CFG.ARM == 1
  let arms := g ACQ_CAP_CFG.ARM == 1 && !armed
  let i := m.infoOf g
  let reg := m.region (g ACQ_CAP_REGION.REGION)
  let bytes := g ACQ_CAP_SEG_SIZE.SIZE * 4096
  let en := m.lv pgMeas MEAS_EN.ENABLES b
  let ofs := (if m.measLive b then 128 + 64 * (1 + m.lv pgMeas MEAS_EN.CORE_SLOTS b) else 128) + nextMultiple (16 * g ACQ_CAP_MARKS.SLOTS) 64
  let cap := itemCap bytes ofs i.bytes
  let a := i.lookahead (m.lv (pgTrg d) TRG_HORIZON.TICKS)
  let key := 16 + nextMultiple (2 * i.count) 4 + 16 * g ACQ_CAP_POST.POST
  let rate := i.rate (Nat.max 1 reg.stackSet.length)
  let drain := g ACQ_CAP_REGION.DRAIN_ACT
  let changed := captureFields.find? fun f => g f != m.lv pgAcq f b
  (match changed with
   | some f => chk stays (if f.off = 0x044 then 0x044 else Nat.min f.off 0x044) 0x80 b
   | none => [])
  ++ chk (decide (4 < d)) 0x044 2 b ++ chk (decide (5 < src)) 0x044 2 b
  ++ chk (d == 4 && decide (src < 3)) 0x044 4 b ++ chk (d == 4 && src == 5 && ss != 2) 0x044 4 b
  ++ chk (src == 5 && g ACQ_CAP_PRE.PRE != 0) 0x044 4 b ++ chk (src == 5 && decide (65536 < i.count)) 0x044 4 b
  ++ chk ((List.range 6).any fun k => bit en k && !measAllowed src ss k) 0x044 4 b
  ++ chk ((bit en 1 || bit en 2)
      && decide (i.count < m.lv pgMeas MEAS_CH_FIRST.FIRST b + m.lv pgMeas MEAS_CH_COUNT.COUNT b)) 0x044 2 b
  ++ chk (arms && g ACQ_CAP_CFG.MODE == 0 && src != 5
      && decide (cap < itemsPre i.each (g ACQ_CAP_PRE.PRE) + Nat.max (itemsPost i.each (g ACQ_CAP_POST.POST)) a)) 0x044 0x81 b
  ++ chk (arms && src == 5 && decide (bytes - ofs < key)) 0x044 0x81 b
  ++ chk (arms && g ACQ_CAP_CFG.MODE == 1 && src != 5 && decide (cap < itemsPre i.each (g ACQ_CAP_PRE.PRE) + a)) 0x044 5 b
  ++ chk (arms && g ACQ_CAP_CFG.MODE == 1 && reg.stackSet.any fun st =>
      m.lv pgBud BUD_LIMIT.ALLOW (entryNo st drain) == 0
        || decide (m.lv pgBud BUD_LIMIT.LIMIT (entryNo st drain) < rate)) 0x044 0x82 b
  ++ chk (g ACQ_CAP_CFG.ARM == 1 && !reg.mapped) 0x044 0x83 b
  ++ chk (g ACQ_CAP_CFG.ARM == 1 && (List.range 32).any fun c =>
      c != b && snapGet snap pgAcq ACQ_CAP_CFG.ARM c == 1
        && snapGet snap pgAcq ACQ_CAP_REGION.REGION c == g ACQ_CAP_REGION.REGION) 0x044 3 b
  ++ chk (ss == 3) 0x048 2 b ++ chk (decide (61 < g ACQ_CAP_REGION.ACT)) 0x04C 2 b
  ++ chk (g ACQ_CAP_SEG_SIZE.SIZE == 0) 0x050 1 b ++ chk (g ACQ_CAP_SEG_COUNT.COUNT == 0) 0x054 1 b
  ++ chk (decide (1048576 < g ACQ_CAP_SEG_COUNT.COUNT)) 0x054 2 b
  ++ chk (g ACQ_CAP_CFG.ARM == 1 && decide (reg.bytes < g ACQ_CAP_SEG_COUNT.COUNT * bytes)) 0x044 5 b
  ++ chk (g ACQ_CAP_POST.POST == 0) 0x05C 1 b
  ++ chk (g ACQ_CAP_CHANGE.KEY_EN == 1 && g ACQ_CAP_CHANGE.KEY_EVERY == 0) 0x064 1 b
  ++ chk (decide (0x7FFF < g ACQ_CAP_CHANGE.DEADBAND)) 0x064 2 b
  ++ chk (g ACQ_CAP_LEN_NEXT.LEN == 0) 0x068 1 b
  ++ chk (stays && decide (g ACQ_CAP_SEG_COUNT.COUNT < g ACQ_CAP_LEN_NEXT.LEN)) 0x044 2 b

def checkAcq (m : Module) (snap : Store Nat) : List Bad := (List.range 32).flatMap (checkCapture m snap)

/-- What a capture is armed with: its own fields and those of its measurements (R284). -/
def Module.capConf (m : Module) (b : Nat) : Store Nat :=
  let acq := captureFields.map fun f => (fieldKey pgAcq f b, m.lv pgAcq f b)
  let meas := measFields.map fun f => (fieldKey pgMeas f b, m.lv pgMeas f b)
  (acq ++ meas).foldl (fun st p => st.set 0 p.1 p.2) []

/-- The records of a capture that a new arming finds unfinished are written out at once (log entry 143). -/
def State.finishAll (s : State) (b : Nat) : State :=
  (s.m.cpt b).segs.foldl (fun s g =>
    let s := if g.filed.isNone then s.fileRecord b g else s
    match (s.m.cpt b).segs.find? fun h => h.index == g.index with
    | some h => (if h.headed then s else s.writeHeader b h).onM fun m => m.recordDone b h
    | none => s) s

/-- Arm a capture (R289, R291): an empty ring of SEG_COUNT segments; it collects at once when its course runs. -/
def State.armCapture (s : State) (b : Nat) : State :=
  let s := s.finishAll b
  let s := s.onM fun m =>
    let m := m.setCpt b { CapSt.init with conf := some (m.capConf b) }
    let m := m.setCpt b { m.cpt b with each := (m.capInfo b).each }
    let n := m.cap_ b ACQ_CAP_SEG_COUNT.COUNT
    let m := (((m.capRegs b).wr pgAcq ACQ_CAP_LEN.LEN n b).wlv pgAcq ACQ_CAP_LEN_NEXT.LEN n b).wsh pgAcq ACQ_CAP_LEN_NEXT.LEN n b
    let m := ((m.wr pgAcq ACQ_CAP_STATUS.LEN_PENDING 0 b).wr pgAcq ACQ_CAP_WRITE.SEGMENT 0 b).wr pgAcq ACQ_CAP_READ.SEGMENT 0 b
    ((m.wr pgAcq ACQ_CAP_USED.SEGMENTS 0 b).wr pgAcq ACQ_CAP_DONE.RECORDS 0 b).wr pgAcq ACQ_CAP_STATUS.STATE 1 b
  if s.m.rd (pgCrs (s.m.cap_ b ACQ_CAP_CFG.COURSE)) CRS_STATUS.RUN_STATE = 2 then s.collect b else s

/-- Disarm a capture: its open records close DISARMED, and the collecting segment is given up (R287). -/
def Module.disarmCapture (m : Module) (b : Nat) : Module :=
  let m := m.closeRecords b 3
  (m.setCpt b { m.cpt b with segs := (m.cpt b).segs.filter fun g => g.trig.isSome }).wr pgAcq ACQ_CAP_STATUS.STATE 0 b

/-- The registers of a capture that is not armed and has no record left show the live configuration. -/
def Module.idleRegs (m : Module) (b : Nat) : Module :=
  if m.capArmed b ∨ (m.cpt b).segs ≠ [] then m else (m.setCpt b { m.cpt b with conf := none }).capRegs b

/-- The effects of an ACQ commit point. -/
def State.appliedAcq (s : State) (before : Module) : State :=
  let s := (List.range 32).foldl (fun s b =>
    let was := before.capArmed b
    let now := s.m.capArmed b
    let next := s.m.lv pgAcq ACQ_CAP_LEN_NEXT.LEN b
    let s := if now && !was then s.armCapture b
      else if was && !now then s.onM fun m => (m.disarmCapture b).grantWaiting (m.cap_ b ACQ_CAP_CFG.COURSE)
      else if now ∧ next ≠ before.lv pgAcq ACQ_CAP_LEN_NEXT.LEN b then
        s.onM fun m => m.wr pgAcq ACQ_CAP_STATUS.LEN_PENDING (next != m.rd pgAcq ACQ_CAP_LEN.LEN b).toNat b
      else s
    s.onM fun m => (m.idleRegs b).showLookahead b) s
  s.onM fun m =>
    let m := if m.lv pgAcq ACQ_REPLAY_CFG.EN = 1 ∧ before.lv pgAcq ACQ_REPLAY_CFG.EN = 0 then
        { (m.wr pgAcq ACQ_REPLAY_POS.DONE 0).wr pgAcq ACQ_REPLAY_POS.ZERO_LENGTH 0 with play := ReplaySt.init }
      else m
    [0, 1, 2, 3].foldl (fun m d => m.refreshRaw d) m

/-- The checks of a MEAS snapshot (R300, R304). -/
def checkMeas (m : Module) (snap : Store Nat) : List Bad :=
  (List.range 32).flatMap fun b =>
    let g := fun (f : Fld) => snapGet snap pgMeas f b
    let live := fun (f : Fld) => m.lv pgAcq f b
    let src := live ACQ_CAP_CFG.SRC
    let ss := live ACQ_CAP_SOURCE.SPEC_SRC
    let en := g MEAS_EN.ENABLES
    (match measFields.find? fun f => g f != m.lv pgMeas f b with
     | some f => chk (m.capArmed b) f.off 0x80 b
     | none => [])
    ++ chk ((List.range 6).any fun k => bit en k && !measAllowed src ss k) 0x044 4 b
    ++ chk ((bit en 1 || bit en 2) && decide ((m.infoOf live).count < g MEAS_CH_FIRST.FIRST + g MEAS_CH_COUNT.COUNT)) 0x044 2 b
    ++ chk (g MEAS_CH_COUNT.COUNT == 0) 0x04C 1 b ++ chk (g MEAS_OBW.FRAC == 0) 0x050 1 b

/-- The effects of a MEAS commit point: the geometry of the captures not armed follows. -/
def Module.appliedMeas (m : Module) : Module := (List.range 32).foldl (fun m b => m.idleRegs b) m

/-- The effects of a TRG commit point on the captures of the course: the lookahead follows HORIZON (R281). -/
def Module.lookaheads (m : Module) (d : Nat) : Module :=
  ((List.range 32).filter fun b => m.cap_ b ACQ_CAP_CFG.COURSE == d).foldl (fun m b => m.showLookahead b) m

end Sys2Proof.Machine
end

