-- ==== Sys2Proof/Machine/Courses.lean ====
section
/-! DEFINITION. The courses (spec/06, R210–R217): starts, stops, the epoch tables, and the items that reach the trigger
engine and the acquisition writer together (spec/08, spec/09). -/

namespace Sys2Proof.Machine

/-- The courses of course island 24 + d (R14). -/
def coursesAt (d : Nat) : List Nat := if d = 0 then [0, 4] else [d]

/-- RUN_STATE of a course: 0 STOPPED, 1 ARMED, 2 RUNNING, 3 HELD. -/
def Module.courseState (m : Module) (d : Nat) : Nat := m.rd (pgCrs d) CRS_STATUS.RUN_STATE

/-- An entry of the epoch table (R210). -/
def epochEntry (epoch role course : Nat) : Nat := epoch + 256 * role + 2048 * course

/-- The members of a course by its epoch table. -/
def Module.knownMembers (m : Module) (d : Nat) : List Nat :=
  ((m.crs d).epochs.filter fun e => e.2 / 256 % 8 != 0 && e.2 / 2048 == d).map Prod.fst

/-- EMIT_START to a brick with the epoch that the course believes current (R208, R215). -/
def Module.emitStartTo (m : Module) (d tick n : Nat) : Module :=
  m.postMgt (courseIsland d) (8 + n / 16) .req (.emitStart d n ((m.crs d).epochs.get 0 n % 256) tick)

/-- EMIT_STOP to a brick (R216). -/
def Module.emitStopTo (m : Module) (d tick n : Nat) : Module :=
  m.postMgt (courseIsland d) (8 + n / 16) .req (.emitStop d n ((m.crs d).epochs.get 0 n % 256) tick)

/-! ## Starts (R214, R215, R80) -/

/-- The start tick is known: the course is ARMED with it and every member hears of it. -/
def Module.armCourse (m : Module) (d tick : Nat) (late : Bool) : Module :=
  let m := (m.setCrs d { m.crs d with startTick := some tick, startLate := late, stopTick := none }).wr (pgCrs d)
    CRS_STATUS.RUN_STATE 1
  let m := if late then m.raise (pgCrs d) 9 else m
  (m.knownMembers d).foldl (fun m n => m.emitStartTo d tick n) m

/-- A start that R80 holds. -/
def Module.holdCourse (m : Module) (d : Nat) (tick : Option Nat) : Module :=
  (m.setCrs d { m.crs d with startTick := tick, startLate := false, stopTick := none }).wr (pgCrs d) CRS_STATUS.RUN_STATE 3

/-- START_AT in ticks. -/
def Module.startAt (m : Module) (d : Nat) : Nat :=
  m.tickOf (m.lv64 (pgCrs d) CRS_START_AT_LO.START_AT CRS_START_AT_HI.START_AT)

/-- Starts are held in a course's island: ALIGN_ARMED has arrived and ALIGN_RELEASED has not (R80). -/
def Module.startsHeld (m : Module) (d : Nat) : Bool := m.clk.alignHold.get 0 (courseIsland d) == 1

/-- A CRS commit with RUN = 1 and a run or start write, on a course that is not RUNNING (R214). -/
def Module.startCourse (m : Module) (d : Nat) : Module :=
  let p := pgCrs d
  let byTime := m.lv p CRS_RUN.START_SRC == 0
  if m.startsHeld d then m.holdCourse d (if byTime then some (m.startAt d) else none)
  else if byTime then
    let (t, late) := lateStart m.tick (m.startAt d)
    m.armCourse d t late
  else
    (m.setCrs d { m.crs d with startTick := none, startLate := false, stopTick := none }).wr p CRS_STATUS.RUN_STATE 1

/-- A start tick from the event timing island reaches a course that waits for it (R108, R214). -/
def Module.courseEventStart (m : Module) (d event tick : Nat) : Module :=
  let p := pgCrs d
  let waits := m.lv p CRS_RUN.START_SRC == 1 && m.lv p CRS_RUN.START_EVT == event && (m.crs d).startTick == none
  if waits && m.courseState d == 1 then
    if tick < m.tick then m.armCourse d (nextMultiple (m.tick + 1) 4096) true else m.armCourse d tick false
  else if waits && m.courseState d == 3 then m.setCrs d { m.crs d with startTick := some tick }
  else m

/-- START_TICK_MESSAGE (R108) at the head of 55 → 0–3 or 55 → 24–27. -/
def execStartTickMessage (dst : Fin 8) (s : State) : Host.Outcome State Fault Refusal :=
  let isl := if dst.val < 4 then dst.val else 20 + dst.val
  .next (match s.m.arrival 55 isl with
    | some (.startTick event tick) =>
      s.onM fun m =>
        let m := m.takeArrival 55 isl
        if dst.val < 4 then m.eventStart dst event tick
        else (coursesAt (dst - 4)).foldl (fun m d => m.courseEventStart d event tick) m
    | _ => s)

/-- A held start goes on (R214): as it stands when it still lies at least 64 ticks ahead, otherwise late. -/
def Module.releaseCourse (m : Module) (d : Nat) : Module :=
  if m.courseState d = 3 then
    match (m.crs d).startTick with
    | some t =>
      let (t, late) := lateStart m.tick t
      m.armCourse d t late
    | none => m.wr (pgCrs d) CRS_STATUS.RUN_STATE 1
  else m

/-- ALIGN_RELEASED (R80) at the head of 54 → 24 + c. -/
def execAlignReleased (c : Input) (s : State) : Host.Outcome State Fault Refusal :=
  .next (match s.m.arrival 54 (24 + c.val) with
    | some .alignReleased =>
      s.onM fun m =>
        let m := m.takeArrival 54 (24 + c.val)
        let m := { m with clk.alignHold := m.clk.alignHold.set 0 (24 + c.val) 0 }
        (coursesAt c).foldl (fun m d => m.releaseCourse d) m
    | _ => s)

/-- The course enters RUNNING at its start tick (R215, R271). -/
def Module.courseBegins (m : Module) (d tick : Nat) : Module :=
  let p := pgCrs d
  let m := m.setCrs d { m.crs d with startTick := none }
  let m := (m.wr p CRS_STATUS.RUN_STATE 2).wr64 p CRS_START_ACTUAL_LO.ACTUAL CRS_START_ACTUAL_HI.ACTUAL (tick64 tick)
  let m := m.raise p 8
  let m := if m.rd (pgTrg d) CTRL.ENABLE = 1 then m.startEngine d tick else m
  if d = 4 then
    { (m.wr pgAcq ACQ_REPLAY_POS.DONE 0).wr pgAcq ACQ_REPLAY_POS.ZERO_LENGTH 0 with play := ReplaySt.init }
  else m.refreshRaw d

/-- COURSE_START (R215): the start tick of an ARMED course. -/
def execCourseStart (d : Course) (s : State) : Host.Outcome State Fault Refusal :=
  .next (match (s.m.crs d).startTick with
    | some t => if s.m.courseState d = 1 ∧ t ≤ s.m.tick then (s.onM fun m => m.courseBegins d t).acqStart d else s
    | none => s)

/-! ## Stops (R216) -/

/-- A CRS commit with RUN = 0, or a stop of a safe-stop (R461): the stop tick, told to every member. -/
def Module.stopCourse (m : Module) (d : Nat) : Module :=
  if m.courseState d = 0 then m
  else
    let t := nextMultiple (m.tick + 64) 4096
    let m := m.setCrs d { m.crs d with stopTick := some t }
    (m.knownMembers d).foldl (fun m n => m.emitStopTo d t n) m

/-- The course enters STOPPED at its stop tick. -/
def Module.courseEnds (m : Module) (d tick : Nat) : Module :=
  let p := pgCrs d
  let m := m.setCrs d { m.crs d with startTick := none, stopTick := none }
  let m := (m.wr p CRS_STATUS.RUN_STATE 0).wr64 p CRS_STOP_ACTUAL_LO.ACTUAL CRS_STOP_ACTUAL_HI.ACTUAL (tick64 tick)
  let m := (((m.raise p 10).stopEngine d).acqStop d (tick * 256)).grantWaiting d
  if d = 4 then { m with play := { m.play with queue := [] } } else m.refreshRaw d

/-- COURSE_STOP (R216). -/
def execCourseStop (d : Course) (s : State) : Host.Outcome State Fault Refusal :=
  .next (match (s.m.crs d).stopTick with
    | some t => if t ≤ s.m.tick then s.onM fun m => m.courseEnds d t else s
    | none => s)

/-! ## ROLE_CHANGE (R210) -/

/-- One course takes a ROLE_CHANGE: its table, the restart of its conditions and records on the brick, and EMIT_START
when the brick now belongs to it, with EMIT_STOP behind it while a stop tick is pending (R210, R215, R216). -/
def Module.takeRole (m : Module) (d n epoch role course : Nat) : Module :=
  let was := (m.crs d).epochs.get 0 n
  let mine := (was / 256 % 8 != 0 && was / 2048 == d) || course == d
  let m := m.setCrs d { m.crs d with epochs := (m.crs d).epochs.set 0 n (epochEntry epoch role course) }
  let m := if mine then
      (m.acqRole d n).setTg d { m.tg d with newEpochs := (2 * n :: (2 * n + 1) :: (m.tg d).newEpochs).dedup }
    else m
  if course = d ∧ role ≠ 0 then
    let start := if m.courseState d = 2 then
        some (m.rd64 (pgCrs d) CRS_START_ACTUAL_LO.ACTUAL CRS_START_ACTUAL_HI.ACTUAL / 256)
      else if m.courseState d = 1 then (m.crs d).startTick else none
    let m := match start with
      | some t => m.emitStartTo d t n
      | none => m
    match start, (m.crs d).stopTick with
    | some _, some t => m.emitStopTo d t n
    | _, _ => m
  else m

/-- ROLE_CHANGE at the head of 8 + c → 24 + d: the tables of every course of the island. -/
def execRoleChange (c : Cluster) (d : Input) (s : State) : Host.Outcome State Fault Refusal :=
  .next (match s.m.arrival (8 + c.val) (24 + d.val) with
    | some (.roleChange n epoch role course) =>
      s.onM fun m =>
        (coursesAt d).foldl (fun m k => m.takeRole k n epoch role course) (m.takeArrival (8 + c.val) (24 + d.val))
    | _ => s)

/-! ## Items (R285, R244) -/

/-- COURSE_ITEM_ARRIVAL: the head of src → the island of course d, taken by its engine and its writer. An item of the
other course of island 24 is left for it. -/
def execCourseItemArrival (d : Course) (src : Island) (s : State) : Host.Outcome State Fault Refusal :=
  let isl := courseIsland d
  let took := fun (f : Module → Module) => s.onM fun m => f (m.takeArrival src isl)
  .next (match s.m.arrival src isl with
    | some (.rawSamples g) => if d.val = src.val then (took fun m => m.rawAtoms d g false).acqRaw d g else s
    | some (.spectrum sp) => if sp.course = d.val then (took fun m => m.specAtom d sp).acqSpectrum d sp else s
    | some (.iq g) => if g.course = d.val then (took fun m => m.iqAtoms d g).acqIq d g else s
    | some (.notice n) => if d.val < 4 then took fun m => m.eventAtoms d n else s
    | some (.rects r) => if d.val < 4 then took fun m => m.rectAtom d r else s
    | some (.cross c time _) => if d.val < 4 then took fun m => m.crossAtom d c time else s
    | _ => s)

/-! ## Slots (R245, R265) -/

/-- Evaluate the next slot and pass a trigger on to the writer (R268). -/
def State.runSlot (s : State) (d : Nat) : State :=
  let (m, fire) := s.m.evaluateSlot d
  let s := { s with m := m }
  match fire with
  | some f => s.acqTrigger d f.time f.mask
  | none => s

/-- SLOT_EVALUATION (R245). -/
def execSlotEvaluation (d : Course) (s : State) : Host.Outcome State Fault Refusal :=
  .next (if s.m.mayEvaluate d = true then s.runSlot d else s)

/-- TRG_TIMEOUT (R265): the evaluation of the expiry slot of the state. -/
def execTrgTimeout (d : Course) (s : State) : Host.Outcome State Fault Refusal :=
  .next (if s.m.timeoutDue d = true then s.runSlot d else s)

/-! ## The commit of CRS -/

/-- The checks of a CRS snapshot (R214, R217, R220). -/
def checkCrs (m : Module) (d : Nat) (snap : Store Nat) : List Bad :=
  let p := pgCrs d
  let g := fun (f : Fld) => snapGet snap p f
  let ms := g CRS_SWITCH_TIMEOUT.MS
  chk (g CRS_RUN.START_SRC == 0 && g CRS_START_AT_LO.START_AT % 2 ^ 20 != 0) 0x040 2
  ++ chk (ms == 0) 0x08C 1 ++ chk (decide (10000 < ms)) 0x08C 2
  ++ chk (decide (18 < g CRS_REPLAY.LOG2)) 0x090 2
  ++ chk (d == 4 && g CRS_REPLAY.LOG2 != m.lv p CRS_REPLAY.LOG2 && m.members 4 != []) 0x090 4

/-- The effects of a CRS commit point (R214, R216). -/
def Module.appliedCrs (m : Module) (d : Nat) (wrote : List Nat) : Module :=
  if m.lv (pgCrs d) CRS_RUN.RUN = 0 then m.stopCourse d
  else if m.courseState d ≠ 2 ∧ (wrote.any fun o => o == 0x040 || o == 0x044 || o == 0x048) = true then
    if d = 4 then m.startCourse d else (m.startCourse d).refreshRaw d
  else m

end Sys2Proof.Machine
end

