-- ==== Sys2Proof/Machine/Density.lean ====
section
/-! DEFINITION. The density engines of islands 28 and 29 (spec/10): frames, folds, reports, publications, waterfall lines,
locks and the spare engine. -/

namespace Sys2Proof.Machine

def Module.dn (m : Module) (e : Nat) : DenSt := m.den.get DenSt.init e
def Module.setDn (m : Module) (e : Nat) (d : DenSt) : Module := { m with den := m.den.set DenSt.init e d }

/-- The physical engine of a logical one; the spare is number 8, in island 28 (R319, log entry 8). -/
def Module.denPhys (m : Module) (e : Nat) : Nat := m.rd (pgDen e) DEN_PHYS.ENGINE
def Module.denIsland (m : Module) (e : Nat) : Nat := if m.denPhys e = 8 then 28 else 28 + e / 4
def Module.denAct (m : Module) (e : Nat) : Nat := m.lv (pgDen e) ACTIVITY_ID.ACTIVITY

/-- The live settings of an engine. -/
def Module.denCfg (m : Module) (e : Nat) : DenCfg :=
  let p := pgDen e
  { kind := m.lv p DEN_SRC.TYPE, input := m.lv p DEN_SRC.INPUT, brick := m.lv p DEN_SRC.BRICK
    rows := m.lv p DEN_GEOM.ROWS, columns := m.lv p DEN_GEOM.COLUMNS, valFirst := m.lv p DEN_VAL_FIRST.FIRST
    valCount := m.lv p DEN_VAL_COUNT.COUNT, step := m.lv p DEN_SCALE.STEP
    bottom := toSigned 16 (m.lv p DEN_SCALE.BOTTOM), line := m.lv p DEN_MODE.DRAW == 1, shift := m.lv p DEN_MODE.SHIFT
    decay := m.lv p DEN_MODE.DECAY, period := m.lv p DEN_FRAME.PERIODS * 2048, courses := m.lv p DEN_REPORT.COURSES
    rectEn := m.lv p DEN_REPORT.RECT_EN
    rects := (List.range 16).map fun j => (m.lv p DEN_RECT_COLS.COL_LO j, m.lv p DEN_RECT_COLS.COL_HI j,
      m.lv p DEN_RECT_ROWS.ROW_LO j, m.lv p DEN_RECT_ROWS.ROW_HI j)
    pub := m.lv p DEN_PUB_CFG.EN == 1, pubRegion := m.lv p DEN_PUB_CFG.REGION, pubBufs := m.lv p DEN_PUB_CFG.BUFS
    pubEvery := m.lv p DEN_PUB_CFG.EVERY, wf := m.lv p DEN_WF_CFG.EN == 1, wfRegion := m.lv p DEN_WF_CFG.REGION
    wfDetect := m.lv p DEN_WF_CFG.DETECT, wfLines := m.lv p DEN_WF_LINES.LINES
    config := m.rd p COMMIT_STATUS.APPLY_COUNT % 65536, close := m.lv p DEN_CLOSE.TICKS }

/-- The buffer size B of a geometry (R316), and the line length L (R317). -/
def bufferBytes (columns rows : Nat) : Nat := nextMultiple (128 + 4 * columns * rows) 4096
def lineBytes (columns : Nat) : Nat := nextMultiple (32 + 2 * columns) 64

/-! ## Frames (R310) -/

/-- The first frame boundary at or after a tick: a multiple of the frame's length in the 56-bit count, or its wrap. -/
def gridNext (t period : Nat) : Nat :=
  t / 2 ^ 56 * 2 ^ 56 + Nat.min (nextMultiple (t % 2 ^ 56) period) (2 ^ 56)

/-- Open the next frame with a configuration. -/
def Module.openFrame (m : Module) (e : Nat) (cfg : DenCfg) : Module :=
  let d := m.dn e
  let stop := gridNext (d.next + 1) cfg.period
  let f : DenFrame := {
    start := d.next, stop := stop, seq := d.seq, cfg := cfg, clears := d.wipeNext, flags := flag d.gapNext 4
    diff := [], cols := [], spectra := 0, mismatch := 0, overrun := 0, late := 0, source := none
    replay := cfg.kind == 2 && m.lv (pgBrk cfg.brick) BRK_ROLE.ROLE == 4, foldEnd := 0, gen := none }
  m.setDn e { d with
    frames := d.frames ++ [f], next := stop, seq := (d.seq + 1) % 2 ^ 32, gapNext := false, wipeNext := false }

/-- The commit point of a DEN page whose engine is enabled: the first frame boundary at least 64 ticks after validation
(R321). -/
def Module.denCommitTick (m : Module) (e : Nat) : Option Nat :=
  (m.reg.commits.get none (pgDen e)).map fun c => gridNext (c.tick + 64) (m.denCfg e).period

/-- A frame begins at a commit point or at a spare's takeover only after it: a frame that starts there waits. -/
def Module.frameBarred (m : Module) (e start : Nat) : Bool :=
  (match m.denCommitTick e with
    | some t => decide (t ≤ start)
    | none => false)
  || (match (m.dn e).switching with
    | some t => decide (t ≤ start)
    | none => false)

/-- Frames f and f + 1 are open at a time (R310): open what holds a tick. -/
def Module.framesTo (m : Module) (e tick : Nat) (cfg : DenCfg) : Nat → Module
  | 0 => m
  | fuel + 1 =>
    if 2 ≤ (m.dn e).frames.length ∨ tick < (m.dn e).next ∨ m.frameBarred e (m.dn e).next = true then m
    else (m.openFrame e cfg).framesTo e tick cfg fuel

/-- The fold time of a geometry, in ticks (R311). -/
def foldTicks (columns rows : Nat) : Nat := 2 * ceilDiv (columns * rows) 512

/-- The oldest open frame closes, as of a tick since VIN, with the late spectra counted since the last one closed; its fold
begins as soon as the fold before it has ended. -/
def Module.closeFrame (m : Module) (e vin : Nat) : Module :=
  let d := m.dn e
  match d.frames with
  | f :: l =>
    let from_ := Nat.max vin ((d.folding.getLast?.map DenFrame.foldEnd).getD 0)
    let f := { f with
      late := d.late, clears := f.clears || d.clearing, foldEnd := from_ + foldTicks f.cfg.columns f.cfg.rows }
    m.setDn e { d with frames := l, folding := d.folding ++ [f], late := 0, clearing := false }
  | [] => m

/-- The oldest open frame has been over for CLOSE ticks. -/
def Module.closeIsDue (m : Module) (e : Nat) : Bool :=
  match (m.dn e).frames with
  | f :: _ => decide (f.stop + f.cfg.close ≤ m.tick)
  | [] => false

/-- It closes then, whenever that is noticed. -/
def Module.closeDue (m : Module) (e : Nat) : Module :=
  match (m.dn e).frames with
  | f :: _ => if m.closeIsDue e then m.closeFrame e (m.clk.ticks - (m.tick - (f.stop + f.cfg.close))) else m
  | [] => m

/-- A source takes a spectrum (R306). -/
def DenCfg.takes (c : DenCfg) (s : Spectrum) : Bool :=
  match s.brick with
  | none => s.input == c.input && c.kind == (if s.columns then 1 else 0)
  | some n => c.kind == 2 && c.brick == n

/-- Some frame that is or will be open, or the live settings, take the spectrum. -/
def Module.denTakes (m : Module) (e : Nat) (s : Spectrum) : Bool :=
  (m.dn e).on && ((m.denCfg e).takes s || (m.dn e).frames.any fun f => f.cfg.takes s)

/-- A spectrum reaches island 28 or 29: every engine of the group that takes it has it in turn; what belongs to an engine
of group 1 that the spare serves goes on over 29 → 28 (R306, R319). -/
def Module.denDeliver (m : Module) (src dst : Nat) (s : Spectrum) : Module :=
  (List.range 8).foldl (fun m e =>
    let mine := if src = 29 then decide (4 ≤ e) && m.denPhys e == 8 else e / 4 == dst - 28
    if mine && m.denTakes e s then
      if m.denIsland e = dst then m.setDn e { m.dn e with inbox := (m.dn e).inbox ++ [(src, s)] }
      else m.send ⟨29, 28, .dat, some (m.denAct e), 32 + s.bytes, [], true, .spectrum s⟩
    else m) m

/-- The frame that holds a tick. -/
def DenFrame.has (f : DenFrame) (t : Nat) : Bool := decide (f.start ≤ t) && decide (t < f.stop)

/-- Update the open frame of a tick. -/
def Module.updFrame (m : Module) (e t : Nat) (g : DenFrame → DenFrame) : Module :=
  m.setDn e { m.dn e with frames := (m.dn e).frames.map fun f => if f.has t then g f else f }

/-! ## Drawing (R307–R309) -/

/-- The row of a value (R307). -/
def DenCfg.rowOf (c : DenCfg) (v : Int) : Nat := Nat.min (c.rows - 1) ((v - c.bottom) / (c.step : Int)).toNat

/-- The values of column k: numbers into the payload (R307). -/
def DenCfg.valuesOf (c : DenCfg) (k : Nat) : List Nat :=
  let lo := c.valFirst + k * c.valCount / c.columns
  if c.columns ≤ c.valCount then
    (List.range (c.valFirst + (k + 1) * c.valCount / c.columns - lo)).map (lo + ·)
  else [lo]

/-- The extent of column k (R308). -/
def DenCfg.extent (c : DenCfg) (s : Spectrum) (k : Nat) : Nat × Nat :=
  let rows := (c.valuesOf k).map fun j => c.rowOf (logValue s j)
  let rows := if c.line ∧ 1 ≤ k then
      rows ++ [c.rowOf (logValue s ((c.valuesOf (k - 1)).getLastD 0))] else rows
  (rows.foldl Nat.min (rows.headD 0), rows.foldl Nat.max 0)

/-- Two updates of the difference array (R309). -/
def addExtent (diff : Store Int) (rows k : Nat) (x : Nat × Nat) : Store Int :=
  let a := diff.set 0 (k * 512 + x.1) (diff.get 0 (k * 512 + x.1) + 1)
  if x.2 < rows - 1 then a.set 0 (k * 512 + x.2 + 1) (a.get 0 (k * 512 + x.2 + 1) - 1) else a

/-- What column k drew so far: highest, lowest, last (R317). -/
def addColumn (cols : Store (Int × Int × Int)) (k : Nat) (vals : List Int) : Store (Int × Int × Int) :=
  match vals with
  | [] => cols
  | v :: _ =>
    let hi := vals.foldl max v
    let lo := vals.foldl min v
    let last := vals.getLastD v
    cols.insert k (match cols.find? fun p => p.1 == k with
      | some (_, h, l, _) => (max h hi, min l lo, last)
      | none => (hi, lo, last))

/-- Draw a spectrum into its frame. -/
def DenFrame.draw (f : DenFrame) (s : Spectrum) : DenFrame :=
  let c := f.cfg
  let fl := flag (bit s.flags 0) 0 + flag (bit s.flags 1) 1 + flag (bit s.flags 2) 2 + flag (bit s.flags 3) 3
    + flag (bit s.flags 4 || bit s.flags 7) 4 + flag (bit s.flags 5) 5
  { f with
    diff := (List.range c.columns).foldl (fun d k => addExtent d c.rows k (c.extent s k)) f.diff
    cols := (List.range c.columns).foldl (fun d k => addColumn d k ((c.valuesOf k).map (logValue s))) f.cols
    spectra := f.spectra + 1, flags := f.flags ||| fl
    source := if s.brick.isSome then some (s.course, s.epoch) else none
    replay := f.replay || (s.brick.isSome && s.course == 4) }

/-- Draw a spectrum into the frame of a tick, or discard it where 4,096 wait (R313): an engine draws 128 columns in a tick. -/
def Module.drawSpectrum (m : Module) (e t : Nat) (f : DenFrame) (sp : Spectrum) : Module :=
  let p := pgDen e
  let d := m.dn e
  let now := 128 * m.clk.ticks
  let busy := d.drawing.filter fun x => decide (now < x)
  if 4096 < busy.length then
    ((m.updFrame e t fun f => { f with overrun := f.overrun + 1, flags := f.flags ||| 8 }).bump p
      DEN_DISCARDS.OVERRUN).raise p 10
  else
    let m := m.setDn e { d with drawing := busy ++ [Nat.max now (busy.getLastD now) + f.cfg.columns] }
    ((m.updFrame e t fun f => f.draw sp).bump p DEN_SPECTRA.COUNT).addWork 10 1

/-- A spectrum at an engine, in the frame that holds its FRAME_TIME (R306, R310). -/
def Module.takeSpectrum (m : Module) (e t : Nat) (sp : Spectrum) : Module :=
  let p := pgDen e
  let d := m.dn e
  if sp.complex then m.bump p DEN_IGNORED.COMPLEX
  else if t < d.first then m
  else
    match d.frames.find? fun f => f.has t with
    | none => ((m.setDn e { d with late := d.late + 1 }).bump p DEN_DISCARDS.LATE).raise p 10
    | some f =>
      if ¬ f.cfg.takes sp then m
      else if sp.count < f.cfg.valFirst + f.cfg.valCount then
        (m.updFrame e t fun f => { f with mismatch := f.mismatch + 1 }).bump p DEN_IGNORED.MISMATCH
      else m.drawSpectrum e t f sp

/-- The frames as a tick finds them: what is due has closed, and what holds the tick is open. -/
def Module.framesAt (m : Module) (e t : Nat) : Module :=
  let m := (m.closeDue e).closeDue e
  m.framesTo e t (m.denCfg e) 2

/-- DEN_SPECTRUM (R306–R310, R313): the next spectrum from an island at an engine. One of a frame that cannot be open yet (a
commit point, a takeover or a close that is due comes first) waits. -/
def execDenSpectrum (e : Fin 8) (src : Island) (s : State) : Host.Outcome State Fault Refusal :=
  .next (match (s.m.dn e).inbox with
    | (from_, sp) :: rest =>
      let t := s.m.unwrap sp.time / 256
      if from_ ≠ src.val ∨ ((s.m.framesAt e t).dn e).next ≤ t then s
      else
        s.onM fun m =>
          let m := m.framesAt e t
          (m.setDn e { m.dn e with inbox := rest }).takeSpectrum e t sp
    | [] => s)

/-- Spectra of island 29 that the budget kept from the spare (R319): their frame carries BUDGET_DROP. -/
def Module.denForwardDropped (m : Module) (sp : Spectrum) : Module :=
  let t := m.unwrap sp.time / 256
  [4, 5, 6, 7].foldl (fun m e =>
    if m.denPhys e = 8 ∧ m.denTakes e sp = true then
      (m.framesAt e t).updFrame e t fun f => { f with flags := f.flags ||| 8 }
    else m) m

/-! ## Closing and folding (R310–R315) -/

/-- TILE_FRAME_CLOSE: CLOSE ticks after its end the oldest open frame closes. A frame without spectra is a frame as well. -/
def execTileFrameClose (e : Fin 8) (s : State) : Host.Outcome State Fault Refusal :=
  .next (if (s.m.dn e).on = true then
    s.onM fun m =>
      let m := if (m.dn e).frames = [] then m.framesTo e m.tick (m.denCfg e) 1 else m
      m.closeDue e
  else s)

/-- The hits of a cell (R309). -/
def DenFrame.hits (f : DenFrame) (c r : Nat) : Nat :=
  (((List.range (r + 1)).map fun i => f.diff.get 0 (c * 512 + i)).sum).toNat

/-- decay(count) (R312). -/
def DenCfg.decayed (c : DenCfg) (n : Nat) : Nat :=
  match c.decay with
  | 0 => n
  | 1 => n - n / 2 ^ c.shift
  | _ => 0

/-- The tile after the fold (R311). -/
def DenFrame.fold (f : DenFrame) (tile : Store Nat) : Store Nat :=
  (List.range f.cfg.columns).flatMap fun c => (List.range f.cfg.rows).filterMap fun r =>
    let k := c * 512 + r
    let n := Nat.min 0xFFFFFFFF ((if f.clears then 0 else f.cfg.decayed (tile.get 0 k)) + f.hits c r)
    if n = 0 then none else some (k, n)

/-- COUNT_j (R315). -/
def DenFrame.rectCount (f : DenFrame) (x : Nat × Nat × Nat × Nat) : Nat :=
  Nat.min 0xFFFFFFFF ((List.range (x.2.1 + 1 - x.1)).map fun c =>
    ((List.range (x.2.2.2 + 1 - x.2.2.1)).map fun r => f.hits (x.1 + c) (x.2.2.1 + r)).sum).sum

/-- The rectangle reports of a frame (R315, R320). -/
def Module.sendReports (m : Module) (e : Nat) (f : DenFrame) (counts : List Nat) : Module :=
  [0, 1, 2, 3].foldl (fun m x =>
    if bit f.cfg.courses x then
      let lost := (m.dn e).lost.contains x
      let fl := flag (bit f.flags 0) 0 + flag (bit f.flags 1) 1 + flag (bit f.flags 3) 2 + flag (decide (0 < f.late)) 3
        + flag (bit f.flags 4) 4 + flag lost 5
      let m := m.setDn e { m.dn e with lost := (m.dn e).lost.filter fun y => y != x }
      m.send ⟨m.denIsland e, 24 + x, .dat, some (m.denAct e), 96, [], true,
        .rects ⟨e, tick64 f.stop, f.seq, fl, f.cfg.rectEn, f.spectra, counts⟩⟩
    else m) m

/-- A report that exceeds the budget (R320). -/
def Module.reportDropped (m : Module) (e x : Nat) : Module :=
  (m.setDn e { m.dn e with lost := (x :: (m.dn e).lost).dedup }).bump (pgDen e) DEN_REPORT_DROPS.COUNT

/-- The header FLAGS of a frame (R314). -/
def DenFrame.tileFlags (f : DenFrame) : Nat := headerFlags f.flags ||| flag f.replay 7

/-- INPUT_GEN of an input at an instant, from the notices received (R276). -/
def DenSt.genAt (d : DenSt) (x tick : Nat) : Nat :=
  d.gens.foldl (fun g n => if n.1 = x ∧ n.2.1 ≤ tick then n.2.2 else g) 0

/-- GEN_NOTICE (R276): at course island 24 + x it becomes a mark of the course, at 28 and 29 every engine takes it. -/
def execGenNotice (x : Input) (dst : Island) (s : State) : Host.Outcome State Fault Refusal :=
  .next (match s.m.arrival 56 dst with
    | some (.genNotice y gen tick) =>
      if y ≠ x.val then s
      else
        s.onM fun m =>
          let m := m.takeArrival 56 dst
          if dst.val = 24 + x.val then m.setCrs x { m.crs x with marks := (m.crs x).marks ++ [.genChange tick gen] }
          else (List.range 8).foldl (fun m e =>
            if m.denIsland e = dst.val then m.setDn e { m.dn e with gens := (m.dn e).gens ++ [(x.val, tick, gen)] } else m) m
    | _ => s)

/-! ## Publication (R316) -/

/-- The input whose INPUT_GEN a frame shows (R316). -/
def Module.denInput (m : Module) (f : DenFrame) : Nat :=
  if f.cfg.kind = 2 then (match f.source with
    | some p => p.1
    | none => m.lv (pgBrk f.cfg.brick) BRK_ROLE.COURSE) % 4
  else f.cfg.input

/-- The header and the directory of a tile. -/
def Module.tileHeader (m : Module) (e buf : Nat) (f : DenFrame) (tile : Store Nat) : List Byte × List Byte :=
  let c := f.cfg
  let d := m.dn e
  let course := match f.source with
    | some p => p.1
    | none => if c.kind = 2 then m.lv (pgBrk c.brick) BRK_ROLE.COURSE else 0
  let input := m.denInput f
  let desc := if c.kind = 2 then c.brick + 2048 + course * 256 + input * 4096 else input * 4096
  let gen := if f.replay then 0 else f.gen.getD (d.genAt input f.start)
  let cells := tile.map Prod.snd
  let header := leBytes 2 16 ++ leBytes 2 (6 + 256) ++ leBytes 2 desc
    ++ leBytes 1 (match f.source with
      | some p => p.2
      | none => 0)
    ++ leBytes 1 (f.tileFlags) ++ leBytes 4 (buf + c.pubRegion * 2 ^ 20 + e * 2 ^ 26) ++ leBytes 8 (tick64 f.stop)
    ++ leBytes 8 (tick64 f.start) ++ leBytes 4 (ceilDiv (64 + 4 * c.columns * c.rows) 64) ++ leBytes 2 0 ++ leBytes 2 0
    ++ leBytes 4 gen ++ leBytes 4 f.seq ++ leBytes 16 0
  let dir := leBytes 2 c.columns ++ leBytes 2 c.rows ++ leBytes 2 (ofSigned 16 c.bottom) ++ leBytes 2 c.step
    ++ leBytes 4 f.spectra ++ leBytes 4 f.mismatch ++ leBytes 4 f.late ++ leBytes 4 f.overrun
    ++ leBytes 4 (cells.filter fun n => n == 0xFFFFFFFF).length ++ leBytes 1 (c.decay + 4 * c.shift)
    ++ leBytes 1 c.line.toNat ++ leBytes 2 c.config ++ leBytes 4 (c.period / 2048) ++ leBytes 4 c.valFirst
    ++ leBytes 4 c.valCount ++ leBytes 4 (cells.foldl Nat.max 0) ++ leBytes 16 0
  (header, dir)

/-- The counts of a tile, row by row (R316). -/
def tileCounts (c : DenCfg) (tile : Store Nat) : List Byte :=
  (List.range c.rows).flatMap fun r => (List.range c.columns).flatMap fun k => leBytes 4 (tile.get 0 (k * 512 + r))

/-- A write of the island into a stretch of a region is still held. -/
def Module.stretchHeld (m : Module) (isl r ofs n : Nat) : Bool :=
  m.net.writes.any fun w => w.island == isl && w.region == r && decide (w.ofs < ofs + n) && decide (ofs < w.ofs + w.data.length)

/-- A publication under way, as far as it has come: the header follows when every earlier write of the buffer has completed,
and with the header the buffer is complete (R316). -/
def State.finishPublication (s : State) (e : Nat) : State :=
  let isl := s.m.denIsland e
  match (s.m.dn e).pub with
  | some b =>
    if s.m.stretchHeld isl b.region b.ofs b.bytes then s
    else
      let s := if b.headed then s
        else (s.unitWrite isl (s.m.denAct e) b.region b.ofs b.header).onM fun m =>
          m.setDn e { m.dn e with pub := some { b with headed := true } }
      if s.m.stretchHeld isl b.region b.ofs b.bytes then s
      else
        s.onM fun m =>
          let p := pgDen e
          let m := m.setDn e { m.dn e with pub := none, newest := some b }
          (((m.wr p DEN_PUB_LAST.BUF b.buffer).wr p DEN_PUB_LAST.VALID 1).wr p DEN_PUB_SEQ.SEQUENCE b.seq).raise p 9
  | none => s

/-- A publication that falls due: it begins in the next buffer that is not locked, or is skipped. -/
def State.publish (s : State) (e : Nat) (f : DenFrame) : State :=
  let d := s.m.dn e
  let c := f.cfg
  if d.pub.isSome then s.onM fun m => (m.bump (pgDen e) DEN_SKIPS.PUB).raise (pgDen e) 12
  else
    let next := d.nextBuf % Nat.max 1 c.pubBufs
    let buf := if d.locked = some next then (next + 1) % Nat.max 1 c.pubBufs else next
    let bytes := bufferBytes c.columns c.rows
    let ofs := buf * bytes
    let (header, dir) := s.m.tileHeader e buf f d.tile
    let header := header ++ leBytes 4 (crc32c (header ++ dir))
    let isl := s.m.denIsland e
    let act := s.m.denAct e
    let s := s.unitWrite isl act c.pubRegion ofs [0, 0]
    let s := s.unitWrite isl act c.pubRegion (ofs + 64) (dir ++ tileCounts c d.tile)
    s.onM fun m => m.setDn e { m.dn e with
      pub := some ⟨buf, c.pubRegion, ofs, bytes, f.seq, header, false⟩, nextBuf := buf + 1 }

/-- PUBLISHED (R316): the header is written and the buffer is complete. -/
def execPublished (e : Fin 8) (s : State) : Host.Outcome State Fault Refusal := .next (s.finishPublication e)

/-! ## Waterfall lines (R317) -/

/-- The value that a waterfall line gives a column. -/
def DenFrame.lineValue (f : DenFrame) (k : Nat) : Nat :=
  match f.cols.find? fun p => p.1 == k with
  | some (_, hi, lo, last) => ofSigned 16 (if f.cfg.wfDetect = 0 then hi else if f.cfg.wfDetect = 1 then lo else last)
  | none => 0x8000

/-- The bytes of a line of a frame. -/
def DenFrame.lineData (f : DenFrame) : List Byte :=
  leBytes 8 (tick64 f.start) ++ leBytes 4 f.seq ++ leBytes 1 f.tileFlags ++ leBytes 3 0
    ++ leBytes 4 f.spectra ++ leBytes 12 0 ++ (List.range f.cfg.columns).flatMap fun k => leBytes 2 (f.lineValue k)

/-- A waterfall line is still being written. -/
def Module.fallHeld (m : Module) (e : Nat) (l : FallLine) : Bool :=
  m.stretchHeld (m.denIsland e) l.region (l.line * lineBytes l.columns) (lineBytes l.columns)

/-- The newest complete waterfall line of an engine. -/
def Module.newestFall (m : Module) (e : Nat) : Option FallLine :=
  match (m.dn e).fall with
  | some l => if m.fallHeld e l then (m.dn e).fallen else some l
  | none => none

/-- The line after another one in the ring of a configuration; another ring begins with line 0. -/
def nextFall (last : Option FallLine) (c : DenCfg) : FallLine :=
  match last with
  | some l =>
    if l.region = c.wfRegion ∧ l.lines = c.wfLines ∧ l.columns = c.columns then
      { l with line := (l.line + 1) % Nat.max 1 c.wfLines, count := l.count + 1 }
    else ⟨0, 1, c.wfRegion, c.wfLines, c.columns⟩
  | none => ⟨0, 1, c.wfRegion, c.wfLines, c.columns⟩

/-- A waterfall line that falls due is written, or skipped while the previous one is still being written. -/
def State.waterfall (s : State) (e : Nat) (f : DenFrame) : State :=
  let last := (s.m.dn e).fall
  if (last.map (s.m.fallHeld e)).getD false then s.onM fun m => (m.bump (pgDen e) DEN_SKIPS.WF).raise (pgDen e) 12
  else
    let l := nextFall last f.cfg
    (s.unitWrite (s.m.denIsland e) (s.m.denAct e) l.region (l.line * lineBytes l.columns) f.lineData).onM fun m =>
      m.setDn e { m.dn e with fall := some l, fallen := last }

/-- The tile after a frame's fold, what the page shows of it, and its reports (R311, R315). -/
def Module.foldFrame (m : Module) (e : Nat) (f : DenFrame) (rest : List DenFrame) : Module :=
  let p := pgDen e
  let d := m.dn e
  let tile := f.fold d.tile
  let full := (tile.filter fun c => c.2 == 0xFFFFFFFF).length
  let m := m.setDn e { d with folding := rest, tile := tile }
  let counts := ((List.range 16).zip f.cfg.rects).map fun x => if bit f.cfg.rectEn x.1 then f.rectCount x.2 else 0
  let m := (List.range 16).foldl (fun m j => m.wr p DEN_RECT_COUNT.COUNT (counts.getD j 0) j) m
  let m := ((m.wr p DEN_SEQ.SEQUENCE f.seq).wr p DEN_SAT.CELLS full).raise p 8
  (if 0 < full then m.raise p 11 else m).sendReports e f counts

/-- FOLD_DONE (R311, R315–R317): the fold has taken its ticks and the tile frame is complete; its reports, publication and
waterfall line follow. -/
def execFoldDone (e : Fin 8) (s : State) : Host.Outcome State Fault Refusal :=
  .next (match (s.m.dn e).folding with
    | f :: rest =>
      if s.m.clk.ticks < f.foldEnd then s
      else
        let s := (s.onM fun m => m.foldFrame e f rest).finishPublication e
        let s := if f.cfg.pub ∧ (f.seq + 1) % Nat.max 1 f.cfg.pubEvery = 0 then s.publish e f else s
        if f.cfg.wf then s.waterfall e f else s
    | [] => s)

/-- DEN_CLEAR (R312): every cell is zero before the hits of the next fold. -/
def State.takeDenClear (s : State) (e : Fin 8) : State :=
  (s.onM fun m => m.setDn e { m.dn e with clearing := true })

/-- The command: a write that does this. -/
def execDenClear (r : Requester) (e : Fin 8) (s : State) : Host.Outcome State Fault Refusal :=
  .next (s.via (.denClear r e) r (pgDen e) fun s => s.takeDenClear e)

/-- LOCK (R318) at the head of 30 → the engine's island: the newest complete buffer stays locked until the next LOCK. -/
def execLock (e : Fin 8) (s : State) : Host.Outcome State Fault Refusal :=
  let isl := s.m.denIsland e
  .next (match s.m.arrival 30 isl with
    | some (.lock n) =>
      if n ≠ e.val then s
      else
        s.onM fun m =>
          let m := m.takeArrival 30 isl
          let b := (m.dn e).newest
          (m.setDn e { m.dn e with locked := b.map Publication.buffer }).post isl 30 .cpl
            (.lockDone e (b.map fun b => (b.region, b.ofs, b.seq)))
    | _ => s)

/-! ## The spare engine (R319) -/

/-- A substitution order reaches the group: the spare is taken, and takes over at the next frame boundary; with none left
the engine leaves service. -/
def Module.denOrder (m : Module) (e : Nat) : Module :=
  if m.rd (pgDen e) DEN_PHYS.SPARE_LEFT = 1 then
    ((List.range 8).foldl (fun m k => m.wr (pgDen k) DEN_PHYS.SPARE_LEFT 0) m).setDn e
      { m.dn e with switching := some (gridNext (m.tick + 1) (m.denCfg e).period) }
  else (m.setDn e { m.dn e with on := false }).spareExhausted (28 + e / 4) 6 e

/-- DENSITY_ENGINE_SWITCH: at the next tile frame boundary the spare serves the engine, from zero counts, with GAP. An engine
that is not enabled has no frames, and the spare takes over at once. -/
def execDensityEngineSwitch (e : Fin 8) (s : State) : Host.Outcome State Fault Refusal :=
  .next (match (s.m.dn e).switching with
    | some t =>
      if (s.m.dn e).on = true ∧ (s.m.tick < t ∨ ((s.m.framesAt e (t - 1)).dn e).next < t) then s
      else
        s.onM fun m =>
          let p := pgDen e
          let old := m.denPhys e
          let m := if (m.dn e).on then m.framesAt e (t - 1) else m
          let m := m.setDn e { m.dn e with switching := none, wipeNext := true, gapNext := true }
          let m := m.wr p DEN_PHYS.ENGINE 8
          ((m.wr p STATUS.SPARE_IN_USE 1).recordSubst 6 1 e old 8 (some (580 + old))).clearSevere (580 + old)
    | none => s)

/-! ## The DEN page -/

/-- A write of CTRL.ENABLE on a DEN page (R321). -/
def Module.enableDen (m : Module) (e : Nat) (on : Bool) : Module :=
  let p := pgDen e
  let was := m.rd p CTRL.ENABLE == 1
  let m := m.wr p CTRL.ENABLE on.toNat
  if on && !was then
    let t := gridNext (m.tick + 64) (m.denCfg e).period
    m.setDn e { m.dn e with on := true, first := t, next := t, seq := 0, gapNext := true, frames := [], inbox := [] }
  else if !on && was then m.setDn e { m.dn e with on := false, frames := [], inbox := [] }
  else m

/-- The checks of a DEN snapshot (R311, R316, R317 and the register table). -/
def checkDen (m : Module) (e : Nat) (snap : Store Nat) : List Bad :=
  let p := pgDen e
  let g := fun (f : Fld) => snapGet snap p f
  let rows := g DEN_GEOM.ROWS
  let cols := g DEN_GEOM.COLUMNS
  let sized := rows != 0 && cols != 0 && decide (rows ≤ 512) && decide (cols ≤ 2048)
  let bufs := g DEN_PUB_CFG.BUFS
  chk (g DEN_SRC.TYPE == 3) 0x040 2
  ++ chk (rows == 0 || cols == 0) 0x044 1 ++ chk (decide (512 < rows) || decide (2048 < cols)) 0x044 2
  ++ chk (sized && g DEN_FRAME.PERIODS != 0 && g DEN_CLOSE.TICKS != 0
      && decide (g DEN_FRAME.PERIODS * 2048 < g DEN_CLOSE.TICKS + foldTicks cols rows)) 0x044 0x80
  ++ chk (sized && !(outside 3 16 bufs) && g DEN_PUB_CFG.EN == 1 && decide ((m.region (g DEN_PUB_CFG.REGION)).bytes < bufs * bufferBytes cols rows)) 0x044 5
  ++ chk (sized && g DEN_WF_CFG.EN == 1 && decide ((m.region (g DEN_WF_CFG.REGION)).bytes < g DEN_WF_LINES.LINES * lineBytes cols))
      0x044 5
  ++ (List.range 16).flatMap (fun j =>
    chk (sized && decide (cols ≤ snapGet snap p DEN_RECT_COLS.COL_HI j)) 0x044 2 j
    ++ chk (sized && decide (rows ≤ snapGet snap p DEN_RECT_ROWS.ROW_HI j)) 0x044 2 j
    ++ chk (decide (snapGet snap p DEN_RECT_COLS.COL_HI j < snapGet snap p DEN_RECT_COLS.COL_LO j)) 0x068 2 j
    ++ chk (decide (snapGet snap p DEN_RECT_ROWS.ROW_HI j < snapGet snap p DEN_RECT_ROWS.ROW_LO j)) 0x06C 2 j)
  ++ chk (g DEN_VAL_COUNT.COUNT == 0) 0x04C 1 ++ chk (decide (524288 < g DEN_VAL_COUNT.COUNT)) 0x04C 2
  ++ chk (g DEN_SCALE.STEP == 0) 0x050 1 ++ chk (decide (0x7FFF < g DEN_SCALE.STEP)) 0x050 2
  ++ chk (g DEN_MODE.DECAY == 3) 0x054 2 ++ chk (g DEN_MODE.DECAY == 1 && g DEN_MODE.SHIFT == 0) 0x054 1
  ++ chk (g DEN_MODE.DECAY == 1 && decide (16 < g DEN_MODE.SHIFT)) 0x054 2
  ++ chk (g DEN_FRAME.PERIODS == 0) 0x058 1
  ++ chk (g DEN_FRAME.PERIODS != 0 && outside 2 4194304 (g DEN_FRAME.PERIODS)) 0x058 2
  ++ chk (g DEN_CLOSE.TICKS == 0) 0x05C 1 ++ chk (g DEN_CLOSE.TICKS != 0 && outside 64 4194304 (g DEN_CLOSE.TICKS)) 0x05C 2
  ++ chk (bufs == 0) 0x074 1 ++ chk (bufs != 0 && outside 3 16 bufs) 0x074 2 ++ chk (g DEN_PUB_CFG.EVERY == 0) 0x074 1
  ++ chk (g DEN_WF_CFG.DETECT == 3) 0x084 2
  ++ chk (g DEN_WF_LINES.LINES == 0) 0x088 1 ++ chk (decide (65536 < g DEN_WF_LINES.LINES)) 0x088 2

/-- The fields whose change clears the tile (R321). -/
def DenCfg.sameDrawing (a b : DenCfg) : Bool :=
  a.kind == b.kind && a.input == b.input && a.brick == b.brick && a.columns == b.columns && a.rows == b.rows
  && a.valFirst == b.valFirst && a.valCount == b.valCount && a.bottom == b.bottom && a.step == b.step && a.line == b.line

/-- The commit point has come, and every frame that began before it is open or closed (R321). -/
def Module.denCommitDue (m : Module) (e : Nat) : Bool :=
  !(m.dn e).on || match m.denCommitTick e with
    | some t => decide (t ≤ m.tick) && decide (t ≤ ((m.framesAt e (t - 1)).dn e).next)
    | none => true

/-- The effects of a DEN commit point (R321): frames begun before it keep the old configuration. -/
def Module.appliedDen (m before : Module) (e validated : Nat) : Module :=
  let old := before.denCfg e
  let new := m.denCfg e
  let m := m.wr (pgDen e) DEN_PUB_BYTES.B (bufferBytes new.columns new.rows)
  let clears := !old.sameDrawing new
  if (m.dn e).on then
    let m := ((m.closeDue e).closeDue e).framesTo e (gridNext (validated + 64) old.period - 1) old 2
    m.setDn e { m.dn e with gapNext := (m.dn e).gapNext || clears, wipeNext := (m.dn e).wipeNext || clears }
  else if clears then m.setDn e { m.dn e with tile := [] }
  else m

/-- A TIME64 load (R310): every open frame closes at once and the grid restarts from the loaded count; INPUT_GEN stays what it
was, and spectra of the old count are gone (R549). -/
def Module.denLoad (m : Module) (e tick : Nat) : Module :=
  let settle := fun (d : DenSt) => { d with
    frames := d.frames.map fun f => { f with gen := some (d.genAt (m.denInput f) f.start) }
    folding := d.folding.map fun f => { f with gen := some (f.gen.getD (d.genAt (m.denInput f) f.start)) }
    gens := (List.range 4).map fun x => (x, 0, (d.gens.foldl (fun g n => if n.1 = x then n.2.2 else g) 0)), inbox := [] }
  let m := m.setDn e (settle (m.dn e))
  if (m.dn e).on then
    let m := (m.closeFrame e m.clk.ticks).closeFrame e m.clk.ticks
    m.setDn e { m.dn e with
      first := tick, next := tick, gapNext := true
      switching := (m.dn e).switching.map fun _ => gridNext (tick + 1) (m.denCfg e).period }
  else m

end Sys2Proof.Machine
end

