-- ==== Sys2Proof/Machine/Display.lean ====
section
/-! DEFINITION. The display composer of island 30 and the pixel island 31 (spec/10): composition, hot plug, the link and
the raster. VBLANK_START, which applies the commits of the DISP and LAYER pages, stands in Machine/Compose.lean. -/

namespace Sys2Proof.Machine

/-- The raster runs: the page is enabled and OUT_EN is 1 (R326). -/
def Module.rasterRuns (m : Module) : Bool := m.rd pgDisp CTRL.ENABLE == 1 && m.lv pgDisp DISP_LINK.OUT_EN == 1
def Module.dispAct (m : Module) : Nat := m.lv pgDisp ACTIVITY_ID.ACTIVITY

/-! ## Pixels (R322–R324) -/

/-- What a layer gives a pixel: transparent (none) or an RGBA word; and whether its fetch met unmapped memory. -/
structure Fetched where
  rgba     : Option Nat
  unmapped : Bool
  deriving DecidableEq, Repr

/-- The sources x maps to: ⌊x × C ÷ W⌋ to max of it and ⌊(x + 1) × C ÷ W⌋ − 1 (R323). -/
def mapped (x c w : Nat) : List Nat :=
  let lo := x * c / w
  (List.range (Nat.max lo ((x + 1) * c / w - 1) + 1 - lo)).map (lo + ·)

/-- ⌊log2(n) × 256⌋: log2 formed to 8 fraction bits (R324). -/
def log2q8 (n : Nat) : Nat := Nat.log2 (n ^ 256)

/-- The palette index of a tile count (R324). -/
def Module.tileIndex (m : Module) (l n : Nat) : Nat :=
  let p := pgLayer l
  if m.lv p LAYER_CMAP.MODE = 0 then Nat.min 255 (n / 2 ^ m.lv p LAYER_CMAP.SHIFT)
  else if n = 0 then 0
  else Nat.min 255 (1 + log2q8 n * m.lv p LAYER_CMAP.SCALE / 4096)

def Module.palette (m : Module) (l i : Nat) : Nat := m.lv (pgLayer l) LAYER_PAL_DATA.RGBA i

/-- A fetch of bytes for a layer: none where the memory is unmapped (R327). -/
def State.fetch (s : State) (r ofs n : Nat) : Option Nat :=
  let g := s.m.region r
  if g.holds ofs n then some (leNat (readBytes s.hbm g ofs n)) else none

/-- Pixel (x, y) of a TILE layer. -/
def State.tilePixel (s : State) (l x y : Nat) : Fetched :=
  let p := pgLayer l
  let e := s.m.lv p LAYER_CFG.ENGINE
  match s.m.disp.locks.get none e with
  | none => ⟨none, false⟩
  | some (r, base, _) =>
    match s.fetch r (base + 64) 4 with
    | none => ⟨none, true⟩
    | some geom =>
      let c := geom % 65536
      let rows := geom / 65536
      let counts := (mapped y rows (s.m.lv p LAYER_SIZE.H)).flatMap fun j =>
        (mapped x c (s.m.lv p LAYER_SIZE.W)).map fun k => s.fetch r (base + 128 + 4 * ((rows - 1 - j) * c + k)) 4
      if counts.contains none then ⟨none, true⟩
      else ⟨some (s.m.palette l (s.m.tileIndex l (counts.foldl (fun a o => Nat.max a (o.getD 0)) 0))), false⟩

/-- The line of a ring that is y lines older than another one, where it has been written (R323). -/
def FallLine.older (n : FallLine) (y : Nat) : Option Nat :=
  if Nat.min n.count n.lines ≤ y then none else some ((n.line + n.lines - y) % n.lines)

/-- Pixel (x, y) of a WATERFALL layer: row y is the line y lines older than the newest one at the commit point. -/
def State.fallPixel (s : State) (l x y : Nat) : Fetched :=
  let p := pgLayer l
  match s.m.disp.falls.get none l with
  | none => ⟨none, false⟩
  | some n =>
    match n.older y with
    | none => ⟨none, false⟩
    | some line =>
      let vals := (mapped x n.columns (s.m.lv p LAYER_SIZE.W)).map fun k =>
        s.fetch n.region (line * lineBytes n.columns + 32 + 2 * k) 2
      if vals.contains none then ⟨none, true⟩
      else
        match (vals.filterMap id).filter fun v => v != 0x8000 with
        | [] => ⟨none, false⟩
        | v :: vs =>
          let hi := vs.foldl (fun a w => max a (toSigned 16 w)) (toSigned 16 v)
          let i := (hi - toSigned 16 (s.m.lv p LAYER_WF_SCALE.BOTTOM)) / (s.m.lv p LAYER_WF_SCALE.STEP : Int)
          ⟨some (s.m.palette l (Nat.min 255 i.toNat)), false⟩

/-- Pixel (x, y) of an RGBA layer. -/
def State.rgbaPixel (s : State) (l x y : Nat) : Fetched :=
  let p := pgLayer l
  match s.fetch (s.m.lv p LAYER_CFG.REGION)
      (s.m.lv p LAYER_BASE.OFFSET + y * s.m.lv p LAYER_STRIDE.BYTES + 4 * x) 4 with
  | some v => ⟨some v, false⟩
  | none => ⟨none, true⟩

/-- The picture pixel (px, py) of layer l (R322). -/
def State.layerPixel (s : State) (l px py : Nat) : Fetched :=
  let p := pgLayer l
  let x := s.m.lv p LAYER_POS.X
  let y := s.m.lv p LAYER_POS.Y
  if px < x ∨ x + s.m.lv p LAYER_SIZE.W ≤ px ∨ py < y ∨ y + s.m.lv p LAYER_SIZE.H ≤ py then ⟨none, false⟩
  else
    match s.m.lv p LAYER_CFG.TYPE with
    | 1 => s.tilePixel l (px - x) (py - y)
    | 2 => s.fallPixel l (px - x) (py - y)
    | 3 => s.rgbaPixel l (px - x) (py - y)
    | _ => ⟨none, false⟩

/-- One 8-bit channel: d × (1 − α) + s × α, α = A × GLOBAL_ALPHA ÷ 65,025, rounded to nearest (R322). -/
def blend (d c alpha : Nat) : Nat := (2 * (d * (65025 - alpha) + c * alpha) + 65025) / 130050

/-- A layer pixel over the pixel beneath it. -/
def blendPixel (under rgba global : Nat) : Nat :=
  let alpha := rgba / 2 ^ 24 * global
  let ch := fun (i : Nat) => blend (under / 2 ^ (8 * i) % 256) (rgba / 2 ^ (8 * i) % 256) alpha * 2 ^ (8 * i)
  ch 0 + ch 1 + ch 2

/-- A frame-store pixel (R322): DISP_BG and layers 0 to 7 in order. -/
def State.composePixel (s : State) (px py : Nat) : Nat :=
  (List.range 8).foldl (fun d l => match (s.layerPixel l px py).rgba with
    | some v => blendPixel d v (s.m.lv (pgLayer l) LAYER_CFG.GLOBAL_ALPHA)
    | none => d) (s.m.lv pgDisp DISP_BG.RGB)

/-! ## Composition (R325) -/

/-- A layer is drawn, and the bands of 16 lines that its live settings cover. -/
def Module.drawn (m : Module) (l : Nat) : Bool := m.lv (pgLayer l) LAYER_CFG.TYPE != 0
def Module.bandsOf (m : Module) (l : Nat) : List Nat :=
  let y := m.lv (pgLayer l) LAYER_POS.Y
  let h := m.lv (pgLayer l) LAYER_SIZE.H
  (List.range 135).filter fun b => decide (y < 16 * b + 16) && decide (16 * b < y + h)

/-- The drawn layers that cover a band, and the lines of a layer that lie in it, from the layer's top. -/
def Module.layersIn (m : Module) (b : Nat) : List Nat := (List.range 8).filter fun l => m.drawn l && (m.bandsOf l).contains b
def Module.linesIn (m : Module) (l b : Nat) : List Nat :=
  let y := m.lv (pgLayer l) LAYER_POS.Y
  (List.range (m.lv (pgLayer l) LAYER_SIZE.H)).filter fun i => (y + i) / 16 == b

/-- What layer l fetches for a band: the region, and stretches of it. -/
def State.bandFetch (s : State) (l b : Nat) : Nat × List (Nat × Nat) :=
  let p := pgLayer l
  let ys := s.m.linesIn l b
  match s.m.lv p LAYER_CFG.TYPE with
  | 1 => (match s.m.disp.locks.get none (s.m.lv p LAYER_CFG.ENGINE) with
    | some (r, base, _) =>
      let geom := (s.fetch r (base + 64) 4).getD 0
      let c := geom % 65536
      let rows := geom / 65536
      let js := (ys.flatMap fun y => mapped y rows (s.m.lv p LAYER_SIZE.H)).map fun j => rows - 1 - j
      (r, (base + 64, 4) :: (js.dedup.map fun j => (base + 128 + 4 * (j * c), 4 * c)))
    | none => (0, []))
  | 2 => (match s.m.disp.falls.get none l with
    | some n => (n.region, (ys.filterMap n.older).map fun line => (line * lineBytes n.columns + 32, 2 * n.columns))
    | none => (0, []))
  | 3 => (s.m.lv p LAYER_CFG.REGION,
      ys.map fun y => (s.m.lv p LAYER_BASE.OFFSET + y * s.m.lv p LAYER_STRIDE.BYTES, 4 * s.m.lv p LAYER_SIZE.W))
  | _ => (0, [])

/-- A layer's fetch for a band: once its budget has taken all of it (R332), the reads, and what is unmapped, which counts once
for the band (R327, log entry 35). -/
def State.fetchLayer (s : State) (b l : Nat) : State :=
  if s.m.disp.fetched.contains l then s
  else
    let (r, stretches) := s.bandFetch l b
    let g := s.m.region r
    let held := stretches.filter fun e => g.holds e.1 e.2
    let (passed, m) := s.m.letThrough (5120 + l) (s.m.lv (pgLayer l) ACTIVITY_ID.ACTIVITY) (held.flatMap fun e => g.readMsgs 30 e.1 e.2)
    let s : State := { s with m := m }
    if ¬ passed then s
    else
      let s := held.foldl (fun s e => (s.checkedRead 30 r e.1 e.2).2.2) s
      s.onM fun m =>
        let m := { m with disp := { m.disp with fetched := l :: m.disp.fetched } }
        if held.length < stretches.length then ((m.bump (pgLayer l) LAYER_UNMAPPED.COUNT).raise (pgLayer l) 8).report 30 589 else m

/-- The frame-store pixels of a band. -/
def State.paintBand (s : State) (b : Nat) : State :=
  let height := s.m.lv pgDisp DISP_V_ACT.ACTIVE
  let width := s.m.lv pgDisp DISP_H_ACT.ACTIVE
  let lines := ((List.range 16).map (16 * b + ·)).filter fun y => decide (y < height)
  let pixels := lines.foldl (fun st y => (List.range width).foldl (fun st x => st.set 0 (y * 4096 + x) (s.composePixel x y)) st)
    s.m.disp.pixels
  s.onM fun m => { m with disp := { m.disp with pixels := pixels } }

/-- The layer-pixels of a band. -/
def Module.bandPixels (m : Module) (b : Nat) : Nat :=
  ((m.layersIn b).map fun l => (m.linesIn l b).length * m.lv (pgLayer l) LAYER_SIZE.W).sum

/-- The composer gives up what it had begun of the first band. -/
def Module.restartBand (m : Module) : Module :=
  (List.range 8).foldl (fun (m : Module) l => { m with net.passed := m.net.passed.set 0 (5120 + l) 0 })
    { m with disp := { m.disp with fetched := [], work := none } }

/-- Bands are to be recomposed, in raster order. -/
def Module.queueBands (m : Module) (bands : List Nat) : Module :=
  if bands = [] then m
  else
    let m := m.restartBand
    let last := ceilDiv (m.lv pgDisp DISP_V_ACT.ACTIVE) 16
    { m with disp := { m.disp with
        todo := (List.range last).filter fun b => m.disp.todo.contains b || bands.contains b } }

/-- The composer at work on the first band: the fetches, then four layer-pixels in a tick (R325). -/
def State.composeTick (s : State) : State :=
  match s.m.disp.todo with
  | [] => s
  | b :: rest =>
    match s.m.disp.work with
    | some t =>
      if 4 * s.m.clk.ticks < t then s
      else s.onM fun m => { m with disp := { m.disp with todo := rest, fetched := [], work := none } }
    | none =>
      let ls := s.m.layersIn b
      let s := ls.foldl (fun s l => s.fetchLayer b l) s
      if ls.all s.m.disp.fetched.contains then
        (s.paintBand b).onM fun m => { m with disp := { m.disp with work := some (4 * m.clk.ticks + m.bandPixels b) } }
      else s

/-- A frame with nothing left to compose is composed. -/
def Module.noteComposed (m : Module) : Module :=
  if m.disp.todo = [] ∧ m.disp.asked = [] ∧ m.disp.aborted = false then
    m.wr pgDisp DISP_COMPOSED_FRAME.FRAME (m.rd pgDisp DISP_FRAME.FRAME)
  else m

/-- The composer takes the completion of a LOCK: a TILE layer of the engine has a newer buffer, and its bands are
recomposed (R318, R325). -/
def Module.lockTaken (m : Module) (e : Nat) (b : Option (Nat × Nat × Nat)) : Module :=
  let m := { m with disp := { m.disp with asked := m.disp.asked.filter fun k => k != e } }
  if m.disp.locks.get none e = b then m
  else
    let m := { m with disp := { m.disp with locks := m.disp.locks.set none e b, changed := true } }
    let ls := (List.range 8).filter fun l => m.lv (pgLayer l) LAYER_CFG.TYPE == 1 && m.lv (pgLayer l) LAYER_CFG.ENGINE == e
    let m := ls.foldl (fun m l => m.wr (pgLayer l) LAYER_SRC_SEQ.SEQUENCE ((b.map fun x => x.2.2).getD 0)) m
    if m.rasterRuns then m.queueBands (ls.flatMap m.bandsOf) else m

/-! ## Raster (R328, R329) -/

/-- The nominal refresh in mHz, and the lines of an extended frame (R329). -/
def Module.nominalRate (m : Module) : Nat :=
  m.lv pgDisp DISP_PCLK.KHZ * 1000000 / (m.lv pgDisp DISP_H_ACT.TOTAL * m.lv pgDisp DISP_V_ACT.TOTAL)
def Module.floorLines (m : Module) : Nat :=
  (roundAway (m.lv pgDisp DISP_PCLK.KHZ * 1000000 : Nat)
    (m.lv pgDisp DISP_H_ACT.TOTAL * m.lv pgDisp DISP_REFRESH.FLOOR)).toNat
def Module.floorRate (m : Module) : Nat :=
  m.lv pgDisp DISP_PCLK.KHZ * 1000000 / (m.lv pgDisp DISP_H_ACT.TOTAL * Nat.max 1 m.floorLines)

/-- A line, and the time since the last commit point, in ticks × kHz: a tick is half a nanosecond. -/
def Module.lineTime (m : Module) : Nat := 2000000 * Nat.max 1 (m.lv pgDisp DISP_H_ACT.TOTAL)
def Module.rasterTime (m : Module) : Nat := (m.clk.ticks - m.disp.vblank.getD 0) * m.lv pgDisp DISP_PCLK.KHZ

/-- The nominal and the extended blanking. -/
def Module.nominalBlank (m : Module) : Nat := (m.lv pgDisp DISP_V_ACT.TOTAL - m.lv pgDisp DISP_V_ACT.ACTIVE) * m.lineTime
def Module.floorBlank (m : Module) : Nat := (m.floorLines - m.lv pgDisp DISP_V_ACT.ACTIVE) * m.lineTime

/-- The raster is in the vertical blanking that follows a commit point. -/
def Module.inBlank (m : Module) : Bool := m.disp.vblank.isSome && decide (m.rasterTime < m.disp.blank)

/-- The raster line, active lines first, and whether it lies in the vertical blanking; before the first commit point 0. -/
def Module.rasterLine (m : Module) : Nat × Bool :=
  let act := m.lv pgDisp DISP_V_ACT.ACTIVE
  if !m.rasterRuns || m.disp.vblank.isNone then (0, false)
  else if m.inBlank then (Nat.min 8191 (act + m.rasterTime / m.lineTime), true)
  else (Nat.min (act - 1) ((m.rasterTime - m.disp.blank) / m.lineTime), false)

/-- The next commit point has come: blanking and active lines are over. The first one after the raster starts is free. -/
def Module.vblankDue (m : Module) : Bool :=
  m.disp.vblank.isNone || decide (m.disp.blank + m.lv pgDisp DISP_V_ACT.ACTIVE * m.lineTime ≤ m.rasterTime)

/-- The next frame-store line goes to the pixel island one line before the raster reaches it, once it is composed and the
budget takes it (R332, log entry 147). -/
def Module.sendLine (m : Module) : Module :=
  let y := m.disp.sent
  if m.disp.vblank.isSome ∧ m.disp.aborted = false ∧ y < m.lv pgDisp DISP_V_ACT.ACTIVE ∧ m.disp.asked = []
      ∧ ¬ m.disp.todo.contains (y / 16) ∧ m.disp.blank + y * m.lineTime ≤ m.rasterTime + m.lineTime then
    match m.charge m.dispAct [(35, units (4 * m.lv pgDisp DISP_H_ACT.ACTIVE))] with
    | (true, m) => { m with disp := { m.disp with sent := y + 1 } }
    | (false, m) => m
  else m

/-- A raster that has stopped: nothing of its last frame is left to do. -/
def Module.stopRaster (m : Module) : Module :=
  let m := m.restartBand
  { m.wr pgDisp DISP_LINE.EXTENDED 0 with disp := { m.disp with
      vblank := none, todo := [], asked := [], sent := 0, aborted := false, fetched := [], work := none } }

/-- What the composer does in a tick; nothing is fetched while the module is safe-stopped (R461). -/
def State.displayTick (s : State) : State :=
  if s.m.disp.vblank.isNone then s
  else if ¬ s.m.rasterRuns then s.onM Module.stopRaster
  else if s.m.safeAt 30 then s
  else s.composeTick.onM fun m => m.noteComposed.sendLine

/-- ADAPTIVE_EXTEND (R329): after STATIC_FRAMES static frames, the blanking lasts until the floor rate's frame time. -/
def execAdaptiveExtend (s : State) : Host.Outcome State Fault Refusal :=
  .next (if s.m.rasterRuns = true ∧ s.m.inBlank = true ∧ s.m.lv pgDisp DISP_LINK.ADAPTIVE_EN = 1 ∧ s.m.disp.changed = false
      ∧ s.m.rd pgDisp DISP_LINE.EXTENDED = 0 ∧ s.m.lv pgDisp DISP_REFRESH.STATIC_FRAMES ≤ s.m.disp.still then
    s.onM fun m =>
      let m := { m with disp := { m.disp with blank := m.floorBlank } }
      ((m.wr pgDisp DISP_LINE.EXTENDED 1).wr pgDisp DISP_RATE.MHZ (Nat.min 65535 m.floorRate)).raise pgDisp 12
  else s)

/-- The GO of a DISP or LAYER page ends an extended blanking: the active lines follow at the end of the nominal blanking, or
two line times after the GO if that is later (R329). -/
def Module.endExtension (m : Module) : Module :=
  if m.rd pgDisp DISP_LINE.EXTENDED = 1 ∧ m.inBlank = true then
    let m := { m with disp := { m.disp with blank := Nat.max m.nominalBlank (m.rasterTime + 2 * m.lineTime) } }
    (m.wr pgDisp DISP_LINE.EXTENDED 0).wr pgDisp DISP_RATE.MHZ (Nat.min 65535 m.nominalRate)
  else m

/-- UNDERRUN (R328): the raster has reached the next line that it has not been given; the frame is aborted. -/
def execUnderrun (line : Fin 8192) (s : State) : Host.Outcome State Fault Refusal :=
  .next (if s.m.rasterRuns = true ∧ s.m.disp.vblank.isSome ∧ s.m.safeAt 31 = false ∧ s.m.disp.aborted = false
      ∧ s.m.rasterLine.2 = false ∧ line.val ≤ s.m.rasterLine.1 ∧ s.m.disp.sent = line.val then
    s.onM fun m =>
      let m := m.restartBand
      let m := { m with disp := { m.disp with aborted := true, todo := [] } }
      let m := (m.bump pgDisp DISP_UNDERRUN.COUNT).wr pgDisp DISP_UNDERRUN.LINE line
      ((m.wr pgDisp DISP_UNDERRUN_FRAME.FRAME (m.rd pgDisp DISP_FRAME.FRAME)).raise pgDisp 9).report 30 589
  else s)

/-! ## DisplayPort (R330, R331) -/

/-- HPD_CHANGE: on connection the EDID is read; on removal the link is no longer trained. -/
def execHpdChange (connected : Bool) (edid : List Byte) (adaptive : Bool) (s : State) : Host.Outcome State Fault Refusal :=
  .next (if s.m.rd pgDisp DISP_LINK_STATUS.HPD = connected.toNat then s
    else
      s.onM fun m =>
        let m := (m.wr pgDisp DISP_LINK_STATUS.HPD connected.toNat).raise pgDisp 10
        if connected then
          let bytes := (((List.range 1024).zip edid).filter fun p => p.2 != 0).map fun p => (p.1, p.2.toNat)
          ({ m with disp := { m.disp with edid := bytes } }.wr pgDisp DISP_LINK_STATUS.SINK_ADAPTIVE adaptive.toNat).raise
            pgDisp 13
        else
          ((m.wr pgDisp DISP_LINK_STATUS.TRAINED 0).wr pgDisp DISP_LINK_STATUS.LANES 0).wr pgDisp DISP_LINK_STATUS.SINK_ADAPTIVE 0)

/-- IRQ_HPD: the source supports it; the spec gives it no effect on the registers (log entry 36). -/
def execIrqHpd (s : State) : Host.Outcome State Fault Refusal := .next s

/-- The rate of a lane in units of 10 Mb/s (R330). -/
def laneRate (code : Nat) : Nat := if code = 0 then 162 else if code = 1 then 270 else if code = 2 then 540 else 810

/-- 24 × PCLK exceeds 0.8 × lanes × rate (R331). -/
def linkShort (kHz lanes rate : Nat) : Bool := decide (8 * lanes * laneRate rate * 10000 < 240 * kHz)

/-- LINK_TRAINING (R331): the outcome of training, with fallback, within MAX_RATE and MAX_LANES. -/
def execLinkTraining (rate : Fin 4) (lanes : Fin 5) (s : State) : Host.Outcome State Fault Refusal :=
  .next (if s.m.rd pgDisp DISP_LINK_STATUS.HPD = 1 ∧ s.m.rasterRuns = true ∧ rate.val ≤ s.m.lv pgDisp DISP_LINK.MAX_RATE
      ∧ lanes.val ≤ s.m.lv pgDisp DISP_LINK.MAX_LANES ∧ lanes.val ≠ 3 then
    s.onM fun m =>
      let m := (m.bump pgDisp DISP_LINK_STATUS.TRAINS).wr pgDisp DISP_LINK_STATUS.TRAINED (lanes.val != 0).toNat
      let m := (m.wr pgDisp DISP_LINK_STATUS.RATE rate).wr pgDisp DISP_LINK_STATUS.LANES lanes
      if linkShort (m.lv pgDisp DISP_PCLK.KHZ) lanes rate then (m.raise pgDisp 11).report 31 590 else m
  else s)

/-! ## The commits of DISP and LAYER -/

/-- The checks of a DISP snapshot (R329, R331, R334). -/
def checkDisp (m : Module) (snap : Store Nat) : List Bad :=
  let g := fun (f : Fld) => snapGet snap pgDisp f
  let pclk := g DISP_PCLK.KHZ
  let ht := g DISP_H_ACT.TOTAL
  let vt := g DISP_V_ACT.TOTAL
  let ha := g DISP_H_ACT.ACTIVE
  let va := g DISP_V_ACT.ACTIVE
  let lanes := g DISP_LINK.MAX_LANES
  chk (pclk == 0) 0x040 1 ++ chk (pclk != 0 && outside 25000 600000 pclk) 0x040 2
  ++ chk ((lanes == 1 || lanes == 2 || lanes == 4) && linkShort pclk lanes (g DISP_LINK.MAX_RATE)) 0x040 0x81
  ++ chk (pclk != 0 && decide (pclk * 1000000 ≤ g DISP_REFRESH.FLOOR * (ht * vt))) 0x040 2
  ++ chk (ht == 0 || ha == 0) 0x044 1 ++ chk (ha != 0 && outside 64 3840 ha) 0x044 2
  ++ chk (ht != 0 && decide (ht < ha + g DISP_H_SYNC.START + g DISP_H_SYNC.WIDTH)) 0x044 4
  ++ chk (g DISP_H_SYNC.WIDTH == 0) 0x048 1
  ++ chk (vt == 0 || va == 0) 0x04C 1 ++ chk (va != 0 && outside 64 2160 va) 0x04C 2
  ++ chk (vt != 0 && decide (vt < va + g DISP_V_SYNC.START + g DISP_V_SYNC.WIDTH)) 0x04C 4
  ++ chk (g DISP_V_SYNC.WIDTH == 0) 0x050 1
  ++ chk (g DISP_REFRESH.STATIC_FRAMES == 0) 0x058 1 ++ chk (decide (g DISP_REFRESH.FLOOR < 1000)) 0x058 2
  ++ chk (lanes != 1 && lanes != 2 && lanes != 4) 0x05C 2
  ++ chk (g DISP_LINK.ADAPTIVE_EN == 1 && m.rd pgDisp DISP_LINK_STATUS.SINK_ADAPTIVE == 0) 0x05C 0x80

/-- The checks of a LAYER snapshot (R335). -/
def checkLayer (m : Module) (l : Nat) (snap : Store Nat) : List Bad :=
  let g := fun (f : Fld) => snapGet snap (pgLayer l) f
  let w := g LAYER_SIZE.W
  let h := g LAYER_SIZE.H
  let rgba := g LAYER_CFG.TYPE == 3
  let st := g LAYER_STRIDE.BYTES
  chk (decide (3 < g LAYER_CFG.TYPE)) 0x040 2
  ++ chk (rgba && st == 0) 0x040 1 ++ chk (rgba && st != 0 && (st % 64 != 0 || decide (st < 4 * w))) 0x040 2
  ++ chk (decide (m.lv pgDisp DISP_V_ACT.ACTIVE < g LAYER_POS.Y + h)) 0x044 2
  ++ chk (decide (m.lv pgDisp DISP_H_ACT.ACTIVE < g LAYER_POS.X + w)) 0x044 2
  ++ chk (w == 0 || h == 0) 0x048 1 ++ chk (g LAYER_BASE.OFFSET % 64 != 0) 0x04C 2
  ++ chk (g LAYER_CMAP.MODE == 1 && g LAYER_CMAP.SCALE == 0) 0x054 1
  ++ chk (g LAYER_WF_SCALE.STEP == 0) 0x058 1

/-- The effects of a DISP commit point: the page applies at a frame (R326). -/
def Module.appliedDisp (m : Module) : Module :=
  let m := m.wr pgDisp DISP_APPLIED_FRAME.FRAME (m.rd pgDisp DISP_FRAME.FRAME)
  let m := { m with disp := { m.disp with changed := true } }
  let m := if m.rasterRuns then m else m.stopRaster
  m.wr pgDisp DISP_RATE.MHZ (if m.lv pgDisp DISP_LINK.OUT_EN = 1 then Nat.min 65535 m.nominalRate else 0)

/-- The effects of a LAYER commit point (R327). -/
def Module.appliedLayer (m before : Module) (l : Nat) : Module :=
  let p := pgLayer l
  let m := { m with disp := { m.disp with changed := true } }
  if [LAYER_CFG.TYPE, LAYER_CFG.ENGINE, LAYER_CFG.REGION, LAYER_BASE.OFFSET].any fun f => m.lv p f != before.lv p f then
    m.wr p LAYER_RETIRE.FRAME ((m.rd pgDisp DISP_FRAME.FRAME + (2 ^ 32 - 1)) % 2 ^ 32)
  else m

end Sys2Proof.Machine
end

