-- ==== Sys2Proof/Machine/Deflate.lean ====
section
/-! DEFINITION. The compression method (R340–R344): one raw DEFLATE stream under RFC 1951 from the bytes of a job, as a
function of those bytes alone (R345). -/

namespace Sys2Proof.Machine

/-- A literal, or a match of a length at a distance. -/
inductive Token where
  | lit (b : Nat)
  | copy (len dist : Nat)
  deriving DecidableEq, Repr

/-! ## Matching (R341) -/

/-- h(p) (R341). -/
def hash4 (b : Array Nat) (p : Nat) : Nat :=
  (b.getD p 0 + 256 * b.getD (p + 1) 0 + 65536 * b.getD (p + 2) 0 + 16777216 * b.getD (p + 3) 0) * 0x9E3779B1 % 2 ^ 32 / 2 ^ 17

/-- The length of the match of the bytes at p with those at q, up to the fuel. -/
def matchLen (b : Array Nat) (p q : Nat) : Nat → Nat → Nat
  | 0, n => n
  | fuel + 1, n => if b.getD (p + n) 0 = b.getD (q + n) 0 then matchLen b p q fuel (n + 1) else n

/-- The longest match of at least 4 over the candidates, newest first; on equal lengths the smallest distance. -/
def bestMatch (b : Array Nat) (p limit : Nat) (cands : List Nat) : Option (Nat × Nat) :=
  cands.foldl (fun best q =>
    let n := matchLen b p q limit 0
    if n < 4 ∨ 32768 < p - q then best
    else
      match best with
      | some (m, d) => if m < n then some (n, p - q) else some (m, d)
      | none => some (n, p - q)) none

/-- Insert position p into its chain, which keeps the 8 most recent, when p + 3 lies in the job. -/
def insertPos (b : Array Nat) (chains : Store (List Nat)) (p : Nat) : Store (List Nat) :=
  if p + 3 < b.size then chains.insert (hash4 b p) ((p :: chains.get [] (hash4 b p)).take 8) else chains

/-- The tokens of the block that ends at `stop`, from p on, newest first, and the chains past it. -/
def tokenise (b : Array Nat) (stop : Nat) : Nat → Nat → Store (List Nat) → List Token → List Token × Store (List Nat)
  | 0, _, chains, out => (out, chains)
  | fuel + 1, p, chains, out =>
    if stop ≤ p then (out, chains)
    else
      let found := if stop < p + 4 then none else bestMatch b p (Nat.min 258 (stop - p)) (chains.get [] (hash4 b p))
      match found with
      | some (n, d) =>
        tokenise b stop fuel (p + n) ((List.range n).foldl (fun c i => insertPos b c (p + i)) chains) (.copy n d :: out)
      | none => tokenise b stop fuel (p + 1) (insertPos b chains p) (.lit (b.getD p 0) :: out)

/-! ## Symbols of RFC 1951: symbol, number of extra bits, extra value -/

def lengthSym (n : Nat) : Nat × Nat × Nat :=
  if n = 258 then (285, 0, 0)
  else if n ≤ 10 then (254 + n, 0, 0)
  else
    let k := n - 3
    let e := Nat.log2 k - 2
    (257 + 4 * (e + 1) + k / 2 ^ e - 4, e, k % 2 ^ e)

def distSym (d : Nat) : Nat × Nat × Nat :=
  let k := d - 1
  if k < 4 then (k, 0, 0)
  else
    let e := Nat.log2 k - 1
    (2 * (e + 1) + k / 2 ^ e - 2, e, k % 2 ^ e)

/-- Symbol counts: literal and length symbols with 256 once (R341), and distance symbols. -/
def bumpSym (h : Store Nat) (s : Nat) : Store Nat := h.insert s (h.get 0 s + 1)
def histogram (l : List Token) : Store Nat × Store Nat :=
  l.foldl (fun h t => match t with
    | .lit b => (bumpSym h.1 b, h.2)
    | .copy n d => (bumpSym h.1 (lengthSym n).1, bumpSym h.2 (distSym d).1)) ([(256, 1)], [])

/-! ## Package-merge (R342) -/

/-- A leaf or a package: its weight and the leaves in it. -/
structure Pack where
  weight : Nat
  syms   : List Nat
  deriving DecidableEq, Repr

/-- Insert a leaf by weight, after the leaves of lower or equal weight: symbols come in rising order. -/
def insertLeaf (x : Pack) : List Pack → List Pack
  | [] => [x]
  | y :: l => if x.weight < y.weight then x :: y :: l else y :: insertLeaf x l

/-- Pair up consecutive items. -/
def pairUp : List Pack → List Pack
  | x :: y :: l => ⟨x.weight + y.weight, x.syms ++ y.syms⟩ :: pairUp l
  | _ => []

/-- Merge leaves and packages by weight; of equal weight the leaf first (DEDUCED, log entry 37). -/
def mergePacks : Nat → List Pack → List Pack → List Pack
  | 0, _, _ => []
  | _ + 1, [], ps => ps
  | _ + 1, ls, [] => ls
  | fuel + 1, x :: ls, p :: ps =>
    if x.weight ≤ p.weight then x :: mergePacks fuel ls (p :: ps) else p :: mergePacks fuel (x :: ls) ps

def packRounds (leaves : List Pack) : Nat → List Pack → List Pack
  | 0, l => l
  | n + 1, l =>
    let ps := pairUp l
    packRounds leaves n (mergePacks (leaves.length + ps.length + 1) leaves ps)

/-- Code lengths of at most `limit` bits for the counts of an alphabet of `size` symbols. -/
def codeLengths (size limit : Nat) (counts : Store Nat) : List Nat :=
  let leaves := counts.foldl (fun l p => insertLeaf ⟨p.2, [p.1]⟩ l) []
  match counts with
  | [] => List.replicate size 0
  | [(s, _)] => (List.range size).map fun i => if i = s then 1 else 0
  | _ =>
    let taken := ((packRounds leaves (limit - 1) leaves).take (2 * (leaves.length - 1))).flatMap Pack.syms
    let len := taken.foldl (fun (h : Store Nat) s => bumpSym h s) []
    (List.range size).map fun i => len.get 0 i

/-! ## Canonical codes and bits -/

/-- Bits in order of sending: value and width, least significant bit first. -/
abbrev Bits := List (Nat × Nat)

/-- The bits of a number in reverse: Huffman codes are sent most significant bit first. -/
def reverseBits : Nat → Nat → Nat
  | 0, _ => 0
  | n + 1, v => v % 2 * 2 ^ n + reverseBits n (v / 2)

/-- The first code of each length 0, 1, …, 15. -/
def firstCodes (lens : List Nat) : List Nat :=
  ((List.range 16).foldl (fun (acc : List Nat × Nat) n =>
    let start := if n = 0 then 0 else (acc.2 + (if n = 1 then 0 else (lens.filter fun l => l == n - 1).length)) * 2
    (acc.1 ++ [start], start)) ([], 0)).1

/-- The code of every symbol as it is sent: value and width (RFC 1951, canonical). -/
def canonical (lens : List Nat) : Array (Nat × Nat) :=
  (lens.foldl (fun (acc : Array (Nat × Nat) × Array Nat) n =>
    if n = 0 then (acc.1.push (0, 0), acc.2)
    else (acc.1.push (reverseBits n (acc.2.getD n 0), n), acc.2.setIfInBounds n (acc.2.getD n 0 + 1)))
    (#[], (firstCodes lens).toArray)).1

/-- The number of bits. -/
def bitCount (b : Bits) : Nat := (b.map Prod.snd).sum

/-- Pack bits into bytes; the last byte is filled up with zeros (R340). -/
def drainBits : Nat → Nat → Nat → List Nat → Nat × Nat × List Nat
  | 0, acc, n, out => (acc, n, out)
  | fuel + 1, acc, n, out => if 8 ≤ n then drainBits fuel (acc / 256) (n - 8) (acc % 256 :: out) else (acc, n, out)
def packBits (b : Bits) : List Byte :=
  let (acc, n, out) := b.foldl (fun (st : Nat × Nat × List Nat) p =>
    drainBits (p.2 / 8 + 1) (st.1 + p.1 % 2 ^ p.2 * 2 ^ st.2.1) (st.2.1 + p.2) st.2.2) (0, 0, [])
  ((if n = 0 then out else acc % 256 :: out).reverse).map (BitVec.ofNat 8)

/-! ## The dynamic block (R342) -/

/-- Runs of equal lengths: value and count. -/
def runsOf : List Nat → List (Nat × Nat)
  | [] => []
  | x :: l =>
    match runsOf l with
    | (y, n) :: r => if x = y then (y, n + 1) :: r else (x, 1) :: (y, n) :: r
    | [] => [(x, 1)]

/-- A run of zeros, the longest code first: symbol, extra bits, extra value. -/
def zeroRun : Nat → Nat → List (Nat × Nat × Nat)
  | 0, _ => []
  | fuel + 1, n =>
    if 11 ≤ n then (18, 7, Nat.min n 138 - 11) :: zeroRun fuel (n - Nat.min n 138)
    else if 3 ≤ n then [(17, 3, n - 3)]
    else List.replicate n (0, 0, 0)

/-- Repeats of a non-zero length after it has been sent once. -/
def repeatRun (x : Nat) : Nat → Nat → List (Nat × Nat × Nat)
  | 0, _ => []
  | fuel + 1, n =>
    if 3 ≤ n then (16, 2, Nat.min n 6 - 3) :: repeatRun x fuel (n - Nat.min n 6) else List.replicate n (x, 0, 0)

/-- The run-length coding of the concatenated lengths. -/
def codeLengthSyms (lens : List Nat) : List (Nat × Nat × Nat) :=
  (runsOf lens).flatMap fun r =>
    if r.1 = 0 then zeroRun (r.2 + 1) r.2 else (r.1, 0, 0) :: repeatRun r.1 r.2 (r.2 - 1)

/-- The order of the code-length code lengths (RFC 1951). -/
def clOrder : List Nat := [16, 17, 18, 0, 8, 7, 9, 6, 10, 5, 11, 4, 12, 3, 13, 2, 14, 1, 15]

/-- A list without its trailing zeros, but not shorter than `least`. -/
def trimZeros (least : Nat) (l : List Nat) : List Nat :=
  let t := (l.reverse.dropWhile fun n => n == 0).reverse
  t ++ List.replicate (least - t.length) 0

/-- The dynamic Huffman block of a token list. -/
def dynamicBlock (final : Bool) (tokens : List Token) : Bits :=
  let (lit, dist) := histogram tokens
  let ll := trimZeros 257 (codeLengths 286 15 lit)
  let dl := trimZeros 1 (codeLengths 30 15 (if dist = [] then [(0, 1)] else dist))
  let syms := codeLengthSyms (ll ++ dl)
  let cl := codeLengths 19 7 (syms.foldl (fun (h : Store Nat) s => bumpSym h s.1) [])
  let clSent := trimZeros 4 (clOrder.map fun i => cl.getD i 0)
  let clCode := canonical cl
  let litCode := canonical ll
  let distCode := canonical dl
  let put := fun (code : Array (Nat × Nat)) (s : Nat × Nat × Nat) => [code.getD s.1 (0, 0), (s.2.2, s.2.1)]
  [(final.toNat, 1), (2, 2), (ll.length - 257, 5), (dl.length - 1, 5), (clSent.length - 4, 4)]
    ++ clSent.map (fun n => (n, 3)) ++ syms.flatMap (put clCode)
    ++ tokens.flatMap (fun t => match t with
      | .lit b => [litCode.getD b (0, 0)]
      | .copy n d => put litCode (lengthSym n) ++ put distCode (distSym d))
    ++ [litCode.getD 256 (0, 0)]

/-! ## Stored blocks (R343) -/

/-- The stored form of the bytes lo .. lo + n - 1 from a bit position on: one of up to 65,535 bytes, and one of the
remaining byte. -/
def storedBlock (b : Array Nat) (final : Bool) (pos lo n : Nat) : Bits :=
  let piece := fun (last : Bool) (pos lo n : Nat) =>
    [(last.toNat, 1), (0, 2), (0, (8 - (pos + 3) % 8) % 8), (n, 16), (65535 - n, 16)]
      ++ (List.range n).map fun i => (b.getD (lo + i) 0, 8)
  if n ≤ 65535 then piece final pos lo n
  else
    let first := piece false pos lo 65535
    first ++ piece final (pos + bitCount first) (lo + 65535) (n - 65535)

/-! ## A job -/

/-- What a job produces: the payload, the blocks, and how many of them were stored. -/
structure Deflated where
  payload : List Byte
  blocks  : Nat
  stored  : Nat
  deriving DecidableEq, Repr

/-- The blocks of 65,536 bytes from `lo` on (R341, R343): bits as runs, newest first. -/
def deflateBlocks (b : Array Nat) : Nat → Nat → Nat → Store (List Nat) → List Bits → Nat → List Bits × Nat
  | 0, _, _, _, out, stored => (out, stored)
  | fuel + 1, lo, pos, chains, out, stored =>
    if b.size ≤ lo then (out, stored)
    else
      let stop := Nat.min (lo + 65536) b.size
      let final := stop == b.size
      let (rev, chains) := tokenise b stop (stop - lo) lo chains []
      let dyn := dynamicBlock final rev.reverse
      let raw := storedBlock b final pos lo (stop - lo)
      if bitCount dyn < bitCount raw then deflateBlocks b fuel stop (pos + bitCount dyn) chains (dyn :: out) stored
      else deflateBlocks b fuel stop (pos + bitCount raw) chains (raw :: out) (stored + 1)

/-- What the first n blocks of a job of `len` bytes have given, from the bytes read so far: whole 64-bit words of the payload
(R346), or all of it with the last block; and how many blocks were stored. -/
def deflatePart (input : List Byte) (len n : Nat) : Deflated :=
  let b := (input.map BitVec.toNat ++ List.replicate (len - input.length) 0).toArray
  let (out, stored) := deflateBlocks b n 0 0 [] [] 0
  let bits := out.reverse.flatten
  ⟨if n = ceilDiv len 65536 then packBits bits else (packBits bits).take (bitCount bits / 64 * 8), n, stored⟩

/-- The payload of a job's input (R340). -/
def deflate (input : List Byte) : Deflated :=
  let b := (input.map BitVec.toNat).toArray
  let n := ceilDiv b.size 65536
  let (out, stored) := deflateBlocks b n 0 0 [] [] 0
  ⟨packBits out.reverse.flatten, n, stored⟩

end Sys2Proof.Machine
end

