-- ==== Sys2Proof/Machine/Inflate.lean ====
section
/-! DEFINITION. The decompressor's decoder (R353–R356): raw DEFLATE, zlib and gzip input, with the first fault named. -/

namespace Sys2Proof.Machine

/-- A fault of R354: its code, its DETAIL, and IN_BIT. -/
structure DecErr where
  code   : Nat
  detail : Nat
  inBit  : Nat
  deriving DecidableEq, Repr

/-- The decoder: the source bytes, the bit position, and the bytes output. -/
structure Dec where
  src : Array Nat
  pos : Nat
  out : Array Nat
  deriving Repr

/-- The outcome of a part of the decoding: the decoder as it stands, with a fault or with a value. -/
structure DecRes (α : Type) where
  dec : Dec
  val : Sum DecErr α

def Dec.fail {α : Type} (d : Dec) (code detail inBit : Nat) : DecRes α := ⟨d, .inl ⟨code, detail, inBit⟩⟩
def Dec.ok {α : Type} (d : Dec) (a : α) : DecRes α := ⟨d, .inr a⟩

/-- Go on with the value, or stop at the fault. -/
def DecRes.next {α β : Type} (r : DecRes α) (f : Dec → α → DecRes β) : DecRes β :=
  match r.val with
  | .inr a => f r.dec a
  | .inl e => ⟨r.dec, .inl e⟩

/-- SRC_LEN × 8. -/
def Dec.total (d : Dec) : Nat := 8 * d.src.size

/-- Bit i of the source. -/
def Dec.bitAt (d : Dec) (i : Nat) : Nat := d.src.getD (i / 8) 0 / 2 ^ (i % 8) % 2

/-- Read n bits, least significant first; TRUNCATED_INPUT when the source ends before them. -/
def Dec.bits (d : Dec) (n : Nat) : DecRes Nat :=
  if d.total < d.pos + n then d.fail 8 0 d.total
  else { d with pos := d.pos + n }.ok (((List.range n).map fun i => d.bitAt (d.pos + i) * 2 ^ i).sum)

/-! ## Huffman codes -/

/-- A code: the codes of each length, and the symbols in canonical order. -/
structure Huff where
  count : Array Nat
  syms  : Array Nat
  longest : Nat
  deriving Repr

def Huff.of (lens : List Nat) : Huff := {
  count := ((List.range 16).map fun n => if n = 0 then 0 else (lens.filter fun l => l == n).length).toArray
  syms := ((List.range 16).flatMap fun n =>
    if n = 0 then [] else (((List.range lens.length).zip lens).filter fun p => p.2 == n).map Prod.fst).toArray
  longest := lens.foldl Nat.max 0 }

/-- Decode one symbol, most significant bit of the code first; none for a bit pattern outside the code. -/
def Huff.decodeFrom (h : Huff) (d : Dec) (code first index : Nat) : Nat → Nat → DecRes (Option Nat)
  | 0, _ => d.ok none
  | fuel + 1, len =>
    (d.bits 1).next fun d b =>
      let code := code * 2 + b
      let first := first * 2
      let n := h.count.getD len 0
      if code < first + n then d.ok (some (h.syms.getD (index + (code - first)) 0))
      else h.decodeFrom d code (first + n) (index + n) fuel (len + 1)

def Huff.decode (h : Huff) (d : Dec) : DecRes (Option Nat) := h.decodeFrom d 0 0 0 h.longest 1

/-- The share of the code space that lengths take, of 2^15. -/
def kraft (lens : List Nat) : Nat := (lens.map fun n => if n = 0 then 0 else 2 ^ (15 - n)).sum

/-! ## Blocks -/

/-- Output one byte; LENGTH_OVERRUN when it would be output byte OUT_LEN. -/
def Dec.emit (d : Dec) (outLen b inBit : Nat) : DecRes Unit :=
  if outLen ≤ d.out.size then d.fail 7 0 inBit else { d with out := d.out.push b }.ok ()

/-- Copy a match byte by byte. -/
def Dec.copyMatch (d : Dec) (outLen dist inBit : Nat) : Nat → DecRes Unit
  | 0 => d.ok ()
  | n + 1 => (d.emit outLen (d.out.getD (d.out.size - dist) 0) inBit).next fun d _ => d.copyMatch outLen dist inBit n

/-- The base of a length or distance symbol and its extra bits (RFC 1951). -/
def lengthBase (s : Nat) : Nat × Nat :=
  if s = 285 then (258, 0)
  else if s < 265 then (s - 254, 0)
  else
    let e := (s - 261) / 4
    (3 + (4 + (s - 261) % 4) * 2 ^ e, e)
def distBase (s : Nat) : Nat × Nat :=
  if s < 4 then (s + 1, 0)
  else
    let e := s / 2 - 1
    (1 + (2 + s % 2) * 2 ^ e, e)

/-- The symbols of a compressed block up to its end. -/
def Dec.symbols (lit dist : Huff) (outLen : Nat) : Nat → Dec → DecRes Unit
  | 0, d => d.fail 8 0 d.total
  | fuel + 1, d =>
    let at0 := d.pos
    (lit.decode d).next fun d s =>
      match s with
      | none => d.fail 4 0 at0
      | some s =>
        if s < 256 then (d.emit outLen s at0).next fun d _ => symbols lit dist outLen fuel d
        else if s = 256 then d.ok ()
        else if 286 ≤ s then d.fail 4 0 at0
        else
          let (base, e) := lengthBase s
          (d.bits e).next fun d x =>
            let at1 := d.pos
            (dist.decode d).next fun d t =>
              match t with
              | none => d.fail 5 0 at1
              | some t =>
                if 30 ≤ t then d.fail 5 0 at1
                else
                  let (dbase, de) := distBase t
                  (d.bits de).next fun d y =>
                    if d.out.size < dbase + y then d.fail 6 0 at1
                    else (d.copyMatch outLen (dbase + y) at0 (base + x)).next fun d _ => symbols lit dist outLen fuel d

/-- The fixed codes of RFC 1951. -/
def fixedLit : List Nat := List.replicate 144 8 ++ List.replicate 112 9 ++ List.replicate 24 7 ++ List.replicate 8 8
def fixedDist : List Nat := List.replicate 32 5

/-- Stored bytes. -/
def Dec.storedBytes (outLen : Nat) : Nat → Dec → DecRes Unit
  | 0, d => d.ok ()
  | n + 1, d =>
    let at0 := d.pos
    (d.bits 8).next fun d b => (d.emit outLen b at0).next fun d _ => storedBytes outLen n d

/-- A stored block from its LEN on. -/
def Dec.stored (d : Dec) (outLen : Nat) : DecRes Unit :=
  let d := { d with pos := nextMultiple d.pos 8 }
  let at0 := d.pos
  (d.bits 16).next fun d len => (d.bits 16).next fun d nlen =>
    if nlen ≠ 65535 - len then d.fail 2 0 at0 else d.storedBytes outLen len

/-- The code lengths of the code-length code; the length that oversubscribes it is at fault. -/
def Dec.clLengths : List Nat → Nat → Dec → Store Nat → Nat → DecRes (Store Nat)
  | [], last, d, acc, _ =>
    if kraft (acc.map Prod.snd) < 2 ^ 15 then d.fail 3 0 last else d.ok acc
  | i :: order, _, d, acc, total =>
    let at0 := d.pos
    (d.bits 3).next fun d n =>
      let acc := if n = 0 then acc else acc.insert i n
      let total := total + if n = 0 then 0 else 2 ^ (15 - n)
      if 2 ^ 15 < total then d.fail 3 0 at0 else clLengths order at0 d acc total

/-- The checks on a code whose lengths end with the symbol that has just been read: oversubscribed codes, and incomplete
ones but for a single distance code of length 1 (R353). -/
def badCode (lens : List Nat) (whole dist : Bool) : Bool :=
  decide (2 ^ 15 < kraft lens)
  || (whole && decide (kraft lens < 2 ^ 15) && !(dist && (lens.filter fun n => n != 0) == [1]))

/-- The literal/length and distance code lengths, coded with the code-length code (newest last). Every length or run is
checked as it arrives (R354): `hlit` literal/length ones, then the distance ones up to `total`. -/
def Dec.lengths (cl : Huff) (hlit total : Nat) : Nat → Dec → List Nat → DecRes (List Nat)
  | 0, d, acc => d.ok acc
  | fuel + 1, d, acc =>
    if total ≤ acc.length then d.ok acc
    else
      let at0 := d.pos
      (cl.decode d).next fun d s =>
        let extra := fun (s : Nat) => if s = 16 then (2, 3) else if s = 17 then (3, 3) else if s = 18 then (7, 11) else (0, 1)
        match s with
        | none => d.fail 3 0 at0
        | some s =>
          if s = 16 ∧ acc = [] then d.fail 3 0 at0
          else
            (d.bits (extra s).1).next fun d x =>
              let n := (extra s).2 + x
              let v := if s < 16 then s else if s = 16 then acc.getLastD 0 else 0
              let acc' := acc ++ List.replicate n v
              let ll := acc'.take hlit
              let dl := acc'.drop hlit
              if total < acc'.length then d.fail 3 0 at0
              else if badCode ll (decide (hlit ≤ acc'.length) && decide (acc.length < hlit)) false then d.fail 3 0 at0
              else if 256 < acc'.length ∧ acc'.getD 256 0 = 0 then d.fail 3 0 at0
              else if badCode dl (acc'.length == total) true then d.fail 3 0 at0
              else lengths cl hlit total fuel d acc'

/-- A dynamic block from its HLIT field on. -/
def Dec.dynamic (d : Dec) (outLen : Nat) : DecRes Unit :=
  let at0 := d.pos
  (d.bits 5).next fun d a => (d.bits 5).next fun d b => (d.bits 4).next fun d c =>
    let hlit := a + 257
    let hdist := b + 1
    if 286 < hlit ∨ 30 < hdist then d.fail 3 0 at0
    else
      (Dec.clLengths (clOrder.take (c + 4)) d.pos d [] 0).next fun d cl =>
        let code := Huff.of ((List.range 19).map fun i => cl.get 0 i)
        (Dec.lengths code hlit (hlit + hdist) (hlit + hdist) d []).next fun d l =>
          Dec.symbols (Huff.of (l.take hlit)) (Huff.of (l.drop hlit)) outLen (d.total + 1) d

/-- The blocks up to the last one. -/
def Dec.blocks (outLen : Nat) : Nat → Dec → DecRes Unit
  | 0, d => d.fail 8 0 d.total
  | fuel + 1, d =>
    (d.bits 1).next fun d final =>
      let at0 := d.pos
      (d.bits 2).next fun d kind =>
        let r := match kind with
          | 0 => d.stored outLen
          | 1 => Dec.symbols (Huff.of fixedLit) (Huff.of fixedDist) outLen (d.total + 1) d
          | 2 => d.dynamic outLen
          | _ => d.fail 1 0 at0
        r.next fun d _ => if final = 1 then d.ok () else blocks outLen fuel d

/-! ## Wrappers (R353) -/

/-- CRC-32 of RFC 1952, one bit and one byte at a time. -/
def crc32Bits : Nat → Nat → Nat
  | 0, c => c
  | n + 1, c => crc32Bits n (if c % 2 = 1 then c / 2 ^^^ 0xEDB88320 else c / 2)
def crc32 (l : List Nat) : Nat := l.foldl (fun c b => crc32Bits 8 (c ^^^ b)) 0xFFFFFFFF ^^^ 0xFFFFFFFF

/-- Adler-32 of RFC 1950. -/
def adler32 (l : List Nat) : Nat :=
  let (a, b) := l.foldl (fun (s : Nat × Nat) x => ((s.1 + x) % 65521, (s.2 + s.1 + x) % 65521)) (1, 0)
  b * 65536 + a

/-- A byte of a wrapper that must satisfy a condition; its fault is INVALID_BLOCK_TYPE with DETAIL WRAPPER_HEADER. -/
def Dec.headerByte (d : Dec) (good : Nat → Bool) : DecRes Nat :=
  let at0 := d.pos
  (d.bits 8).next fun d b => if good b then d.ok b else d.fail 1 1 at0

/-- The zlib header (RFC 1950) without FDICT. -/
def Dec.zlibHeader (d : Dec) : DecRes Unit :=
  (d.headerByte fun b => b % 16 == 8 && decide (b / 16 ≤ 7)).next fun d cmf =>
    let at0 := d.pos
    (d.bits 8).next fun d flg =>
      if (cmf * 256 + flg) % 31 ≠ 0 then d.fail 9 1 at0
      else if bit flg 5 then d.fail 1 1 at0
      else d.ok ()

/-- Skip bytes up to and with a zero byte. -/
def Dec.skipString : Nat → Dec → DecRes Unit
  | 0, d => d.fail 8 0 d.total
  | fuel + 1, d => (d.bits 8).next fun d b => if b = 0 then d.ok () else skipString fuel d

/-- Skip a number of bytes. -/
def Dec.skip (d : Dec) (n : Nat) : DecRes Unit :=
  if d.total < d.pos + 8 * n then d.fail 8 0 d.total else { d with pos := d.pos + 8 * n }.ok ()

/-- The gzip header (RFC 1952): FEXTRA, FNAME and FCOMMENT are skipped, FHCRC is checked. -/
def Dec.gzipHeader (d : Dec) : DecRes Unit :=
  (d.headerByte fun b => b == 0x1F).next fun d _ => (d.headerByte fun b => b == 0x8B).next fun d _ =>
    (d.headerByte fun b => b == 8).next fun d _ => (d.headerByte fun b => decide (b < 32)).next fun d flg =>
      (d.skip 6).next fun d _ =>
        (if bit flg 2 then (d.bits 16).next fun d n => d.skip n else d.ok ()).next fun d _ =>
          (if bit flg 3 then d.skipString (d.src.size + 1) else d.ok ()).next fun d _ =>
            (if bit flg 4 then d.skipString (d.src.size + 1) else d.ok ()).next fun d _ =>
              if bit flg 1 then
                let at0 := d.pos
                (d.bits 16).next fun d c =>
                  if c = crc32 (d.src.toList.take (at0 / 8)) % 65536 then d.ok () else d.fail 9 5 at0
              else d.ok ()

/-- A trailer field of 32 bits that must hold a value. -/
def Dec.trailer (d : Dec) (read : Nat → Nat) (want detail : Nat) : DecRes Unit :=
  let at0 := d.pos
  (d.bits 32).next fun d v => if read v = want then d.ok () else d.fail 9 detail at0

/-- The bytes of a 32-bit number in reverse: ADLER32 is sent most significant byte first. -/
def swapBytes (v : Nat) : Nat := v % 256 * 2 ^ 24 + v / 256 % 256 * 2 ^ 16 + v / 65536 % 256 * 256 + v / 16777216 % 256

/-- The whole decoding of a job: WRAP 0 RAW, 1 ZLIB, 2 GZIP, and the expected CRC-32C, if any. -/
def Dec.run (d : Dec) (wrap outLen : Nat) (check : Option Nat) : DecRes Unit :=
  let body := (if wrap = 1 then d.zlibHeader else if wrap = 2 then d.gzipHeader else d.ok ()).next fun d _ =>
    Dec.blocks outLen (d.total + 1) d
  let whole := body.next fun d _ =>
    if wrap = 0 then d.ok ()
    else
      let d := { d with pos := nextMultiple d.pos 8 }
      if wrap = 1 then d.trailer swapBytes (adler32 d.out.toList) 2
      else (d.trailer id (crc32 d.out.toList) 3).next fun d _ => d.trailer id (d.out.size % 2 ^ 32) 4
  whole.next fun d _ =>
    match check with
    | some c => if crc32c (d.out.toList.map (BitVec.ofNat 8)) = c then d.ok () else d.fail 9 6 d.total
    | none => d.ok ()

/-- What a decompression reports (R354–R356): RESULT, DETAIL, SHORT, IN_BIT, TRAILING and the output. -/
structure Inflated where
  result   : Nat
  detail   : Nat
  short    : Bool
  inBit    : Nat
  trailing : Nat
  output   : List Byte
  deriving DecidableEq, Repr

def inflate (src : List Byte) (wrap outLen : Nat) (check : Option Nat) : Inflated :=
  let r := Dec.run ⟨(src.map BitVec.toNat).toArray, 0, #[]⟩ wrap outLen check
  let out := r.dec.out.toList.map (BitVec.ofNat 8)
  let short := decide (out.length < outLen)
  match r.val with
  | .inr _ => ⟨0, 0, short, r.dec.pos, src.length - ceilDiv r.dec.pos 8, out⟩
  | .inl e =>
    ⟨e.code, e.detail, short && e.code == 9 && e.detail != 1 && e.detail != 5, e.inBit,
      if e.code = 9 ∧ e.detail ≠ 1 ∧ e.detail ≠ 5 then src.length - ceilDiv r.dec.pos 8 else 0, out⟩

/-- What the bytes of a source of `len` bytes read so far give: the outcome, once the decoding has ended, and the output. A
decoder whose input runs empty suspends (R357). -/
def inflatePart (src : List Byte) (len wrap outLen : Nat) (check : Option Nat) : Option Inflated × List Byte :=
  let o := inflate src wrap outLen check
  if o.result = 8 ∧ src.length < len then (none, o.output)
  else
    (some { o with
      inBit := if o.result = 9 ∧ o.detail = 6 then 8 * len else o.inBit
      trailing := if o.result = 0 ∨ (o.result = 9 ∧ o.detail ≠ 1 ∧ o.detail ≠ 5) then o.trailing + (len - src.length) else 0 },
      o.output)

end Sys2Proof.Machine
end

