-- ==== Sys2Proof/Machine/Lanes.lean ====
section
/-! DEFINITION. The compressor's 32 lanes and the decompressor's 8 (spec/11): submission, queues, jobs, stalls, completions
and lane sparing. -/

namespace Sys2Proof.Machine

/-- The island of the lane group that serves a logical lane. -/
def Module.laneIsland (m : Module) (l : Nat) : Nat := 45 + laneGroup (m.lane l).phys

def Module.cmpAct (m : Module) : Nat := m.lv pgCmp ACTIVITY_ID.ACTIVITY
def Module.dcmAct (m : Module) : Nat := m.lv pgDcm ACTIVITY_ID.ACTIVITY

/-! ## Completions (R339) -/

/-- A result reaches the FIFO of the CMP page, or is discarded at a full one (R359). -/
def Module.cmpResult (m : Module) (lane status : Nat) (r : LaneRun) : Module :=
  let c := m.codec
  let m := { m with codec.seq := c.seq + 1 }
  if 64 ≤ c.results.length then (m.bump pgCmp CMP_RES_STATUS.OVERFLOW).raise pgCmp 9
  else ({ m with codec.results := c.results ++ [⟨c.seq % 65536, lane, status, r.job.tag, r⟩] } : Module).raise pgCmp 8

/-- The completion of a job: to the stream engine, or to the page. -/
def Module.jobDone (m : Module) (l status : Nat) (r : LaneRun) : Module :=
  let m := m.bump pgCmp CMP_LANE_JOBS.JOBS 1 l
  if r.job.stream then m.postMgt (m.laneIsland l) 24 .cpl (.jobDone l r.job.tag status) else m.cmpResult l status r

/-- A job that made nothing. -/
def LaneRun.none_ (j : Job) : LaneRun := ⟨j, [], 0, [], 0, 0, 0, 0, 0, none, false⟩

/-! ## Running a job (R341, R346–R349)

A running lane works in every tick: it reads its source into free space of its input buffer, a piece at a time, consumes it,
and sends payload. -/

/-- The first offset of a source whose unit carries POISON (R348). -/
def firstPoison (h : Hbm) (g : Region) (ofs len : Nat) : Option Nat :=
  ((List.range (ceilDiv (ofs % 32 + len) 32)).find? fun i => poisoned h g (ofs / 32 * 32 + 32 * i) 1).map fun i =>
    32 * i - ofs % 32

/-- The bytes of the next source read: up to the end of a 4,096-byte chunk. -/
def nextPiece (ofs have_ len : Nat) : Nat := Nat.min (4096 - (ofs + have_) % 4096) (len - have_)

def Module.setJob (m : Module) (l : Nat) (r : LaneRun) : Module := m.setLane l { m.lane l with run := some r }

/-- One source read, if the 64 KiB input buffer has room and the budget takes it. -/
def State.laneRead (s : State) (l : Nat) (r : LaneRun) : State :=
  let j := r.job
  let have_ := r.data.length
  let n := nextPiece j.ofs have_ j.len
  if n = 0 ∨ 65536 < have_ - r.used + n then s
  else
    let isl := s.m.laneIsland l
    let g := s.m.region j.region
    match s.m.charge j.act (((g.readMsgs isl (j.ofs + have_) n).flatten) ++ [(isl + 29, units n)]) with
    | (false, m) => { s with m := m }
    | (true, m) =>
      let at_ := firstPoison s.hbm g (j.ofs + have_) n
      let (d, bad, s) := ({ s with m := m } : State).checkedRead isl j.region (j.ofs + have_) n
      s.onM fun m => m.setJob l { r with
        data := r.data ++ d, unmapped := r.unmapped || !g.holds (j.ofs + have_) n
        poison := if r.poison.isSome ∨ bad = false then r.poison else some (have_ + at_.getD 0) }

/-- Consume two bytes, the share of a tick of 4 bytes per cycle; a block that ends is encoded. -/
def LaneRun.consume (r : LaneRun) : LaneRun :=
  let len := r.job.len
  let used := Nat.min r.data.length (r.used + 2)
  let n := if used = len then ceilDiv len 65536 else used / 65536
  if n = r.blocks then { r with used := used }
  else
    let d := deflatePart r.data len n
    { r with used := used, payload := d.payload, blocks := n, stored := d.stored
             rawCrc := if used = len then crc32c r.data else 0, payCrc := if used = len then crc32c d.payload else 0 }

/-- The bytes of the next payload write, and what it is charged at its destination (R349). -/
def LaneRun.nextOut (r : LaneRun) : Nat :=
  nextPiece (if r.job.dst < 64 then r.job.dstOfs else 0) r.sent r.payload.length
def Module.outCosts (m : Module) (r : LaneRun) (n : Nat) : List (Nat × Nat) :=
  let j := r.job
  if j.dst < 64 then ((m.region j.dst).writeMsgs (j.dstOfs + r.sent) n).flatten
  else [(if j.dst < 128 then 41 + (j.dst - 64) else 40, units n)]

/-- One payload write, where there is one: true unless it has to wait. -/
def State.laneWrite (s : State) (l : Nat) (r : LaneRun) : Bool × State :=
  let n := r.nextOut
  if n = 0 then (true, s)
  else
    match s.m.charge r.job.act (s.m.outCosts r n) with
    | (false, m) => (false, { s with m := m })
    | (true, m) =>
      let s : State := { s with m := m }
      let s := if r.job.dst < 64 then
          s.hbmWrite (s.m.laneIsland l) r.job.dst (r.job.dstOfs + r.sent) ((r.payload.drop r.sent).take n)
        else s
      (true, s.onM fun m => m.setJob l { r with sent := r.sent + n })

/-- More payload waits than the 16 KiB output buffer holds. -/
def LaneRun.full (r : LaneRun) : Bool := decide (16384 < r.payload.length - r.sent)

/-- A tick of a running lane that is not stalled. It stalls when a write has to wait and the output buffer is full (R346). -/
def State.laneTick (s : State) (l : Nat) : State :=
  match (s.m.lane l).run, (s.m.lane l).stalled with
  | some r, none =>
    let s := s.laneRead l r
    let r := (((s.m.lane l).run).getD r).consume
    let s := s.onM fun m => m.setJob l r
    let (ok, s) := s.laneWrite l r
    if !ok && r.full then s.onM fun m => m.setLane l { m.lane l with stalled := some m.clk.ticks } else s
  | _, _ => s

/-- A lane with no running job starts its next one; a job of no bytes completes at once (R338), and so does every job of a
FAILED lane (R352). No job starts while a substitution is due (R350). -/
def State.nextJob (s : State) (l : Nat) : Nat → State
  | 0 => s
  | fuel + 1 =>
    let ln := s.m.lane l
    match ln.queue with
    | [] => s
    | j :: rest =>
      if ln.run.isSome || (ln.switching && !ln.failed) then s
      else
        let s := s.onM fun m => m.setLane l { ln with queue := rest }
        if ln.failed then (s.onM fun m => m.jobDone l 3 (.none_ j)).nextJob l fuel
        else if j.len = 0 then (s.onM fun m => m.jobDone l 1 (.none_ j)).nextJob l fuel
        else s.onM fun m => m.setJob l (.none_ j)

/-- The reason for which a job is refused (R337): 1 QUEUE_FULL, 2 RANGE. -/
def Module.jobRefusal (m : Module) (l : Nat) (j : Job) : Option Nat :=
  let bad (r ofs len : Nat) : Bool := !(m.region r).holds ofs len
  if (bad j.region j.ofs j.len || 1044480 < j.len || (j.dst < 64 && bad j.dst j.dstOfs 0)) && j.len != 0 then some 2
  else if 4 ≤ (m.lane l).queue.length then some 1
  else none

/-- Accept a job. -/
def State.acceptJob (s : State) (l : Nat) (j : Job) : State :=
  (s.onM fun m => m.setLane l { m.lane l with queue := (m.lane l).queue ++ [j] }).nextJob l 6

/-- The islands from which a lane may take its next job: the ones it was moved from first, and its own once nothing for it is
on its way to them (R47). -/
def Module.jobIslands (m : Module) (l : Nat) : List Nat :=
  let old := [45, 46, 47, 48].filter fun i => i != m.laneIsland l
  let late := (m.net.transit ++ m.net.arrived).any fun e => e.src == 24 && old.contains e.dst && (match e.body with
    | .job k _ => k == l
    | _ => false)
  if late then old else [m.laneIsland l]

/-- COMPRESSION_JOB (R337): a job of the stream engine reaches its lane over the pair of the group it was sent to, and is
queued, refused, or completed with LANE_FAILED. -/
def execCompressionJob (lane : Fin 32) (s : State) : Host.Outcome State Fault Refusal :=
  let l := lane.val
  let head := (s.m.jobIslands l).findSome? fun isl =>
    match s.m.arrival 24 isl with
    | some (.job k j) => if k = l then some (isl, j) else none
    | _ => none
  .next (match head with
    | some (isl, j) =>
      let s := s.onM fun m => m.takeArrival 24 isl
      match if (s.m.lane l).failed then none else s.m.jobRefusal l j with
      | some r => s.onM fun m => m.postMgt (m.laneIsland l) 24 .cpl (.jobDone l j.tag (3 + r))
      | none => s.acceptJob l j
    | none => s)

/-- The job that the registers of the CMP page describe. -/
def Module.cmpJob (m : Module) : Job :=
  { stream := false, region := m.rd pgCmp CMP_SW_SRC.REGION
    ofs := m.rd64 pgCmp CMP_SW_SRC_OFS_LO.OFFSET CMP_SW_SRC_OFS_HI.OFFSET, len := m.rd pgCmp CMP_SW_LEN.LEN
    dst := m.rd pgCmp CMP_SW_DST.REGION, dstOfs := m.rd64 pgCmp CMP_SW_DST_OFS_LO.OFFSET CMP_SW_DST_OFS_HI.OFFSET
    tag := m.rd pgCmp CMP_SW_TAG.TAG, act := m.cmpAct }

/-- The outcome of a submission in its status register. -/
def Module.submitted (m : Module) (p : Nat) (refused reason last : Fld) (r : Option Nat) : Module :=
  match r with
  | some n => (((m.bump p refused).wr p reason n).wr p last 1).raise p 12
  | none => m.wr p last 0

/-- CMP_SW_SUBMIT with GO (R359): 1 QUEUE_FULL, 2 RANGE, 3 FAILED. -/
def State.takeCmpSwSubmit (s : State) (lane : Fin 32) : State :=
  let l := lane.val
  let j := s.m.cmpJob
  let why := if (s.m.lane l).failed then some 3 else s.m.jobRefusal l j
  let s := s.onM fun m =>
    m.submitted pgCmp CMP_SW_STATUS.REFUSED CMP_SW_STATUS.LAST_REASON CMP_SW_STATUS.LAST_REFUSED why
  (if why.isSome then s else s.acceptJob l j)

/-- The command: a write that does this. -/
def execCmpSwSubmit (r : Requester) (lane : Fin 32) (s : State) : Host.Outcome State Fault Refusal :=
  .next (s.via (.cmpSwSubmit r lane) r pgCmp fun s => s.takeCmpSwSubmit lane)

/-- LANE_RESUME (R346): payload writes pass until the output buffer has room again, and the lane goes on where it stood; the
cycles of the 1.0 GHz clock since the stall count, two ticks each. -/
def execLaneResume (lane : Fin 32) (s : State) : Host.Outcome State Fault Refusal :=
  .next (match (s.m.lane lane).run, (s.m.lane lane).stalled with
    | some r, some t =>
      let s := (s.laneWrite lane r).2
      if (((s.m.lane lane).run).getD r).full then s
      else s.onM fun m =>
        (m.setLane lane { m.lane lane with stalled := none }).bump pgCmp CMP_LANE_STALL.CYCLES ((m.clk.ticks - t) / 2) lane
    | _, _ => s)

/-! ## Sparing (R350–R352) -/

/-- The spare that a logical lane takes: that of its pair of groups, else the other. -/
def Module.laneSpare (m : Module) (l : Nat) : Option Nat :=
  let free8 := m.rd pgCmp CMP_SPARES.SPARE_8 == 1
  let free25 := m.rd pgCmp CMP_SPARES.SPARE_25 == 1
  if laneGroup (m.lane l).phys < 2 then if free8 then some 8 else if free25 then some 25 else none
  else if free25 then some 25 else if free8 then some 8 else none

/-- LANE_SWITCHED (R351, R352): at the job boundary of a lane that is to be substituted. -/
def execLaneSwitched (lane : Fin 32) (s : State) : Host.Outcome State Fault Refusal :=
  let l := lane.val
  let ln := s.m.lane l
  .next (match ln.switching, ln.run, ln.failed with
    | true, none, false =>
      match s.m.laneSpare l with
      | some inn =>
        (s.onM fun m =>
          let before := m
          let m := m.setLane l { ln with phys := inn, switching := false }
          let m := m.wr pgCmp (if inn = 8 then CMP_SPARES.SPARE_8 else CMP_SPARES.SPARE_25) 0
          let m := ((m.wr pgCmp STATUS.SPARE_IN_USE 1).raise pgCmp 10).recordSubst 5 1 l ln.phys inn (some (728 + ln.phys))
          (m.clearSevere (728 + ln.phys)).overcommit before).nextJob l 6
      | none =>
        (s.onM fun m =>
          ((m.setLane l { ln with failed := true, switching := false }).raise pgCmp 11).spareExhausted 45 5 l).nextJob l 6
    | _, _, _ => s)

/-- A substitution order for a physical lane (R350). -/
def Module.laneOrder (m : Module) (phys : Nat) : Module :=
  match (List.range 32).find? fun l => (m.lane l).phys == phys with
  | some l => if (m.lane l).failed then m else m.setLane l { m.lane l with switching := true }
  | none => m

/-! ## Completion (R339) -/

/-- The registers of a lane past a job of which it has consumed and sent everything. -/
def Module.countJob (m : Module) (l : Nat) (r : LaneRun) : Module :=
  let m := (m.step64 pgCmp CMP_LANE_IN_LO.BYTES CMP_LANE_IN_HI.BYTES r.job.len l).addWork 12 r.job.len
  let m := m.step64 pgCmp CMP_LANE_OUT_LO.BYTES CMP_LANE_OUT_HI.BYTES r.payload.length l
  m.bump pgCmp CMP_LANE_STORED.BLOCKS r.stored l

/-- The payload leaves with the status of the job, and the completion follows once it is accepted; a MEMORY payload has been
accepted write by write. -/
def Module.closeJob (m : Module) (l status : Nat) (r : LaneRun) : Module :=
  if r.job.dst < 64 then m.jobDone l status r
  else
    let m := m.setLane l { m.lane l with closing := (m.lane l).closing ++ [(r, status)] }
    m.post (m.laneIsland l) (if r.job.dst < 128 then 37 + (r.job.dst - 64) else 36) .dat
      (.payload ⟨r.job.tag, r.job.len, r.rawCrc, status == 2, r.poison.isSome, r.unmapped, r.payload⟩)

/-- JOB_COMPLETION (R339): the whole input is consumed and every payload write has passed; the payload's last word leaves, the
completion with it or after it, and the next job starts. A fault within the job (R350) is reported and gives LANE_FAULT. -/
def execJobCompletion (lane : Fin 32) (laneFault : Bool) (s : State) : Host.Outcome State Fault Refusal :=
  let l := lane.val
  let ln := s.m.lane l
  .next (match ln.run, ln.stalled with
    | some r, none =>
      if r.used < r.job.len ∨ r.sent < r.payload.length then s
      else
        (s.onM fun m =>
          let m := (m.setLane l { m.lane l with run := none }).countJob l r
          let m := if laneFault then m.report (m.laneIsland l) (728 + ln.phys) else m
          m.closeJob l (if laneFault then 2 else 0) r).nextJob l 6
    | _, _ => s)

/-- A payload has been accepted at its destination, or is known to be lost on the way (log entry 148): the completion that
waited for it leaves, in the order of the lane's jobs. -/
def Module.payloadAccepted (m : Module) (tag : Nat) (lost : Bool) : Module :=
  match (List.range 32).find? fun l => ((m.lane l).closing.head?.map fun c => c.1.job.tag) == some tag with
  | some l =>
    match (m.lane l).closing with
    | (r, status) :: rest =>
      let m := m.setLane l { m.lane l with closing := rest }
      if lost then m else m.jobDone l status r
    | [] => m
  | none => m

/-- CMP_RES_POP (R359). -/
def State.takeCmpResPop (s : State) : State :=
  (s.onM fun m => { m with codec.results := m.codec.results.drop 1 })

/-- The command: a write that does this. -/
def execCmpResPop (r : Requester) (s : State) : Host.Outcome State Fault Refusal :=
  .next (s.via (.cmpResPop r) r pgCmp fun s => s.takeCmpResPop)

/-! ## The decompressor (R353–R358, R360) -/

def Module.dlane (m : Module) (l : Nat) : DLaneSt := m.codec.dlanes.get DLaneSt.init l
def Module.setDlane (m : Module) (l : Nat) (v : DLaneSt) : Module :=
  { m with codec.dlanes := m.codec.dlanes.set DLaneSt.init l v }

/-- A result reaches the FIFO of the DCM page, or is discarded at a full one (R360). -/
def Module.dcmResult (m : Module) (l : Nat) (r : DRun) : Module :=
  let c := m.codec
  let m := { m with codec.dseq := c.dseq + 1 }
  if 64 ≤ c.dres.length then (m.bump pgDcm DCM_RES_STATUS.OVERFLOW).raise pgDcm 9
  else ({ m with codec.dres := c.dres ++ [⟨c.dseq % 65536, l, r⟩] } : Module).raise pgDcm 8

/-- The completion of a decompression job. -/
def Module.djobDone (m : Module) (l : Nat) (r : DRun) : Module :=
  let m := if 1 ≤ r.result ∧ r.result ≤ 9 then (m.bump pgDcm DCM_LANE_ERRORS.COUNT 1 l).raise pgDcm 10 else m
  if r.job.stream then m.postMgt 49 24 .cpl (.djobDone l r.job.tag r.result) else m.dcmResult l r

/-- A decompression job that made nothing. -/
def DRun.start (j : DJob) (now : Nat) : DRun := ⟨j, [], [], 0, now, false, 0, 0, false, 0, 0⟩
def DRun.none_ (j : DJob) (result : Nat) : DRun := { DRun.start j 0 with ended := true, result := result }

def Module.setDrun (m : Module) (l : Nat) (r : DRun) : Module := m.setDlane l { m.dlane l with run := some r }

/-- The decoder as far as the bytes read take it. -/
def DRun.decoded (r : DRun) : DRun :=
  let j := r.job
  match inflatePart r.data j.len j.wrap j.outLen (if j.checkEn then some j.check else none) with
  | (none, out) => { r with output := out }
  | (some o, out) =>
    { r with output := out, ended := true, result := o.result, detail := o.detail, short := o.short, inBit := o.inBit
             trailing := o.trailing }

/-- One source read, until the decoding is over, if the budget takes it (R358). -/
def State.dlaneRead (s : State) (l : Nat) (r : DRun) : State :=
  let j := r.job
  let n := nextPiece j.ofs r.data.length j.len
  if r.ended then s
  else
    let g := s.m.region j.region
    match s.m.charge j.act (g.readMsgs 49 (j.ofs + r.data.length) n).flatten with
    | (false, m) => { s with m := m }
    | (true, m) =>
      let (d, _, s) := ({ s with m := m } : State).checkedRead 49 j.region (j.ofs + r.data.length) n
      s.onM fun m => m.setDrun l ({ r with data := r.data ++ d }).decoded

/-- One output write, where there is one: true unless it has to wait. A lane writes at most four bytes in a tick. -/
def State.dlaneWrite (s : State) (l : Nat) (r : DRun) : Bool × State :=
  let j := r.job
  let n := nextPiece j.dstOfs r.sent r.output.length
  if n = 0 ∨ 4 * (s.m.clk.ticks - r.since) < r.sent + n then (true, s)
  else
    match s.m.charge j.act ((s.m.region j.dst).writeMsgs (j.dstOfs + r.sent) n).flatten with
    | (false, m) => (false, { s with m := m })
    | (true, m) =>
      (true, (({ s with m := m } : State).hbmWrite 49 j.dst (j.dstOfs + r.sent) ((r.output.drop r.sent).take n)).onM fun m =>
        m.setDrun l { r with sent := r.sent + n })

/-- A tick of a running lane that is not suspended: it suspends when a write has to wait (R357). -/
def State.dlaneTick (s : State) (l : Nat) : State :=
  match (s.m.dlane l).run, (s.m.dlane l).suspended with
  | some r, false =>
    let s := s.dlaneRead l r
    let (ok, s) := s.dlaneWrite l (((s.m.dlane l).run).getD r)
    if ok then s else s.onM fun m => m.setDlane l { m.dlane l with suspended := true }
  | _, _ => s

/-- What the lanes do in a tick. -/
def State.codecTick (s : State) : State :=
  let s := (s.m.codec.lanes.map Prod.fst).foldl State.laneTick s
  (s.m.codec.dlanes.map Prod.fst).foldl State.dlaneTick s

/-- A lane with no running job starts its next one; either length zero completes at once with ZERO_LENGTH, and every job
of a FAILED lane with LANE_FAILED (R352, R358). -/
def State.nextDjob (s : State) (l : Nat) : Nat → State
  | 0 => s
  | fuel + 1 =>
    let ln := s.m.dlane l
    match ln.queue with
    | [] => s
    | j :: rest =>
      if ln.run.isSome then s
      else
        let s := s.onM fun m => m.setDlane l { ln with queue := rest }
        if ln.failed then (s.onM fun m => m.djobDone l (.none_ j 15)).nextDjob l fuel
        else if j.len = 0 ∨ j.outLen = 0 then (s.onM fun m => m.djobDone l (.none_ j 14)).nextDjob l fuel
        else s.onM fun m => m.setDrun l (.start j m.clk.ticks)

/-- The reason for which a decompression job is refused (R337, R360): 1 QUEUE_FULL, 2 RANGE. -/
def Module.djobRefusal (m : Module) (l : Nat) (j : DJob) : Option Nat :=
  let bad := !(m.region j.region).holds j.ofs j.len || !(m.region j.dst).holds j.dstOfs j.outLen
  if j.wrap = 3 ∨ (j.len ≠ 0 ∧ j.outLen ≠ 0 ∧ bad = true) then some 2
  else if 4 ≤ (m.dlane l).queue.length then some 1
  else none

def State.acceptDjob (s : State) (l : Nat) (j : DJob) : State :=
  (s.onM fun m => m.setDlane l { m.dlane l with queue := (m.dlane l).queue ++ [j] }).nextDjob l 6

/-- DECOMPRESSION_JOB (R353): a job of the stream engine reaches its lane over 24 → 49. A refusal returns with 16 and the
reason. -/
def execDecompressionJob (lane : Fin 8) (s : State) : Host.Outcome State Fault Refusal :=
  .next (match s.m.arrival 24 49 with
    | some (.djob k j) =>
      if k ≠ lane.val then s
      else
        let s := s.onM fun m => m.takeArrival 24 49
        match if (s.m.dlane lane).failed then none else s.m.djobRefusal lane j with
        | some r => s.onM fun m => m.postMgt 49 24 .cpl (.djobDone lane j.tag (16 + r))
        | none => s.acceptDjob lane j
    | _ => s)

/-- The job that the registers of the DCM page describe. -/
def Module.dcmJob (m : Module) : DJob :=
  { region := m.rd pgDcm DCM_SW_SRC.REGION, ofs := m.rd64 pgDcm DCM_SW_SRC_OFS_LO.OFFSET DCM_SW_SRC_OFS_HI.OFFSET
    len := m.rd pgDcm DCM_SW_SRC_LEN.LEN, dst := m.rd pgDcm DCM_SW_DST.REGION
    dstOfs := m.rd64 pgDcm DCM_SW_DST_OFS_LO.OFFSET DCM_SW_DST_OFS_HI.OFFSET, outLen := m.rd pgDcm DCM_SW_OUT_LEN.LEN
    wrap := m.rd pgDcm DCM_SW_MODE.WRAP, checkEn := m.rd pgDcm DCM_SW_MODE.CHECK_EN == 1
    check := m.rd pgDcm DCM_SW_CHECK.CRC, tag := m.rd pgDcm DCM_SW_TAG.TAG, stream := false, act := m.dcmAct }

/-- DCM_SW_SUBMIT with GO (R360). -/
def State.takeDcmSwSubmit (s : State) (lane : Fin 8) : State :=
  let j := s.m.dcmJob
  let why := if (s.m.dlane lane).failed then some 3 else s.m.djobRefusal lane j
  let s := s.onM fun m =>
    m.submitted pgDcm DCM_SW_STATUS.REFUSED DCM_SW_STATUS.LAST_REASON DCM_SW_STATUS.LAST_REFUSED why
  (if why.isSome then s else s.acceptDjob lane j)

/-- The command: a write that does this. -/
def execDcmSwSubmit (r : Requester) (lane : Fin 8) (s : State) : Host.Outcome State Fault Refusal :=
  .next (s.via (.dcmSwSubmit r lane) r pgDcm fun s => s.takeDcmSwSubmit lane)

/-- DCM_RESUME (R357): the write that waited passes, and the lane goes on where it stood. -/
def execDcmResume (lane : Fin 8) (s : State) : Host.Outcome State Fault Refusal :=
  .next (match (s.m.dlane lane).run, (s.m.dlane lane).suspended with
    | some r, true =>
      match s.dlaneWrite lane r with
      | (true, s) => s.onM fun m => m.setDlane lane { m.dlane lane with suspended := false }
      | (false, s) => s
    | _, _ => s)

/-- DECOMPRESSION_COMPLETION (R355): the decoding is over and its output, up to the fault if there is one, is written; the
completion leaves. -/
def execDecompressionCompletion (lane : Fin 8) (s : State) : Host.Outcome State Fault Refusal :=
  let ln := s.m.dlane lane
  .next (match ln.run, ln.suspended with
    | some r, false =>
      if !r.ended || decide (r.sent < r.output.length) then s
      else
        (s.onM fun m =>
          let m := m.setDlane lane { m.dlane lane with run := none }
          (m.step64 pgDcm DCM_LANE_OUT_LO.BYTES DCM_LANE_OUT_HI.BYTES r.output.length lane).djobDone lane r).nextDjob lane 6
    | _, _ => s)

/-- DCM_RES_POP (R360). -/
def State.takeDcmResPop (s : State) : State :=
  (s.onM fun m => { m with codec.dres := m.codec.dres.drop 1 })

/-- The command: a write that does this. -/
def execDcmResPop (r : Requester) (s : State) : Host.Outcome State Fault Refusal :=
  .next (s.via (.dcmResPop r) r pgDcm fun s => s.takeDcmResPop)

/-- A severe decompressor lane has no spare (R358): it enters FAILED, and its waiting jobs complete with LANE_FAILED. -/
def State.dlaneFails (s : State) (l : Nat) : State :=
  if (s.m.dlane l).failed then s
  else (s.onM fun m => (m.setDlane l { m.dlane l with failed := true }).raise pgDcm 11).nextDjob l 6

/-! ## Commits (R359, R360): ACTIVITY alone -/

def checkCmp (snap : Store Nat) : List Bad := chk (62 ≤ snapGet snap pgCmp ACTIVITY_ID.ACTIVITY) 0x02C 2
def checkDcm (snap : Store Nat) : List Bad := chk (62 ≤ snapGet snap pgDcm ACTIVITY_ID.ACTIVITY) 0x02C 2

end Sys2Proof.Machine
end

