-- ==== Sys2Proof/Machine/Drives.lean ====
section
/-! DEFINITION. Streaming to drives (spec/12): root ports, admission, the drive ledger, retirement, the volume and its
commands, streams, chunks, frames, checkpoints and readback. -/

namespace Sys2Proof.Machine

def Module.pt (m : Module) (n : Nat) : PortSt := m.port.get PortSt.init n
def Module.setPt (m : Module) (n : Nat) (v : PortSt) : Module := { m with port := m.port.set PortSt.init n v }
def Module.sm (m : Module) (k : Nat) : StreamSt := m.stream.get StreamSt.init k
def Module.setSm (m : Module) (k : Nat) (v : StreamSt) : Module := { m with stream := m.stream.set StreamSt.init k v }

def ports : List Nat := List.range 8
def slots : List Nat := List.range 16

def Module.strAct (m : Module) : Nat := m.lv pgStr ACTIVITY_ID.ACTIVITY
def Module.volState (m : Module) : Nat := m.rd pgStr STR_VOL_STATUS.STATE
def Module.mounted (m : Module) : Bool := decide (2 ≤ m.volState)
def Module.driveState (m : Module) (n : Nat) : Nat := m.rd (pgNvp n) NVP_DRIVE.STATE
def Module.isMember (m : Module) (n : Nat) : Bool := bit (m.rd pgStr STR_VOL_STATUS.ACTIVE) n
def Module.sparePort (m : Module) : Nat := m.rd pgStr STR_VOL_STATUS.SPARE
def Module.volumeId (m : Module) : Nat := m.rd64 pgStr STR_VOL_ID_LO.ID STR_VOL_ID_HI.ID
/-- A power-fail warning is in force (R389, R506). -/
def Module.powerFailing (m : Module) : Bool := m.rd pgSaf SAF_STATUS.PFW == 1

/-! ## The drive ledger (R367) -/

/-- A record as the stream engine knows it; a change goes on to the safety partition over 24 → 57 (R361). -/
def Module.drec (m : Module) (i : Nat) : Option DriveRec := m.volume.records.get none i
def Module.setDrec (m : Module) (i : Nat) (r : DriveRec) : Module :=
  { m with volume.records := m.volume.records.set none i (some r) }.postMgt 24 57 .req (.driveRecord i r)

def isZero (l : List Byte) : Bool := l.all fun b => b == 0

/-- A record is of a drive: by NGUID when that is not zero, else by EUI-64, else by serial and model. -/
def DriveRec.matches (r : DriveRec) (d : DriveInfo) : Bool :=
  if ¬ isZero d.nguid then r.nguid == d.nguid
  else if ¬ isZero d.eui64 then r.eui64 == d.eui64
  else r.serial == d.serial && r.model == d.model

def ledgerSlots : List Nat := List.range 64

/-- The record of a set with the oldest FIRST_WALL. -/
def Module.oldestRec (m : Module) (p : DriveRec → Bool) : Option Nat :=
  (ledgerSlots.filter fun i => (m.drec i).any p).foldl (fun best i =>
    match best with
    | none => some i
    | some j =>
      if ((m.drec i).map DriveRec.firstWall).getD 0 < ((m.drec j).map DriveRec.firstWall).getD 0 then some i else best) none

/-- The record that a drive takes: whether it matched, and its index. -/
def Module.ledgerFor (m : Module) (d : DriveInfo) : Option (Bool × Nat) :=
  match ledgerSlots.find? fun i => (m.drec i).any fun r => r.matches d with
  | some i => some (true, i)
  | none =>
    match ledgerSlots.find? fun i => (m.drec i).isNone with
    | some i => some (false, i)
    | none =>
      match m.oldestRec fun r => r.role == 3 with
      | some i => some (false, i)
      | none => (m.oldestRec fun r => r.role == 0).map fun i => (false, i)

/-- The ledger record of a port's drive. -/
def Module.ledgerOf (m : Module) (n : Nat) : Option (Nat × DriveRec) :=
  let i := m.rd (pgNvp n) NVP_DRIVE.LEDGER
  (m.drec i).map fun r => (i, r)

/-- Change the ledger record of a port's drive, and its ROLE with it. -/
def Module.updLedger (m : Module) (n : Nat) (f : DriveRec → DriveRec) : Module :=
  match m.ledgerOf n with
  | some (i, r) => (m.setDrec i (f r)).wr (pgNvp n) NVP_DRIVE.ROLE (f r).role
  | none => m

def Module.roleOf (m : Module) (n : Nat) : Nat := ((m.ledgerOf n).map fun p => p.2.role).getD 0

/-- WRITTEN and PCT_USED go into the ledger (R368). -/
def Module.saveWear (m : Module) (n : Nat) : Module :=
  m.updLedger n fun r => { r with
    written := m.rd64 (pgNvp n) NVP_WRITTEN_LO.BYTES NVP_WRITTEN_HI.BYTES, pct := m.rd (pgNvp n) NVP_HEALTH.PCT_USED }

def pad (n : Nat) (l : List Byte) : List Byte := (l ++ List.replicate n 0).take n

/-- The 128 bytes of a record. -/
def DriveRec.bytes (r : DriveRec) : List Byte :=
  let body := pad 20 r.serial ++ pad 40 r.model ++ pad 16 r.nguid ++ pad 8 r.eui64 ++ leBytes 1 r.role ++ leBytes 1 r.reason
    ++ leBytes 1 r.pct ++ leBytes 1 r.port ++ leBytes 8 r.written ++ leBytes 4 r.firstWall ++ leBytes 4 r.retireWall
    ++ leBytes 8 r.volume ++ leBytes 12 0
  body ++ leBytes 4 (crc32c body)

/-! ## Layouts (R374–R376) -/

/-- A superblock as it is written to port n. -/
def Module.superBytes (m : Module) (n slot : Nat) (b : Superblock) : List Byte :=
  let drives := b.drives.flatMap fun r => (r.map DriveRec.bytes).getD (leBytes 128 0)
  let body := leBytes 4 0x56535146 ++ leBytes 2 1 ++ leBytes 1 slot ++ leBytes 1 n ++ leBytes 8 b.volumeId
    ++ leBytes 4 b.generation ++ leBytes 4 b.nextStream ++ leBytes 4 b.extBlocks ++ leBytes 8 m.now
    ++ leBytes 4 (m.rd pgSaf SAF_WALL.SECONDS) ++ leBytes 4 b.extents ++ leBytes 20 0 ++ drives ++ leBytes 3004 0
  body ++ leBytes 4 (crc32c body)

/-- The last four bytes of a structure are the CRC-32C of the rest. -/
def sealed (l : List Byte) : Bool := decide (4 ≤ l.length) && crc32c (l.take (l.length - 4)) == le l (l.length - 4) 4

/-- The bytes from `ofs` on. -/
def cut (l : List Byte) (ofs n : Nat) : List Byte := (l.drop ofs).take n

/-- A ledger record as it lies in a superblock; none where its CRC does not match (R367, R374). -/
def parseDriveRec (l : List Byte) : Option DriveRec :=
  if l.length = 128 ∧ sealed l = true then
    some ⟨cut l 0 20, cut l 20 40, cut l 60 16, cut l 76 8, le l 84 1, le l 85 1, le l 86 1, le l 87 1, le l 88 8, le l 96 4,
      le l 100 4, le l 104 8⟩
  else none

/-- The superblock in a block, valid when MAGIC, FORMAT and CRC match (R374, R380). -/
def parseSuper (l : List Byte) : Option Superblock :=
  if l.length = 4096 ∧ le l 0 4 = 0x56535146 ∧ le l 4 2 = 1 ∧ sealed l = true then
    some ⟨le l 8 8, le l 16 4, le l 20 4, le l 24 4, le l 40 4, (List.range 8).map fun k => parseDriveRec (cut l (64 + 128 * k) 128)⟩
  else none

/-- An extent table entry. -/
def Module.extentBytes (m : Module) (i : Nat) (e : Extent) : List Byte :=
  let body := leBytes 4 e.stream ++ leBytes 1 e.state ++ leBytes 1 e.port ++ leBytes 2 0 ++ leBytes 8 e.firstLba
    ++ leBytes 4 e.blocks ++ leBytes 4 e.used ++ leBytes 4 e.frames ++ leBytes 4 e.firstSeq ++ leBytes 4 e.lastSeq
    ++ leBytes 4 (m.volumeId % 2 ^ 32) ++ leBytes 8 e.openTime ++ leBytes 8 e.closeTime ++ leBytes 4 i
  body ++ leBytes 4 (crc32c body)

/-- An entry of the table of a volume, valid when its CRC and VOLUME_TAG match (R375). -/
def parseExtent (volumeId : Nat) (l : List Byte) : Option Extent :=
  if l.length = 64 ∧ sealed l = true ∧ le l 36 4 = volumeId % 2 ^ 32 then
    some ⟨le l 0 4, le l 4 1, le l 5 1, le l 8 8, le l 16 4, le l 20 4, le l 24 4, le l 28 4, le l 32 4, le l 40 8, le l 48 8⟩
  else none

/-- A block of the extent table: 64 entries, zero where none is in use. -/
def Module.tableBlock (m : Module) (k : Nat) : List Byte :=
  (List.range 64).flatMap fun i =>
    match m.volume.table[64 * k + i]? with
    | some e => m.extentBytes (64 * k + i) e
    | none => leBytes 64 0

/-- A frame with its payload, padded to a multiple of 4,096 bytes. -/
def Frame.bytes (f : Frame) (rawCrc : Nat) (data : List Byte) : List Byte :=
  let head := leBytes 2 0x5146 ++ leBytes 1 f.kind ++ leBytes 1 f.flags ++ leBytes 4 f.streamId ++ leBytes 4 f.seq
    ++ leBytes 4 f.rawLen ++ leBytes 4 data.length ++ leBytes 4 rawCrc ++ leBytes 4 f.recOfs
  let body := head ++ leBytes 4 (crc32c head) ++ data ++ leBytes 4 (crc32c data)
  pad (nextMultiple body.length 4096) body

/-- The header of a frame as it was read from a drive, valid when MAGIC and HDR_CRC match (R376, R380). -/
def parseFrame (l : List Byte) : Option FrameHead :=
  if 32 ≤ l.length ∧ le l 0 2 = 0x5146 ∧ sealed (l.take 32) = true then
    some ⟨le l 2 1, le l 3 1, le l 4 4, le l 8 4, le l 12 4, le l 16 4, le l 20 4, le l 24 4⟩
  else none

/-- Its payload, where the payload's CRC matches, and the blocks that the frame takes. -/
def FrameHead.payload (h : FrameHead) (l : List Byte) : Option (List Byte) :=
  let body := cut l 32 (h.payLen + 4)
  if body.length = h.payLen + 4 ∧ sealed body = true then some (body.take h.payLen) else none
def FrameHead.blocks (h : FrameHead) : Nat := ceilDiv (36 + h.payLen) 4096

/-! ## Commands to drives (R363, R365, R390) -/

/-- The bytes of one command: 1 MiB, or less where MDTS says so (R365). -/
def DriveInfo.xfer (d : DriveInfo) : Nat := if d.xferKiB = 0 then 1048576 else Nat.min 1048576 (d.xferKiB * 1024)
def Module.xfer (m : Module) (n : Nat) : Nat := (((m.pt n).info).map DriveInfo.xfer).getD 1048576

/-- A command as the port splits it. -/
def DriveCmd.split (c : DriveCmd) (xfer : Nat) : List DriveCmd :=
  let x := Nat.max 1 (xfer / 4096)
  match c with
  | .write lba d =>
    (List.range (ceilDiv d.length (4096 * x))).map fun i => .write (lba + x * i) (cut d (4096 * x * i) (4096 * x))
  | .zeros lba b => (List.range (ceilDiv b x)).map fun i => .zeros (lba + x * i) (Nat.min x (b - x * i))
  | .read lba b => (List.range (ceilDiv b x)).map fun i => .read (lba + x * i) (Nat.min x (b - x * i))
  | c => [c]

def DriveCmd.opcode : DriveCmd → Nat
  | .write _ _ | .zeros _ _ => 1
  | .read _ _ => 2
  | .deallocate _ _ => 9
  | .flush => 0

/-- The bytes that a command writes. -/
def DriveCmd.bytes : DriveCmd → Nat
  | .write _ d => d.length
  | .zeros _ b => 4096 * b
  | _ => 0

/-- Give a port a command; it issues it as its budget takes the traffic. -/
def Module.issue (m : Module) (n : Nat) (owner : CmdOwner) (act : Nat) (c : DriveCmd) : Module :=
  m.setPt n { m.pt n with todo := (m.pt n).todo ++ (c.split (m.xfer n)).map fun c => ⟨c, owner, act, 0⟩ }

/-- What a command is charged: the way of its data into the port, where it is no frame's (that is charged with the payload),
and the drive's reads of it, per completion of up to 256 bytes (R38, R390). -/
def OutCmd.messages (c : OutCmd) (n : Nat) : List (List (Nat × Nat)) :=
  let b := c.cmd.bytes
  (match c.owner with
    | .frame _ => []
    | _ => List.replicate (ceilDiv b 4096) [(41 + n, 64)]) ++ List.replicate (ceilDiv b 256) [(64 + n, 4)]

/-- A tick of a port: its next command is issued once the budget has taken its traffic. At a power-fail warning a port issues no
further command (R389). -/
def Module.portTick (m : Module) (n : Nat) : Module :=
  match (m.pt n).todo with
  | [] => m
  | c :: rest =>
    if m.powerFailing ∨ (m.driveState n ≠ 3 ∧ m.driveState n ≠ 5) then m
    else
      let (ok, m) := m.letThrough (6144 + n) c.act (c.messages n)
      if ok then
        let m := m.setPt n { m.pt n with todo := rest, out := (m.pt n).out ++ [{ c with since := m.clk.ticks }] }
        (m.step64 (pgNvp n) NVP_WRITTEN_LO.BYTES NVP_WRITTEN_HI.BYTES c.cmd.bytes).addWork 13 c.cmd.bytes
      else m
def Module.portsTick (m : Module) : Module := ports.foldl (fun m n => m.portTick n) m

/-- Some command of a checkpoint or of a volume command has not completed. -/
def Module.ioPending (m : Module) : Bool :=
  ports.any fun n => ((m.pt n).todo ++ (m.pt n).out).any fun c => match c.owner with
    | .frame _ => false
    | _ => true

/-! ## Checkpoints (R379) -/

/-- The superblock that the present volume would be written with. -/
def Module.present (m : Module) (generation : Nat) : Superblock :=
  ⟨m.volumeId, generation, m.volume.nextStream, m.volume.extBlocks, m.volume.table.length,
    ports.map fun k => ((m.ledgerOf k).map Prod.snd).bind fun r => if r.volume = m.volumeId then some r else none⟩

/-- The slot that does not hold a generation (R379). -/
def Module.freeSlot (m : Module) (n generation : Nat) : Nat :=
  if (m.pt n).super0.any fun b => b.volumeId == m.volumeId && b.generation == generation then 1 else 0

def Module.writeSuper (m : Module) (n slot : Nat) (b : Superblock) : Module :=
  m.issue n (.super slot b) m.strAct (.write slot (m.superBytes n slot b))

/-- The drive in a port is admitted and holds a role in this volume. -/
def Module.hasRole (m : Module) (n role : Nat) : Bool :=
  m.driveState n == 3 && ((m.ledgerOf n).any fun p => p.2.role == role && p.2.volume == m.volumeId)

/-- The drives that a checkpoint writes: the members and the spare that are ready. -/
def Module.volumeDrives (m : Module) : List Nat :=
  ports.filter fun n => (m.isMember n && m.hasRole n 1) || (m.sparePort == n && m.hasRole n 2)

/-- The volume may be written: it is MOUNTED or DEGRADED, or a command other than MOUNT and FORMAT works on it. -/
def Module.volumeUp (m : Module) : Bool :=
  m.mounted || match m.volume.job with
    | some j => (match j.cmd with
      | .adopt _ => true
      | _ => false)
    | none => false

/-- A checkpoint begins: the extent table blocks changed since the previous one go to its drives, and the ledger takes their
wear. -/
def Module.beginCkpt (m : Module) : Module :=
  let drives := m.volumeDrives ++ m.volume.extra.filter fun n => m.driveState n == 3
  let gen := m.rd pgStr STR_VOL_GEN.GENERATION + 1
  let blocks := (m.volume.changed.map fun i => i / 64).dedup
  let m := drives.foldl (fun m n =>
    (blocks.foldl (fun m k => m.issue n .checkpoint m.strAct (.write (256 + k) (m.tableBlock k))) m).saveWear n) m
  let m := slots.foldl (fun m k => if (m.sm k).saved = 1 then m.setSm k { m.sm k with saved := 2 } else m) m
  { m with
    volume.changed := [], volume.extra := [], volume.ckptAt := m.clk.ticks, volume.again := false
    volume.ckpt := some ⟨drives, gen, 0⟩ }

/-- A checkpoint is over: its generation is in force. -/
def Module.endCkpt (m : Module) (c : Ckpt) : Module :=
  let m := slots.foldl (fun m k => if (m.sm k).saved = 2 then m.setSm k { m.sm k with saved := 3 } else m) m
  { m.wr pgStr STR_VOL_GEN.GENERATION c.gen with volume.ckpt := none }

/-- A checkpoint goes on as far as completed commands let it: each of its steps begins when the one before it has ended. -/
def Module.ckptAdvance (m : Module) : Nat → Module
  | 0 => m
  | fuel + 1 =>
    match m.volume.ckpt with
    | none => m
    | some c =>
      if m.ioPending then m
      else
        let next (m : Module) : Module := { m with volume.ckpt := some { c with phase := c.phase + 1 } }
        let flush (m : Module) : Module :=
          if m.lv pgStr STR_VOL_CFG.WRITE_CACHE = 1 then c.drives.foldl (fun m n => m.issue n .checkpoint m.strAct .flush) m else m
        match c.phase with
        | 0 => (next (flush m)).ckptAdvance fuel
        | 1 => (next (c.drives.foldl (fun m n => m.writeSuper n (m.freeSlot n (c.gen - 1)) (m.present c.gen)) m)).ckptAdvance fuel
        | 2 => (next (flush m)).ckptAdvance fuel
        | _ =>
          let m := m.endCkpt c
          if m.volume.again then m.beginCkpt.ckptAdvance fuel else m

/-- A checkpoint is asked for: it begins, or follows the one under way. -/
def Module.writeCheckpoint (m : Module) : Module :=
  if !m.volumeUp || m.powerFailing then m
  else if m.volume.ckpt.isSome then { m with volume.again := true }
  else m.beginCkpt.ckptAdvance 12

/-- CHECKPOINT (R379): CKPT_MS after the previous one began. -/
def execCheckpoint (s : State) : Host.Outcome State Fault Refusal :=
  .next (if s.m.volume.ckptAt + s.m.lv pgStr STR_VOL_CKPT.MS * 2000000 ≤ s.m.clk.ticks ∧ s.m.volume.ckpt = none then
    s.onM fun m => m.writeCheckpoint
  else s)

/-! ## Extents (R375, R377) -/

def Module.updExtent (m : Module) (i : Nat) (f : Extent → Extent) : Module :=
  { m with
    volume.table := (List.range m.volume.table.length).zip m.volume.table |>.map fun p => if p.1 = i then f p.2 else p.2
    volume.changed := if m.volume.changed.contains i then m.volume.changed else m.volume.changed ++ [i] }

/-- The open extents that satisfy a condition. -/
def Module.openExtents (m : Module) (p : Extent → Bool) : List Nat :=
  (((List.range m.volume.table.length).zip m.volume.table).filter fun e => e.2.state == 1 && p e.2).map Prod.fst

def Module.closeExtents (m : Module) (p : Extent → Bool) : Module :=
  (m.openExtents p).foldl (fun m i => m.updExtent i fun e => { e with state := 2, closeTime := m.now }) m

/-! ## Retirement (R369–R371) -/

/-- Some frame is still assigned to a port. -/
def Module.portBusy (m : Module) (n : Nat) : Bool :=
  slots.any fun k => (m.sm k).flying.any fun f => f.port == some n

/-- Once the last assigned frame of a retired drive has completed: extents, ledger, substitution entry, checkpoint (R370). -/
def Module.finishRetire (m : Module) (n : Nat) : Module :=
  match (m.pt n).retiring with
  | none => m
  | some (reason, joined) =>
    if m.portBusy n then m
    else
      let readOnly := bit (m.rd (pgNvp n) NVP_HEALTH.CRIT) 3
      let m := (m.setPt n { m.pt n with retiring := none }).closeExtents fun e => e.port == n
      let m := (m.saveWear n).updLedger n fun r =>
        { r with role := 3, reason := reason, retireWall := m.rd pgSaf SAF_WALL.SECONDS }
      let index (k : Nat) := ((m.ledgerOf k).map Prod.fst).getD 255
      let m := match joined with
        | some k =>
          ((m.updLedger k fun r => { r with role := 1 }).wr (pgNvp k) STATUS.SPARE_IN_USE 1).recordSubst 9 reason k (index n) (index k)
            (if reason = 1 then some (720 + n) else none)
        | none => m
      let m := m.clearSevere (720 + n)
      ({ m with volume.extra := if readOnly then m.volume.extra else m.volume.extra ++ [n] } : Module).writeCheckpoint

/-- Retire the drive of a port (R369–R371): REASON 1 FAULT_SEVERE, 2 WEAR, 3 MGT_REQUEST. -/
def Module.retire (m : Module) (n reason : Nat) : Module :=
  let role := m.roleOf n
  if (m.pt n).retiring.isSome || (role != 1 && role != 2) then m
  else
    let m := (m.raise pgStr 10).raise (pgNvp n) 13
    let m := m.wr pgStr STR_VOL_STATUS.RETIRED (m.rd pgStr STR_VOL_STATUS.RETIRED ||| 2 ^ n)
    if role = 2 then
      ((m.wr pgStr STR_VOL_STATUS.SPARE 15).setPt n { m.pt n with retiring := some (reason, none) }).finishRetire n
    else
      let active := m.rd pgStr STR_VOL_STATUS.ACTIVE
      let left := if bit active n then active - 2 ^ n else active
      let sp := m.sparePort
      let joins := sp < 8 && m.hasRole sp 2
      let m := if joins then
          ((m.wr pgStr STR_VOL_STATUS.ACTIVE (left ||| 2 ^ sp)).wr pgStr STR_VOL_STATUS.SPARE 15).raise pgStr 11
        else
          let m := ((m.wr pgStr STR_VOL_STATUS.ACTIVE left).raise pgStr 15).spareExhausted 24 9 n
          if m.mounted then m.wr pgStr STR_VOL_STATUS.STATE 3 else m
      let m := if joins then m.wr (pgNvp sp) NVP_DRIVE.ROLE 1 else m
      (m.setPt n { m.pt n with retiring := some (reason, if joins then some sp else none) }).finishRetire n

/-- NVP_RETIRE (R369): REQ is RM, so the management controller alone writes it. -/
def State.takeNvpRetire (s : State) (r : Requester) (n : Fin 8) : State :=
  (if r = .mgt then s.onM fun m => m.retire n 3 else s)

/-- The command: a write that does this. -/
def execNvpRetire (r : Requester) (n : Fin 8) (s : State) : Host.Outcome State Fault Refusal :=
  .next (s.via (.nvpRetire r n) r (pgNvp n) fun s => s.takeNvpRetire r n)

/-- What a poll reads (R368, R369). HEALTH_CRIT rises when Critical Warning is not zero (DEDUCED, log entry 40). -/
def Module.healthSeen (m : Module) (n pct crit temp : Nat) : Module :=
  let p := pgNvp n
  let m := ((m.wr p NVP_HEALTH.PCT_USED pct).wr p NVP_HEALTH.CRIT crit).wr p NVP_HEALTH.TEMP temp
  let m := if crit ≠ 0 then m.raise p 12 else m
  if m.rd pgStr STR_RETIRE.PCT ≤ pct ∨ bit crit 2 ∨ bit crit 3 then m.retire n 2 else m

/-- HEALTH_POLL (R368): POLL_S seconds after the previous one. -/
def execHealthPoll (n : Fin 8) (pct crit : Byte) (temp : BitVec 16) (s : State) : Host.Outcome State Fault Refusal :=
  .next (if (s.m.driveState n = 3 ∨ s.m.driveState n = 5)
      ∧ (s.m.pt n).polled + s.m.rd pgStr STR_RETIRE.POLL_S * 2000000000 ≤ s.m.clk.ticks then
    s.onM fun m => (m.setPt n { m.pt n with polled := m.clk.ticks }).healthSeen n pct.toNat crit.toNat temp.toNat
  else s)

/-! ## Streams: frames back to the queue, the end of a stream -/

/-- The frames of a list go back to the front of their streams' queues, in order, and their flights end. -/
def Module.requeue (m : Module) (l : List Frame) : Module :=
  slots.foldl (fun m k =>
    let mine := l.filter fun f => f.slot == k
    if mine = [] then m
    else
      let tags := mine.map Frame.tag
      m.setSm k { m.sm k with
        chunks := mine ++ (m.sm k).chunks, flying := (m.sm k).flying.filter fun x => !tags.contains x.frame.tag }) m

/-- The marker frame of a stream (R376). -/
def Module.marker (m : Module) (k kind : Nat) (data : List Byte) : Frame :=
  { tag := 0, slot := k, streamId := m.rd pgStr STR_ID.STREAM_ID k, kind := kind, flags := 0
    seq := m.rd pgStr STR_SEQ.SEQ k, rawLen := 64, recOfs := 0, act := m.strAct, region := 0, ofs := 0, data := pad 64 data
    capture := 0, segment := 0, notLane := none, notPort := none }

/-- Queue a marker frame. -/
def Module.queueMarker (m : Module) (k kind : Nat) (data : List Byte) : Module :=
  let f := m.marker k kind data
  (m.setSm k { m.sm k with chunks := (m.sm k).chunks ++ [f] }).step pgStr STR_SEQ.SEQ 1 k

/-- Once nothing of a stream that ends is waiting or in flight, its last marker is queued (R388, R389). -/
def Module.endStream (m : Module) (k : Nat) : Module :=
  let st := m.sm k
  match st.ending with
  | some kind =>
    if st.ended || st.chunks != [] || st.flying != [] then m
    else
      let data := leBytes 4 (m.rd pgStr STR_SEQ.SEQ k) ++ leBytes 4 st.written ++ leBytes 8 st.raw
        ++ leBytes 4 st.abandoned ++ leBytes 8 m.now
      (m.queueMarker k kind data).setSm k { (m.queueMarker k kind data).sm k with ended := true }
  | none => m

def Module.hq (m : Module) (q : Nat) : HostQ := m.hostif.queues.get HostQ.init q
def Module.setHq (m : Module) (q : Nat) (v : HostQ) : Module :=
  { m with hostif.queues := m.hostif.queues.set HostQ.init q v }

/-- A STREAM_RX buffer with frames in it is to complete: 256 + STATUS, when its completion is written (R487). -/
def Module.closeBuffer (m : Module) (q : Nat) : Module :=
  let h := m.hq q
  if h.cur.isSome && h.early == 0 && decide (0 < h.frames) then m.setHq q { h with early := 256 } else m

/-- The last marker of a stream has been written: its extents close, and a checkpoint follows (R388, R389). A stream to the
host has no part in the volume. -/
def Module.saveStream (m : Module) (k : Nat) : Module :=
  let st := m.sm k
  if st.ended && st.chunks == [] && st.flying == [] && st.saved == 0 then
    if m.lv pgStr STR_CFG.DEST k = 1 then m.setSm k { st with saved := 3 }
    else
      let id := m.rd pgStr STR_ID.STREAM_ID k
      ((m.setSm k { st with saved := 1 }).closeExtents fun e => e.stream == id).writeCheckpoint
  else m

/-- STREAM_CLOSED (R388, R389): after the last marker and its checkpoint the stream reads CLOSED, or STOPPED. -/
def execStreamClosed (stream : Fin 16) (s : State) : Host.Outcome State Fault Refusal :=
  let k := stream.val
  let st := s.m.sm k
  .next (if st.ended = true ∧ st.saved = 3 then
    s.onM fun m =>
      let m := if m.lv pgStr STR_CFG.DEST k = 1 then m.closeBuffer (m.lv pgStr STR_CFG.HOST_QUEUE k) else m
      let m := m.setSm k StreamSt.init
      (m.wr pgStr STR_STATUS.STATE (if st.ending = some 4 then 3 else 0) k).raise pgStr 9
  else s)

/-- READ of a capture advances past a segment, at the island of its writer. -/
def State.readAdvances (s : State) (c v : Nat) : State :=
  match s.m.released c v with
  | some n => s.advanceRead c v n
  | none => s

/-- Release the segments of a capture whose records are written, in order (R386). -/
def State.releaseWritten (s : State) (k c : Nat) : Nat → State
  | 0 => s
  | fuel + 1 =>
    match (s.m.sm k).records.find? fun r => r.capture == c with
    | some r =>
      if r.left ≠ 0 then s
      else
        let s := s.onM fun m => m.setSm k { m.sm k with records := (m.sm k).records.erase r }
        let v := if s.m.rd pgAcq ACQ_CAP_LEN.LEN c ≤ r.segment + 1 then 0 else r.segment + 1
        let isl := s.m.capIsland c
        let s := if isl = 24 then s.readAdvances c v else s.onM fun m => m.postMgt 24 isl .req (.readAdvance c v)
        s.releaseWritten k c fuel
    | none => s

/-- A frame has been written: its stream counts it, and READ may advance (R386). -/
def State.frameWritten (s : State) (f : Frame) (bytes : Nat) : State :=
  let k := f.slot
  let s := s.onM fun m =>
    let m := m.setSm k { m.sm k with flying := (m.sm k).flying.filter fun x => x.frame.tag != f.tag }
    m.step64 pgStr STR_WRITTEN_LO.BYTES STR_WRITTEN_HI.BYTES bytes k
  let s := if f.kind = 1 then
      let s := s.onM fun m =>
        let recs := (m.sm k).records.map fun r =>
          if r.capture = f.capture ∧ r.segment = f.segment then { r with left := r.left - 1 } else r
        let whole := recs.any fun r => r.capture == f.capture && r.segment == f.segment && r.left == 0
        let m := m.setSm k { m.sm k with records := recs, written := (m.sm k).written + flag whole 0 }
        if whole then m.bump pgStr STR_RECORDS.RECORDS 1 k else m
      s.releaseWritten k f.capture ((s.m.sm k).records.length + 1)
    else s
  s.onM fun m => (m.endStream k).saveStream k

/-! ## The link and the drive (R362–R366) -/

/-- A failed command (R366). -/
def Module.ioFailed (m : Module) (n opcode sct sc : Nat) : Module :=
  let p := pgNvp n
  let m := ((m.bump p NVP_IO.ERRORS).wr p NVP_LAST_ERR.OPCODE opcode).wr p NVP_LAST_ERR.SCT sct
  ((m.wr p NVP_LAST_ERR.SC sc).raise p 10).report (37 + n) (720 + n)

/-- A command of a placed frame is over. The port tells the stream engine of a frame that is written, and of one that failed
(R361). -/
def Module.frameStep (m : Module) (n tag : Nat) (ok : Bool) : Module :=
  match (m.pt n).placed.find? fun x => x.frame.tag == tag with
  | none => m
  | some x =>
    let m := m.setPt n { m.pt n with placed := (m.pt n).placed.map fun y =>
      if y.frame.tag = tag then { y with cmds := y.cmds - 1, failed := y.failed || !ok } else y }
    if x.failed then m
    else if !ok then m.postMgt (37 + n) 24 .cpl (.frameFailed tag)
    else if x.cmds = 1 then m.postMgt (37 + n) 24 .cpl (.frameDone tag)
    else m

/-- A command is over. -/
def Module.cmdOver (m : Module) (n : Nat) (c : OutCmd) (ok : Bool) : Module :=
  match c.owner with
  | .frame tag => m.frameStep n tag ok
  | .super slot b =>
    if !ok then m else if slot = 0 then m.setPt n { m.pt n with super0 := some b } else m.setPt n { m.pt n with super1 := some b }
  | .volume => if ok then m else { m with volume.job := m.volume.job.map fun j => { j with failed := true } }
  | .checkpoint => m

/-- Every command in flight is lost. -/
def Module.losesOut (m : Module) (n : Nat) : Module :=
  let l := (m.pt n).out
  l.foldl (fun m c => m.cmdOver n c false) (m.setPt n { m.pt n with out := [] })

/-- The drive becomes ABSENT (R362, R366): commands in flight fail, those not yet issued are gone, and frames not yet placed go
elsewhere. -/
def Module.driveLost (m : Module) (n : Nat) : Module :=
  let p := pgNvp n
  let m := (m.pt n).out.foldl (fun m c => m.ioFailed n c.cmd.opcode 0 0xFF) m
  let waiting := (m.pt n).todo
  let m := waiting.foldl (fun m c => m.cmdOver n c false) ((m.setPt n { m.pt n with todo := [] }).losesOut n)
  let placed := (m.pt n).placed.map fun x => x.frame.tag
  let mine := slots.flatMap fun k => ((m.sm k).flying.filter fun x =>
    x.port == some n && !placed.contains x.frame.tag).map Flight.frame
  let m := m.requeue (mine.map fun f => { f with notPort := some n })
  let m := m.setPt n { m.pt n with info := none, queue := [], payloads := [] }
  let m := ((m.wr p NVP_DRIVE.STATE 0).wr p NVP_DRIVE.LEDGER 255).wr p NVP_DRIVE.ROLE 0
  ((m.wr p NVP_LINK.UP 0).wr p NVP_LINK.SPEED 0).wr p NVP_LINK.WIDTH 0

/-! ## Volume commands (R372, R380, R381, R393) -/

def Module.cmdDone (m : Module) (result : Nat) : Module := (m.wr pgStr STR_VOL_STATUS.RESULT result).raise pgStr 8

/-- Some stream is open or closing. -/
def Module.streamOpen (m : Module) : Bool :=
  slots.any fun k => m.rd pgStr STR_STATUS.STATE k == 1 || m.rd pgStr STR_STATUS.STATE k == 2

/-- The admitted drives in MEMBERS. -/
def Module.admitted (m : Module) : List Nat :=
  ports.filter fun n => bit (m.lv pgStr STR_VOL_CFG.MEMBERS) n && (m.driveState n == 3 || m.driveState n == 5)

def newer (a b : Option Superblock) : Option Superblock :=
  match a, b with
  | some x, some y => if x.generation < y.generation then b else a
  | some _, none => a
  | none, _ => b

def Module.newestSuper (m : Module) (n : Nat) : Option Superblock := newer (m.pt n).super0 (m.pt n).super1

/-- The first block past a port's extents. -/
def allocOf (table : List Extent) (n : Nat) : Nat :=
  table.foldl (fun a e => if e.port = n then Nat.max a (e.firstLba + e.blocks) else a) 16640

def Module.nsze (m : Module) (n : Nat) : Nat := m.rd64 (pgNvp n) NVP_NSZE_LO.BLOCKS NVP_NSZE_HI.BLOCKS
def Module.alloc (m : Module) (n : Nat) : Nat := m.rd64 (pgNvp n) NVP_ALLOC_LO.LBA NVP_ALLOC_HI.LBA

/-- FULL of the volume: every member is FULL (R378). -/
def Module.refreshFull (m : Module) : Module :=
  let l := ports.filter m.isMember
  let now_ := l != [] && l.all fun n => (m.pt n).full
  let was := m.rd pgStr STR_VOL_STATUS.FULL == 1
  let m := m.wr pgStr STR_VOL_STATUS.FULL now_.toNat
  if now_ && !was then m.raise pgStr 12 else m

/-- Place a drive in the volume: its role, its volume, its allocation and FULL. -/
def Module.joinVolume (m : Module) (n role : Nat) : Module :=
  let a := allocOf m.volume.table n
  let m := m.updLedger n fun r => { r with role := role, volume := m.volumeId, reason := 0, retireWall := 0 }
  let m := (m.wr64 (pgNvp n) NVP_ALLOC_LO.LBA NVP_ALLOC_HI.LBA a).wr (pgNvp n) NVP_DRIVE.STATE 3
  m.setPt n { m.pt n with full := decide (m.nsze n < a + m.volume.extBlocks) }

def maskOf (l : List Nat) : Nat := (l.map fun n => 2 ^ n).sum

/-- A volume command begins: the volume is BUSY. -/
def Module.beginJob (m : Module) (c : VolCmd) (state : Nat) : Module :=
  ({ m with volume.job := some ⟨c, false, false, state⟩ } : Module).wr pgStr STR_VOL_STATUS.STATE 1

/-- The frames past USED of an extent that was OPEN, as far as they are valid (R380): the accepted ones are counted. -/
def Extent.recover (e : Extent) : List (List Byte) → Extent
  | [] => e
  | l :: rest =>
    match parseFrame l with
    | none => e
    | some h =>
      if h.stream ≠ e.stream ∨ (h.payload l).isNone ∨ (e.frames ≠ 0 ∧ h.seq ≤ e.lastSeq) ∨ e.blocks < e.used + h.blocks then e
      else
        ({ e with used := e.used + h.blocks, frames := e.frames + 1
                  firstSeq := if e.frames = 0 then h.seq else e.firstSeq, lastSeq := h.seq } : Extent).recover rest

/-- The extent table that a MOUNT loads: valid entries, OPEN ones recovered and closed. An entry that is not valid holds
nothing. -/
def mountExtents (a : MountRead) (volumeId now : Nat) : List Extent :=
  ((List.range a.table.length).zip a.table).map fun p =>
    match parseExtent volumeId p.2 with
    | none => ⟨0, 2, 0, 0, 0, 0, 0, 0, 0, 0, 0⟩
    | some e =>
      if e.state = 1 then { e.recover (((a.found.find? fun f => f.1 == p.1).map Prod.snd).getD []) with state := 2, closeTime := now }
      else e

/-- The record of a port's drive in a superblock. -/
def Module.superRec (m : Module) (n : Nat) (b : Superblock) : Option DriveRec :=
  (m.pt n).info.bind fun d => (b.drives.filterMap id).find? fun r => r.matches d

/-- The role of a port's drive in the volume of a superblock: RETIRED where either record says so. -/
def Module.mountRole (m : Module) (n : Nat) (b : Superblock) : Nat :=
  let own := m.roleOf n
  match m.superRec n b with
  | some r => if own = 3 ∨ r.role = 3 then 3 else r.role
  | none => own

/-- MOUNT, steps 1 to 6 (R380). -/
def Module.loadVolume (m : Module) (a : MountRead) (b : Superblock) : Module :=
  let drives := m.admitted
  let of_ := drives.filter fun n => (m.newestSuper n).any fun x => x.volumeId == b.volumeId
  let foreign := drives.filter fun n => (m.newestSuper n).any fun x => x.volumeId != b.volumeId
  let retired := of_.filter fun n => m.mountRole n b == 3
  let spares := of_.filter fun n => m.mountRole n b == 2
  let members := of_.filter fun n => m.mountRole n b != 3 && m.mountRole n b != 2
  let table := mountExtents a b.volumeId m.now
  let closed := (List.range table.length).filter fun i =>
    ((a.table[i]?).bind (parseExtent b.volumeId)).any fun e => e.state == 1
  let named := (b.drives.filterMap id).filter fun r => r.role == 1
  let absent := named.any fun r => !members.any fun n => ((m.pt n).info).any r.matches
  let m : Module := { m with
    volume.table := table, volume.changed := closed, volume.extBlocks := b.extBlocks, volume.nextStream := b.nextStream }
  let m := m.wr64 pgStr STR_VOL_ID_LO.ID STR_VOL_ID_HI.ID b.volumeId
  let m := foreign.foldl (fun m n => m.wr (pgNvp n) NVP_DRIVE.STATE 5) m
  let m := members.foldl (fun m n => m.joinVolume n 1) m
  let m := spares.foldl (fun m n => m.joinVolume n 2) m
  let m := ((m.wr pgStr STR_VOL_STATUS.ACTIVE (maskOf members)).wr pgStr STR_VOL_STATUS.RETIRED (maskOf retired)).wr
    pgStr STR_VOL_STATUS.SPARE (spares.headD 15)
  let m := m.wr pgStr STR_VOL_GEN.GENERATION b.generation
  ({ m with volume.job := m.volume.job.map fun j => { j with loaded := true, state := if absent then 3 else 2 } } : Module).refreshFull

/-- A volume command is over: RESULT, its STATE and CMD_DONE. -/
def Module.endJob (m : Module) (j : VolJob) (result : Nat) : Module :=
  ({ m with volume.job := none }.wr pgStr STR_VOL_STATUS.STATE j.state).cmdDone result

/-- A volume command goes on as far as completed commands let it. -/
def Module.jobAdvance (m : Module) : Nat → Module
  | 0 => m
  | fuel + 1 =>
    match m.volume.job with
    | none => m
    | some j =>
      if m.ioPending || m.volume.ckpt.isSome then m
      else
        match j.cmd with
        | .mount none => m
        | .mount (some a) =>
          if j.failed && !j.loaded then m.endJob j 4
          else if j.loaded then m.endJob j (if j.failed then 4 else 0)
          else
            match m.admitted.foldl (fun b n => newer b (m.newestSuper n)) none with
            | none => m.endJob j 1
            | some b => ((m.loadVolume a b).beginCkpt.ckptAdvance 12).jobAdvance fuel
        | .format => m.endJob j (if j.failed then 4 else 0)
        | .adopt n =>
          if j.failed then m.endJob j 4
          else
            let ret := m.rd pgStr STR_VOL_STATUS.RETIRED
            let m := m.wr pgStr STR_VOL_STATUS.RETIRED (if bit ret n then ret - 2 ^ n else ret)
            let m := (m.wlv pgStr STR_VOL_CFG.SPARE_PORT n).wsh pgStr STR_VOL_CFG.SPARE_PORT n
            (m.wr pgStr STR_VOL_STATUS.SPARE n).endJob j 0

/-- What waits for commands of the drives goes on. -/
def Module.ioAdvance (m : Module) : Module := (m.ckptAdvance 12).jobAdvance 3

/-- A MOUNT reads both superblock slots of every admitted drive in MEMBERS, and the extent table of the drive that holds the
newest generation (R380). -/
def Module.mountReads (m : Module) : Module :=
  let drives := m.admitted
  let m := drives.foldl (fun m n => m.issue n .volume m.strAct (.read 0 2)) m
  let best := drives.foldl (fun b n => newer b (m.newestSuper n)) none
  match best, drives.find? fun n => m.newestSuper n == best with
  | some b, some n => m.issue n .volume m.strAct (.read 256 (ceilDiv b.extents 64))
  | _, _ => m

/-- MOUNT (R380): what the drives answer comes with the command, or with a later one where a register write began it. -/
def State.takeMount (s : State) (read : Option MountRead) : State :=
  (s.onM fun m =>
    if !m.feature 5 then m.cmdDone 5
    else
      match m.volume.job with
      | some j =>
        (match j.cmd with
          | .mount none => ({ m with volume.job := some { j with cmd := .mount read } } : Module).ioAdvance
          | _ => m)
      | none =>
        if m.streamOpen then m.cmdDone 2
        else ((m.beginJob (.mount read) 0).mountReads).ioAdvance)

/-- The command: a write that does this. -/
def execMount (r : Requester) (read : MountRead) (s : State) : Host.Outcome State Fault Refusal :=
  .next (s.via (.mount r read) r pgStr fun s => s.takeMount (some read))

/-- UNMOUNT (R393). -/
def State.takeUnmount (s : State) : State :=
  (s.onM fun m =>
    if m.volume.job.isSome then m
    else if !m.feature 5 || !m.mounted then m.cmdDone 5
    else if m.streamOpen then m.cmdDone 2
    else
      let m := ((m.wr pgStr STR_VOL_STATUS.STATE 0).wr pgStr STR_VOL_STATUS.ACTIVE 0).wr pgStr STR_VOL_STATUS.RETIRED 0
      ((m.wr pgStr STR_VOL_STATUS.SPARE 15).wr pgStr STR_VOL_STATUS.FULL 0).cmdDone 0)

/-- The command: a write that does this. -/
def execUnmount (r : Requester) (s : State) : Host.Outcome State Fault Refusal :=
  .next (s.via (.unmount r) r pgStr fun s => s.takeUnmount)

/-- FORMAT, steps 2 to 5 (R381). The derivation of VOLUME_ID is not given: a free value (log entry 3). -/
def Module.formatVolume (m : Module) : Module :=
  let drives := m.admitted
  let sp := m.lv pgStr STR_VOL_CFG.SPARE_PORT
  let members := drives.filter fun n => n != sp
  let (k, m) := m.draw 1
  let m := { m with
    volume.table := [], volume.changed := [], volume.nextStream := 1, volume.extBlocks := m.lv pgStr STR_VOL_EXTENT.BLOCKS }
  let m := (m.wr64 pgStr STR_VOL_ID_LO.ID STR_VOL_ID_HI.ID (Config.free k % 2 ^ 64)).wr pgStr STR_VOL_GEN.GENERATION 1
  let m := drives.foldl (fun m n => m.joinVolume n (if n = sp then 2 else 1)) m
  let m := drives.foldl (fun m n =>
    let m := if m.rd (pgNvp n) NVP_CAPS.DSM = 1 then m.issue n .volume m.strAct (.deallocate 16640 (m.nsze n - 16640)) else m
    (m.issue n .volume m.strAct (.zeros 2 16638)).writeSuper n 0 (m.present 1)) m
  let m := ((m.wr pgStr STR_VOL_STATUS.ACTIVE (maskOf members)).wr pgStr STR_VOL_STATUS.RETIRED 0).wr
    pgStr STR_VOL_STATUS.SPARE (if drives.contains sp then sp else 15)
  m.refreshFull

/-- FORMAT (R381): the volume is mounted afterwards (DEDUCED, log entry 41). -/
def State.takeFormat (s : State) : State :=
  (s.onM fun m =>
    if m.volume.job.isSome then m
    else if !m.feature 5 then m.cmdDone 5
    else if m.streamOpen then m.cmdDone 2
    else if m.admitted = [] then m.cmdDone 1
    else ((m.formatVolume).beginJob .format 2).ioAdvance)

/-- The command: a write that does this. -/
def execFormat (r : Requester) (s : State) : Host.Outcome State Fault Refusal :=
  .next (s.via (.format r) r pgStr fun s => s.takeFormat)

/-- The drive's superblock and the whole extent table area go to a drive that is adopted (R372). -/
def Module.adoptDrive (m : Module) (n : Nat) : Module :=
  let gen := m.rd pgStr STR_VOL_GEN.GENERATION
  let used := ceilDiv m.volume.table.length 64
  let m := m.joinVolume n 2
  let m := (List.range used).foldl (fun m k => m.issue n .volume m.strAct (.write (256 + k) (m.tableBlock k))) m
  (m.issue n .volume m.strAct (.zeros (256 + used) (16384 - used))).writeSuper n 0 (m.present gen)

/-- ADOPT (R372): the drive in a port becomes the volume's spare. -/
def State.takeAdopt (s : State) (port : Fin 16) : State :=
  let n := port.val
  (s.onM fun m =>
    if m.volume.job.isSome then m
    else if !m.feature 5 || !m.mounted then m.cmdDone 5
    else if 8 ≤ n ∨ (m.driveState n ≠ 3 ∧ m.driveState n ≠ 5) ∨ m.isMember n = true then m.cmdDone 4
    else if ((m.newestSuper n).any fun b => b.volumeId != m.volumeId) && m.roleOf n != 3 then m.cmdDone 3
    else
      let state := m.volState
      ((m.adoptDrive n).beginJob (.adopt n) state).ioAdvance)

/-- The command: a write that does this. -/
def execAdopt (r : Requester) (port : Fin 16) (s : State) : Host.Outcome State Fault Refusal :=
  .next (s.via (.adopt r port) r pgStr fun s => s.takeAdopt port)

/-! ## Events of the link and of the drive (R362–R366) -/

/-- PRESENT_CHANGE (R362): PRSNT_N and the link. A port that is not enabled holds the drive in reset. -/
def execPresentChange (n : Fin 8) (present : Bool) (link : Option (Fin 6 × Fin 5)) (s : State) :
    Host.Outcome State Fault Refusal :=
  .next (s.onM fun m =>
    let p := pgNvp n
    let old := m.driveState n
    if m.lv p NVP_CFG.EN = 0 then m
    else
      let up := match link with
        | some (sp, w) => present && sp.val != 0 && (w.val == 1 || w.val == 2 || w.val == 4)
        | none => false
      let m := if up then
          let m := (m.wr p NVP_LINK.UP 1).wr p NVP_LINK.SPEED
            (Nat.min ((link.map fun l => l.1.val).getD 0) (m.lv p NVP_CFG.MAX_SPEED))
          let m := m.wr p NVP_LINK.WIDTH ((link.map fun l => l.2.val).getD 0)
          if old < 2 then m.wr p NVP_DRIVE.STATE 2 else m
        else if old = 0 ∧ present = true then m.wr p NVP_DRIVE.STATE 1
        else if old = 0 ∨ (old = 1 ∧ present = true) then m
        else (m.driveLost n).ioAdvance
      if (old == 0) != (m.driveState n == 0) then m.raise p 8 else m)

/-- The first failing code of R364, the ledger aside. -/
def Module.refuses (m : Module) (d : DriveInfo) : Nat :=
  if ¬ d.rdyInTime then 1 else if d.mpsMin ≠ 0 then 2 else if ¬ d.identifyOk then 3 else if d.nsCount ≠ 1 then 4
  else if ¬ d.lba4k then 5 else if d.nsze < 16640 + m.volume.extBlocks then 6
  else if d.xferKiB ≠ 0 ∧ d.xferKiB < 128 then 7 else if d.queues < 4 then 8 else 0

/-- DRIVE_ADMISSION (R364, R367, R368). -/
def execDriveAdmission (n : Fin 8) (d : DriveInfo) (s : State) : Host.Outcome State Fault Refusal :=
  .next (if s.m.driveState n = 2 then
    s.onM fun m =>
      let p := pgNvp n
      let code := if m.refuses d = 0 ∧ m.ledgerFor d = none then 9 else m.refuses d
      if code ≠ 0 then ((m.wr p NVP_DRIVE.REFUSE code).wr p NVP_DRIVE.STATE 4).raise p 9
      else
        match m.ledgerFor d with
        | some (known, i) =>
          let m := m.setPt n { m.pt n with
            info := some d, super0 := parseSuper d.super0, super1 := parseSuper d.super1, polled := m.clk.ticks }
          let fresh : DriveRec := ⟨d.serial, d.model, d.nguid, d.eui64, 0, 0, 0, n, 0, m.rd pgSaf SAF_WALL.SECONDS, 0, 0⟩
          let r := if known then (m.drec i).getD fresh else fresh
          let m := m.setDrec i { r with port := n, pct := d.pctUsed }
          let m := ((m.wr p NVP_DRIVE.LEDGER i).wr p NVP_DRIVE.ROLE r.role).wr p NVP_DRIVE.REFUSE 0
          let m := (m.wr p NVP_DRIVE.STATE 3).wr64 p NVP_NSZE_LO.BLOCKS NVP_NSZE_HI.BLOCKS d.nsze
          let m := m.wr p NVP_CAPS.MAX_XFER (if d.xferKiB = 0 then 65535 else Nat.min d.xferKiB 65535)
          let m := (m.wr p NVP_CAPS.DSM d.hasDsm.toNat).wr p NVP_CAPS.VWC d.hasVwc.toNat
          let m := m.wr p NVP_CAPS.VWC_ON (d.hasVwc && m.lv pgStr STR_VOL_CFG.WRITE_CACHE == 1).toNat
          let m := m.wr64 p NVP_WRITTEN_LO.BYTES NVP_WRITTEN_HI.BYTES r.written
          m.healthSeen n d.pctUsed d.crit d.temp
        | none => m
  else s)

/-- NVME_COMMAND_COMPLETION (R366): of the oldest command in flight with this opcode; an Admin command has no other effect than
its failure. -/
def execNvmeCommandCompletion (n : Fin 8) (opcode : Byte) (sct : Fin 8) (sc : Byte) (s : State) :
    Host.Outcome State Fault Refusal :=
  .next (if 2 ≤ s.m.driveState n then
    s.onM fun m =>
      let ok := sct.val == 0 && sc == 0
      let m := if ok then m else m.ioFailed n opcode.toNat sct sc.toNat
      match (m.pt n).out.find? fun c => c.cmd.opcode == opcode.toNat with
      | some c =>
        ((m.setPt n { m.pt n with out := (m.pt n).out.erase c }).cmdOver n c ok).ioAdvance
      | none => m
  else s)

/-- NVME_COMMAND_TIMEOUT (R365, R366): a command has been in flight for 5 s. The port resets the controller, so every command in
flight is lost, and the drive is admitted again. -/
def execNvmeCommandTimeout (n : Fin 8) (opcode : Byte) (s : State) : Host.Outcome State Fault Refusal :=
  .next (if 2 ≤ s.m.driveState n ∧ (s.m.pt n).out.any (fun c =>
      c.cmd.opcode == opcode.toNat && decide (c.since + 10000000000 ≤ s.m.clk.ticks)) = true then
    s.onM fun m =>
      let m := (m.ioFailed n opcode.toNat 0 0xFF).bump (pgNvp n) NVP_IO.TIMEOUTS
      (((m.raise (pgNvp n) 11).losesOut n).wr (pgNvp n) NVP_DRIVE.STATE 2).ioAdvance
  else s)

/-! ## Records, chunks and frames (R383–R387) -/

/-- The open stream that takes a capture. -/
def Module.streamOfCap (m : Module) (c : Nat) : Option Nat :=
  slots.find? fun k => m.rd pgStr STR_STATUS.STATE k == 1 && bit (m.lv pgStr STR_CAPTURES.CAPTURES k) c

/-- RECORD_READY (R383): the record is divided into chunks of 1,044,480 bytes with consecutive SEQ numbers. -/
def execRecordReady (d : Input) (s : State) : Host.Outcome State Fault Refusal :=
  .next (match s.m.arrival (24 + d.val) 24 with
    | some (.recordReady note) =>
      let s := s.onM fun m => m.takeArrival (24 + d.val) 24
      match s.m.streamOfCap note.capture with
      | none => s
      | some k =>
        let len := note.len
        let n := ceilDiv len 1044480
        s.onM fun m =>
          let st := m.sm k
          let seq := m.rd pgStr STR_SEQ.SEQ k
          let chunk (i : Nat) : Frame := {
            m.marker k 1 [] with
            flags := flag (m.lv pgStr STR_CFG.ENCODING k == 0) 0 + flag (i == 0) 1 + flag (i + 1 == n) 2
            seq := seq + i, rawLen := Nat.min 1044480 (len - 1044480 * i), recOfs := 255 * i
            act := m.cap_ note.capture ACQ_CAP_REGION.DRAIN_ACT, region := note.region, ofs := note.segOfs + 1044480 * i
            data := [], capture := note.capture, segment := note.segment }
          let m := m.setSm k { st with
            records := st.records ++ [⟨note.capture, note.segment, n⟩], chunks := st.chunks ++ (List.range n).map chunk
            raw := st.raw + len }
          (m.wr pgStr STR_SEQ.SEQ (seq + n) k).step64 pgStr STR_RAW_LO.BYTES STR_RAW_HI.BYTES len k
    | _ => s)

/-- The jobs that a lane has queued or that are on their way to it. -/
def Module.laneLoad (m : Module) (l : Nat) : Nat :=
  (m.lane l).queue.length + ((m.net.transit ++ m.net.arrived).filter fun e =>
    match e.body with
    | .job k _ => k == l
    | _ => false).length

/-- The lanes that may encode a frame. -/
def Module.lanesFor (m : Module) (k : Nat) (not : Option Nat) : List Nat :=
  (List.range 32).filter fun l => bit (m.lv pgStr STR_LANES.LANES k) l && !(m.lane l).failed && not != some l

/-- The best of a list by a measure, the lowest number on ties. -/
def least (f : Nat → Nat) (l : List Nat) : Option Nat :=
  l.foldl (fun b n => match b with
    | none => some n
    | some k => if f n < f k then some n else b) none

/-- The lane for a frame: the fewest queued jobs, with room. -/
def Module.laneFor (m : Module) (k : Nat) (not : Option Nat) : Option Nat :=
  least m.laneLoad ((m.lanesFor k not).filter fun l => decide (m.laneLoad l < 4))

/-- Frames assigned to a port and not yet written. -/
def Module.slotsUsed (m : Module) (n : Nat) : Nat :=
  (slots.map fun k => ((m.sm k).flying.filter fun x => x.port == some n).length).sum

/-- The port for a frame: a member that is not full, with the most free slots. -/
def Module.portFor (m : Module) (k : Nat) (not : Option Nat) : Option Nat :=
  least m.slotsUsed (ports.filter fun n => bit (m.lv pgStr STR_PORTS.PORTS k) n && m.isMember n && m.hasRole n 1
    && !(m.pt n).full && (m.pt n).retiring.isNone && not != some n && decide (m.slotsUsed n < 4))

/-- Send the job of a frame to a lane. -/
def Module.sendJob (m : Module) (f : Frame) (port : Option Nat) (l : Nat) : Module :=
  let dst := match port with
    | some n => 64 + n
    | none => 128 + m.lv pgStr STR_CFG.HOST_QUEUE f.slot
  m.postMgt 24 (m.laneIsland l) .req (.job l ⟨true, f.region, f.ofs, f.rawLen, dst, 0, f.tag, f.act⟩)

/-- CHUNK_ASSIGN (R384): a frame whose job must run again, else the next one. -/
def execChunkAssign (stream : Fin 16) (s : State) : Host.Outcome State Fault Refusal :=
  let k := stream.val
  .next (if s.m.powerFailing then s
  else s.onM fun m =>
    let st := m.sm k
    match st.flying.find? fun x => x.needLane with
    | some x =>
      match m.laneFor k x.frame.notLane with
      | some l =>
        (m.setSm k { st with flying := st.flying.map fun y =>
          if y.frame.tag = x.frame.tag then { y with lane := some l, needLane := false } else y }).sendJob x.frame x.port l
      | none => m
    | none =>
      match st.chunks with
      | [] => m
      | f :: rest =>
        let deflated := f.kind == 1 && bit f.flags 0
        let host := m.lv pgStr STR_CFG.DEST k == 1
        let lane := m.laneFor k f.notLane
        let port := m.portFor k f.notPort
        if (deflated && lane.isNone) || (!host && port.isNone) then m
        else
          let f := { f with tag := m.volume.tag }
          let m := { m with volume.tag := m.volume.tag + 1 }
          let port := if host then none else port
          let lane := if deflated then lane else none
          let m := m.setSm k { st with chunks := rest, flying := st.flying ++ [⟨f, port, lane, false⟩] }
          let m := match port with
            | some n => m.postMgt 24 (37 + n) .req (.frame f)
            | none => m.postMgt 24 36 .req (.hostFrame (m.lv pgStr STR_CFG.HOST_QUEUE k) f)
          match lane with
          | some l => m.sendJob f port l
          | none => m)

/-- A completion of a lane at the stream engine (R384): after LANE_FAULT or LANE_FAILED the chunk runs again on another
lane; when none is left its frame carries LANE_FAULT. A refused job (4 QUEUE_FULL, 5 RANGE) is offered again. -/
def Module.strJobDone (m : Module) (lane tag status : Nat) : Module :=
  match slots.find? fun k => (m.sm k).flying.any fun x => x.frame.tag == tag && x.lane == some lane with
  | none => m
  | some k =>
    let upd (m : Module) (g : Flight → Flight) : Module :=
      m.setSm k { m.sm k with flying := (m.sm k).flying.map fun x => if x.frame.tag = tag then g x else x }
    if status < 2 then m
    else if status = 4 ∨ status = 5 then upd m fun x => { x with lane := none, needLane := true }
    else if status = 3 ∨ m.lanesFor k (some lane) ≠ [] then
      (upd m fun x => { x with lane := none, needLane := true, frame.notLane := some lane }).bump pgStr
        STR_REISSUE.LANE_FAULTS 1 k
    else
      let m := upd m fun x => { x with frame.flags := x.frame.flags ||| 32 }
      match (m.sm k).flying.find? fun x => x.frame.tag == tag with
      | some x =>
        match x.port with
        | some n => m.postMgt 24 (37 + n) .req (.frame x.frame)
        | none => m.postMgt 24 36 .req (.hostFrame (m.lv pgStr STR_CFG.HOST_QUEUE k) x.frame)
      | none => m

/-- A frame is still assigned to a port. -/
def Module.inFlight (m : Module) (tag : Nat) (port : Option Nat) : Bool :=
  slots.any fun k => (m.sm k).flying.any fun x => x.frame.tag == tag && x.port == port

/-- Put a descriptor in a queue, or renew it (R361: matched by TAG). -/
def addFrame (l : List Frame) (f : Frame) : List Frame :=
  if l.any fun g => g.tag == f.tag then l.map fun g => if g.tag = f.tag then f else g else l ++ [f]

/-- Put a payload in a list; it replaces an earlier one of its tag. -/
def addPayload (l : List Payld) (p : Payld) : List Payld := (l.filter fun q => q.tag != p.tag) ++ [p]

/-- A descriptor reaches a port. -/
def Module.portFrame (m : Module) (n : Nat) (f : Frame) : Module :=
  if m.inFlight f.tag (some n) then m.setPt n { m.pt n with queue := addFrame (m.pt n).queue f } else m

/-- A payload reaches a port. -/
def Module.portPayload (m : Module) (n : Nat) (p : Payld) : Module :=
  if m.inFlight p.tag (some n) then m.setPt n { m.pt n with payloads := addPayload (m.pt n).payloads p } else m

/-- The flags, the CRC of the raw bytes, and the payload of a frame, once they are there: a marker's own bytes, the bytes
of HBM for ENCODING NONE, a lane's payload otherwise. `unit` reads and moves them for an island as the budget of the frame's
activity takes it, `extra` included (R390). -/
def State.frameData (s : State) (isl unit : Nat) (extra : List (List (Nat × Nat))) (l : List Payld) (f : Frame) :
    State × Option (Frame × Nat × List Byte) :=
  let raw := f.kind = 1 ∧ bit f.flags 0 = false
  let from_ := l.find? fun p => p.tag == f.tag && (!p.fault || bit f.flags 5)
  if f.kind = 1 ∧ bit f.flags 0 = true ∧ from_ = none then (s, none)
  else
    let g := s.m.region f.region
    let (passed, m) := s.m.letThrough unit f.act ((if raw then g.readMsgs isl f.ofs f.rawLen else []) ++ extra)
    let s : State := { s with m := m }
    if ¬ passed then (s, none)
    else if f.kind ≠ 1 then (s, some (f, crc32c f.data, f.data))
    else
      match from_ with
      | some p =>
        if raw then
          let (d, bad, s) := s.checkedRead isl f.region f.ofs f.rawLen
          (s, some ({ f with flags := f.flags ||| flag bad 3 ||| flag (!g.holds f.ofs f.rawLen) 4 }, crc32c d, d))
        else (s, some ({ f with flags := f.flags ||| flag p.poisoned 3 ||| flag p.unmapped 4 }, p.rawCrc, p.data))
      | none =>
        let (d, bad, s) := s.checkedRead isl f.region f.ofs f.rawLen
        (s, some ({ f with flags := f.flags ||| flag bad 3 ||| flag (!g.holds f.ofs f.rawLen) 4 }, crc32c d, d))

/-- The extent that takes `blocks` more blocks of a stream on a port, opened if need be; none when the drive is FULL. -/
def Module.extentFor (m : Module) (n id blocks : Nat) : Option (Nat × Module) :=
  let taken (i : Nat) (e : Extent) : Nat :=
    e.used + (((m.pt n).placed.filter fun x => x.extent == i).map Placed.blocks).sum
  let open_ := m.openExtents fun e => e.stream == id && e.port == n
  match open_.find? fun i => (m.volume.table[i]?).any fun e => decide (taken i e + blocks ≤ e.blocks) with
  | some i => some (i, m)
  | none =>
    let m := m.closeExtents fun e => e.stream == id && e.port == n
    let a := m.alloc n
    if m.nsze n < a + m.volume.extBlocks ∨ 1048576 ≤ m.volume.table.length then none
    else
      let i := m.volume.table.length
      let e : Extent := ⟨id, 1, n, a, m.volume.extBlocks, 0, 0, 0, 0, m.now, 0⟩
      some (i, ({ m with volume.table := m.volume.table ++ [e], volume.changed := m.volume.changed ++ [i] } : Module).wr64
        (pgNvp n) NVP_ALLOC_LO.LBA NVP_ALLOC_HI.LBA (a + m.volume.extBlocks))

/-- FRAME_PLACEMENT (R377, R378): the next frame of a port, when its payload is there. -/
def execFramePlacement (n : Fin 8) (s : State) : Host.Outcome State Fault Refusal :=
  .next (if s.m.driveState n ≠ 3 ∨ s.m.powerFailing = true then s
  else
    match (s.m.pt n).queue with
    | [] => s
    | f :: rest =>
      match s.frameData (37 + n) (6160 + n) [] (s.m.pt n).payloads f with
      | (s, none) => s
      | (s, some (g, crc, data)) =>
        let all := g.bytes crc data
        let blocks := all.length / 4096
        s.onM fun m =>
          let m := m.setPt n { m.pt n with queue := rest, payloads := (m.pt n).payloads.filter fun q => q.tag != f.tag }
          match m.extentFor n f.streamId blocks with
          | none =>
            ((m.setPt n { m.pt n with full := true }).closeExtents fun e => e.stream == f.streamId && e.port == n.val)
              |>.requeue [f] |>.refreshFull
          | some (i, m) =>
            let e := (m.volume.table[i]?).getD ⟨0, 0, 0, 0, 0, 0, 0, 0, 0, 0, 0⟩
            let lba := e.firstLba + e.used + (((m.pt n).placed.filter fun x => x.extent == i).map Placed.blocks).sum
            let cmds := ((DriveCmd.write lba all).split (m.xfer n)).length
            let m := m.setPt n { m.pt n with placed := (m.pt n).placed ++ [⟨g, i, lba, blocks, cmds, false, false⟩] }
            m.issue n (.frame g.tag) f.act (.write lba all))

/-- The written frames at the head of an extent count in it: USED covers a frame only when every earlier one of the extent is
written as well (R379). -/
def Module.growExtent (m : Module) (n i : Nat) : Module :=
  let run := ((m.pt n).placed.filter fun x => x.extent == i).takeWhile fun x => x.done
  let m := m.setPt n { m.pt n with placed := (m.pt n).placed.filter fun x => !run.contains x }
  run.foldl (fun m x => m.updExtent i fun e => { e with
    used := if e.state = 3 then e.used else e.used + x.blocks, frames := e.frames + 1
    firstSeq := if e.frames = 0 then x.frame.seq else e.firstSeq, lastSeq := x.frame.seq }) m

/-- FRAME_DONE (R386): the stream engine learns over 37 + n → 24 that a frame is written. -/
def execFrameDone (n : Fin 8) (s : State) : Host.Outcome State Fault Refusal :=
  .next (match s.m.arrival (37 + n.val) 24 with
    | some (.frameDone tag) =>
      let s := s.onM fun m => m.takeArrival (37 + n.val) 24
      match (s.m.pt n).placed.find? fun x => x.frame.tag == tag with
      | none => s
      | some x =>
        let s := s.onM fun m =>
          ((m.setPt n { m.pt n with placed := (m.pt n).placed.map fun y =>
            if y.frame.tag = tag then { y with done := true } else y }).growExtent n x.extent).bump (pgNvp n) NVP_FRAMES.FRAMES
        (s.frameWritten x.frame (4096 * x.blocks)).onM fun m => m.finishRetire n
    | _ => s)

/-- FRAME_FAILED (R387): the stream engine learns that a frame's write failed. The extent is cut at the failed frame; that frame
and every later one of the extent are reissued to another port. -/
def execFrameFailed (n : Fin 8) (s : State) : Host.Outcome State Fault Refusal :=
  .next (match s.m.arrival (37 + n.val) 24 with
    | some (.frameFailed tag) =>
      let s := s.onM fun m => m.takeArrival (37 + n.val) 24
      match (s.m.pt n).placed.find? fun x => x.frame.tag == tag with
      | none => s
      | some x => s.onM fun m =>
        let gone := (m.pt n).placed.filter fun y => y.extent == x.extent && decide (x.lba ≤ y.lba)
        let left := (m.pt n).todo.filter fun c => match c.owner with
          | .frame t => !gone.any fun y => y.frame.tag == t
          | _ => true
        let m := m.setPt n { m.pt n with placed := (m.pt n).placed.filter fun y => !gone.contains y, todo := left }
        let m := m.updExtent x.extent fun e => { e with state := 3, used := x.lba - e.firstLba, closeTime := m.now }
        let again := gone.filter fun y => !y.done
        let m := m.requeue (again.map fun y => { y.frame with flags := y.frame.flags ||| 64, notPort := some n })
        let m := again.foldl (fun m y => m.bump pgStr STR_REISSUE.FRAMES 1 y.frame.slot) m
        (m.raise pgStr 14).finishRetire n
    | _ => s)

/-! ## Readback (R392) -/

/-- The readback stops with a result. -/
def Module.readStops (m : Module) (result seq code : Nat) : Module :=
  let m := if result ≤ 1 then m else m.wr pgStr STR_RB_ERR_SEQ.SEQ seq
  { m.wr pgStr STR_RB_STATUS.DCM_CODE code with volume.read.result := some (result, seq), volume.read.waiting := none }

/-- A frame has been rebuilt; `last` when it ends its record. -/
def Module.readNext (m : Module) (last : Bool) : Module :=
  let r := m.volume.read
  let m := { m with volume.read := { r with seq := r.seq + 1, first := false, waiting := none, segment := r.segment + last.toNat } }
  if last then
    let done := m.rd pgStr STR_RB_STATUS.DONE + 1
    let m := m.wr pgStr STR_RB_STATUS.DONE done
    if m.lv pgStr STR_RB_COUNT.RECORDS ≤ done then m.readStops 0 r.seq 0 else m
  else m

/-- An extent holds a frame on a drive that is present. -/
def Module.holdsSeq (m : Module) (seq : Nat) : Bool :=
  m.volume.table.any fun e => e.stream == m.lv pgStr STR_RB_STREAM.STREAM_ID && decide (0 < e.frames)
    && decide (e.firstSeq ≤ seq) && decide (seq ≤ e.lastSeq)
    && (m.driveState e.port == 3 || m.driveState e.port == 5)

/-- A frame of a readback moves through SCRATCH: a DEFLATE payload goes on to the decompressor, another one to its place. The
engine's writes pass as the page's activity allows. -/
def State.rebuild (s : State) (h : FrameHead) (payload : List Byte) : State :=
  let r := s.m.volume.read
  let last := bit h.flags 2
  let scratch := s.m.lv pgStr STR_RB_CTRL.SCRATCH
  let dst := s.m.lv pgStr STR_RB_CTRL.DST
  let place := r.seq % 4 * 1048576
  let ofs := r.segment * (s.m.lv pgStr STR_RB_SEG_SIZE.SIZE * 4096) + h.recOfs * 4096
  let n := payload.length
  let copy := !bit h.flags 0
  let msgs := (s.m.region scratch).writeMsgs place n
    ++ if copy then (s.m.region scratch).readMsgs 24 place n ++ (s.m.region dst).writeMsgs ofs n else []
  let (passed, m) := s.m.letThrough 6176 s.m.strAct msgs
  let s : State := { s with m := m }
  if ¬ passed then s
  else
    let s := s.hbmWrite 24 scratch place payload
    if copy then
      let (data, _, s) := s.checkedRead 24 scratch place n
      (s.hbmWrite 24 dst ofs data).onM fun m => m.readNext last
    else if !s.m.feature 10 then s.onM fun m => m.readStops 5 r.seq 0
    else
      s.onM fun m =>
        let j : DJob := {
          region := scratch, ofs := place, len := n, dst := dst, dstOfs := ofs, outLen := h.rawLen, wrap := 0
          checkEn := true, check := h.rawCrc, tag := r.seq, stream := true, act := m.strAct }
        let m := { m with volume.read.waiting := some last }
        m.postMgt 24 49 .req (.djob (m.lv pgStr STR_RB_CTRL.DCM_LANE) j)

/-- The result with which a readback stops at the frame that a read brought, in the order of the checks (R392). -/
def Module.readFault (m : Module) (data : Option (List Byte)) (ioOk : Bool) : Option Nat :=
  let r := m.volume.read
  if ¬ m.holdsSeq r.seq then some 3
  else if ¬ ioOk then some 7
  else
    match data with
    | none => some 3
    | some l =>
      match parseFrame l with
      | none => some 2
      | some h =>
        if (h.payload l).isNone then some 2
        else if h.seq ≠ r.seq ∨ h.stream ≠ m.lv pgStr STR_RB_STREAM.STREAM_ID then some 3
        else if r.first ∧ ¬ bit h.flags 1 then some 4
        else if h.kind = 1 ∧ m.lv pgStr STR_RB_SEG_SIZE.SIZE * 4096 < h.recOfs * 4096 + h.rawLen then some 6
        else none

/-- READBACK_FRAME (R392): the frame as it was read, none where no frame with its SEQ was found, and whether the read succeeded. -/
def execReadbackFrame (head : Option (List Byte)) (payload tail : List Byte) (ioOk : Bool) (s : State) :
    Host.Outcome State Fault Refusal :=
  let r := s.m.volume.read
  let data := head.map (· ++ payload ++ tail)
  .next (if ¬ r.running ∨ r.waiting.isSome ∨ r.result.isSome then s
  else
    match s.m.readFault data ioOk with
    | some result => s.onM fun m => m.readStops result r.seq 0
    | none =>
      let l := data.getD []
      match parseFrame l with
      | none => s
      | some h => if h.kind ≠ 1 then s.onM fun m => m.readNext false else s.rebuild h ((h.payload l).getD []))

/-- A completion of the decompressor at the stream engine (R392). A refused job ends the readback with DECODE. -/
def Module.strDjobDone (m : Module) (tag result : Nat) : Module :=
  let r := m.volume.read
  match r.waiting with
  | some last => if result = 0 then m.readNext last else m.readStops 5 tag (result % 16)
  | none => m

/-- RB_DONE (R392). -/
def execRbDone (s : State) : Host.Outcome State Fault Refusal :=
  .next (match s.m.volume.read.result with
    | some (res, _) => s.onM fun m =>
      let m := { m with volume.read := ReadSt.init }
      ((m.wr pgStr STR_RB_STATUS.RESULT res).wr pgStr STR_RB_STATUS.BUSY 0).raise pgStr 13
    | none => s)

/-! ## Safe-stop (R389) -/

/-- Each open stream abandons the records not yet assigned and ends with a SAFE_STOP frame. -/
def Module.stopStreams (m : Module) : Module :=
  slots.foldl (fun m k =>
    let st := m.sm k
    let state := m.rd pgStr STR_STATUS.STATE k
    if state = 1 ∨ state = 2 then
      let gone := ((st.chunks.filter fun f => f.kind == 1).map fun f => (f.capture, f.segment)).dedup
      let m := m.setSm k { st with
        chunks := [], abandoned := st.abandoned + gone.length, ending := some 4, ended := false
        records := st.records.filter fun r => !gone.contains (r.capture, r.segment) }
      ((m.wr pgStr STR_STATUS.STATE 2 k).endStream k).saveStream k
    else m) m

/-! ## Commits (R382, R388, R392, R393, R394) -/

/-- A host DMA queue is an enabled STREAM_RX queue (R488): KIND 2. -/
def Module.rxQueue (m : Module) (q : Nat) : Bool := m.lv pgPcie PCIE_Q_CFG.EN q == 1 && m.lv pgPcie PCIE_Q_CFG.KIND q == 2

def Module.opens (m : Module) (snap : Store Nat) (k : Nat) : Bool :=
  m.lv pgStr STR_CFG.OPEN k == 0 && snapGet snap pgStr STR_CFG.OPEN k == 1

/-- The checks of an STR snapshot. -/
def checkStr (m : Module) (snap : Store Nat) : List Bad :=
  let g (f : Fld) (k : Nat := 0) := snapGet snap pgStr f k
  let sp := g STR_VOL_CFG.SPARE_PORT
  let ms := g STR_VOL_CKPT.MS
  let size := g STR_RB_SEG_SIZE.SIZE * 4096
  chk (62 ≤ g ACTIVITY_ID.ACTIVITY) 0x02C 2 ++ chk (outside 0 7 sp && sp != 15) 0x040 2
  ++ chk (g STR_VOL_EXTENT.BLOCKS == 0) 0x044 1
  ++ chk (g STR_VOL_EXTENT.BLOCKS != 0 && outside 256 16777216 (g STR_VOL_EXTENT.BLOCKS)) 0x044 2
  ++ chk (ms == 0) 0x048 1 ++ chk (ms != 0 && outside 10 60000 ms) 0x048 2
  ++ slots.flatMap (fun k =>
    let caps := (List.range 32).filter fun c => bit (g STR_CAPTURES.CAPTURES k) c
    let volume := g STR_CFG.DEST k == 0
    let taken (c : Nat) : Bool := slots.any fun j =>
      j != k && (m.rd pgStr STR_STATUS.STATE j == 1 || m.rd pgStr STR_STATUS.STATE j == 2)
        && bit (m.lv pgStr STR_CAPTURES.CAPTURES j) c || (decide (j < k) && m.opens snap j && bit (g STR_CAPTURES.CAPTURES j) c)
    if m.opens snap k then
      chk (volume && !m.mounted) 0x084 0x81 k
      ++ chk (caps.any fun c => !m.streaming c) 0x084 0x82 k
      ++ chk (caps.any taken) 0x084 0x83 k
      ++ chk (caps == [] || (g STR_CFG.ENCODING k == 0 && g STR_LANES.LANES k == 0)
          || (volume && (g STR_PORTS.PORTS k &&& m.rd pgStr STR_VOL_STATUS.ACTIVE) == 0)
          || (!volume && !m.rxQueue (g STR_CFG.HOST_QUEUE k))) 0x084 4 k
    else
      let live := (List.range 32).filter fun c => bit (m.lv pgStr STR_CAPTURES.CAPTURES k) c
      chk (m.rd pgStr STR_STATUS.STATE k == 1 && g STR_CFG.OPEN k == 0 && live.any fun c => m.capState c != 0) 0x084 0x80 k)
  ++ chk (size == 0) 0x114 1
  ++ chk (g STR_RB_CTRL.EN == 1 && m.volume.read.running) 0x100 0x84
  ++ chk (g STR_RB_CTRL.EN == 1 && (decide ((m.region (g STR_RB_CTRL.SCRATCH)).bytes < 4194304)
      || decide ((m.region (g STR_RB_CTRL.DST)).bytes < (g STR_RB_SEG.SEGMENT + g STR_RB_COUNT.RECORDS) * size))) 0x100 5

/-- A readback starts (R392); zero records are skipped under R10. -/
def Module.startRead (m : Module) : Module :=
  let m := (m.wr pgStr STR_RB_STATUS.DONE 0).wr pgStr STR_RB_STATUS.DCM_CODE 0
  let m := (m.wr pgStr STR_RB_STATUS.RESULT 0).wr pgStr STR_RB_STATUS.BUSY 1
  let r : ReadSt := ⟨true, m.lv pgStr STR_RB_FIRST.SEQ, m.lv pgStr STR_RB_SEG.SEGMENT, none, true, none⟩
  let m := { m with volume.read := r }
  if m.lv pgStr STR_RB_COUNT.RECORDS = 0 then m.readStops 1 r.seq 0 else m

/-- The effects of an STR commit: streams open and close, a readback starts. -/
def Module.appliedStr (m before : Module) : Module :=
  let m := slots.foldl (fun m k =>
    let was := before.lv pgStr STR_CFG.OPEN k
    let now_ := m.lv pgStr STR_CFG.OPEN k
    let state := m.rd pgStr STR_STATUS.STATE k
    if was = 0 ∧ now_ = 1 ∧ state ≠ 2 then
      let m := (m.setSm k StreamSt.init).wr pgStr STR_ID.STREAM_ID m.volume.nextStream k
      let m := ({ m with volume.nextStream := m.volume.nextStream + 1 } : Module).wr pgStr STR_SEQ.SEQ 0 k
      (m.wr pgStr STR_STATUS.STATE 1 k).queueMarker k 2
        (leBytes 1 k ++ leBytes 4 (m.lv pgStr STR_CAPTURES.CAPTURES k) ++ leBytes 8 m.now)
    else if was = 1 ∧ now_ = 0 ∧ state = 1 then
      ((m.setSm k { m.sm k with ending := some 3 }).wr pgStr STR_STATUS.STATE 2 k).endStream k
    else if was = 1 ∧ now_ = 0 ∧ state = 3 then m.wr pgStr STR_STATUS.STATE 0 k
    else m) m
  if m.lv pgStr STR_RB_CTRL.EN = 1 then m.startRead else m

/-- The checks of an NVP snapshot. -/
def checkNvp (n : Nat) (snap : Store Nat) : List Bad :=
  let g (f : Fld) := snapGet snap (pgNvp n) f
  chk (62 ≤ g ACTIVITY_ID.ACTIVITY) 0x02C 2 ++ chk (g NVP_CFG.MAX_SPEED == 0) 0x040 1
  ++ chk (decide (5 < g NVP_CFG.MAX_SPEED)) 0x040 2

/-- The effects of an NVP commit (R394): EN = 0 resets the drive; a change of MAX_SPEED or EN retrains the link. -/
def Module.appliedNvp (m before : Module) (n : Nat) : Module :=
  let p := pgNvp n
  if before.lv p NVP_CFG.EN = m.lv p NVP_CFG.EN ∧ before.lv p NVP_CFG.MAX_SPEED = m.lv p NVP_CFG.MAX_SPEED then m
  else if m.driveState n = 0 then m
  else ((m.driveLost n).ioAdvance).raise p 8

end Sys2Proof.Machine
end

