-- ==== Sys2Proof/Machine/Hbm.lean ====
section
/-! DEFINITION. The HBM controllers (R32, R34–R36, R464): accesses, error correction, repairs and retirements (R50, R51). -/

namespace Sys2Proof.Machine

def Module.st (m : Module) (s : Nat) : StackSt := m.stack.get StackSt.init s
def Module.setSt (m : Module) (s : Nat) (v : StackSt) : Module := { m with stack := m.stack.set StackSt.init s v }

/-- What an HBM request is charged on every stack that it touches; a read's data on the ingress of its reader too. -/
def hbmCosts (q : HbmReq) (m : Module) : List (Nat × Nat) :=
  match q.write with
  | some d => stackCosts (m.region q.region) [(q.ofs, d.length)]
  | none => readCosts (m.region q.region) q.src [(q.ofs, q.len)]

/-- A request that has passed is served (R34, R36). What a read returns is kept as the reply, with its POISON mark (R32). -/
def State.serveHbm (s : State) (q : HbmReq) (ecc : Ecc) : State :=
  match q.write with
  | some d => s.hbmWrite q.src q.region q.ofs d
  | none =>
    let (data, bad, s) := s.checkedRead q.src q.region q.ofs q.len ecc
    s.onM fun m => { m with hostif.reply := data, hostif.poison := bad }

/-- The island of the stack that a request begins in. -/
def hbmIsland (q : HbmReq) (m : Module) : Nat := 32 + (m.region q.region).stackOf q.ofs

/-- HBM_ACCESS (R34): behind the messages of its pair (R16), checked at the joint (R23), and served once its activity has room
on every stack that it touches; until then it waits there (R41). -/
def execHbmAccess (q : HbmReq) (act : Fin 64) (ecc : Ecc) (s : State) : Host.Outcome State Fault Refusal :=
  .next (
    let dst := hbmIsland q s.m
    let e : Envelope := ⟨q.src, dst, .req, some act, 0, [], false, .hbm (.hbmAccess q act ecc)⟩
    if s.m.pairBusy q.src dst then s.onM fun m => m.send e
    else if 0 < s.m.armed 2 dst then s.onM fun m => m.reportJoint dst false
    else
      match s.m.charge act (hbmCosts q s.m) with
      | (true, m) => ({ s with m := m } : State).serveHbm q ecc
      | (false, m) => { s with m := { m.send e with net.held := m.net.held.set 0 (q.src.val * 64 + dst) 1 } })

/-! ## Repairs (R50, R51, R455) -/

/-- The repair blocks of a stack: 16 × pseudo-channel + block. -/
def StackSt.free (t : StackSt) (not : Option Nat) : List Nat :=
  (List.range 512).filter fun b => !t.used.contains b && some (b / 16) != t.retired && some (b / 16) != not

/-- Repairs already made for a pseudo-channel. -/
def StackSt.made (t : StackSt) (q : Nat) : Nat := (t.repairs.filter fun r => r.1 == q).length

/-- A retirement of pseudo-channel q is possible: one per stack, over 384 free blocks of the others. -/
def StackSt.canRetire (t : StackSt) (q : Nat) : Bool := t.retired.isNone && decide (384 ≤ (t.free (some q)).length)

/-- The 64-byte units of a 2 MiB range, and of a pseudo-channel's 768 MiB. -/
def rangeUnits : Nat := 32768
def channelUnits : Nat := 12582912

/-- A severe pseudo-channel (R455): the copy of the failing range into a free block, or of the whole pseudo-channel, begins. -/
def Module.hbmOrder (m : Module) (s q syndrome : Nat) : Module :=
  let t := m.st s
  match t.free none with
  | b :: _ =>
    if t.made q < 16 then
      m.setSt s { t with used := t.used ++ [b], waiting := t.waiting ++ [⟨q, some (syndrome % 512), b, rangeUnits⟩] }
    else if t.canRetire q then m.setSt s { t with waiting := t.waiting ++ [⟨q, none, 0, channelUnits⟩] }
    else m.spareExhausted (32 + s) 8 (32 * s + q)
  | [] => m.spareExhausted (32 + s) 8 (32 * s + q)

/-- The order that waits on a pseudo-channel: a repair, or a retirement. -/
def StackSt.order (t : StackSt) (q : Nat) (repair : Bool) : Option Repair :=
  t.waiting.find? fun w => w.channel == q && w.range.isSome == repair

/-- Count n units of an activity on a resource, as many as fit (R41): how many did. -/
def Module.chargeSome (m : Module) (a r n : Nat) : Nat × Module :=
  let e := entryNo r a
  let room := if m.enforcing then (if m.lv pgBud BUD_LIMIT.ALLOW e = 1 then m.lv pgBud BUD_LIMIT.LIMIT e - m.net.used.get 0 e else 0)
    else n
  let k := Nat.min n room
  let m := m.count a (r, k)
  (k, if k < n then m.misfit a (r, 1) else m)

/-- The copies of a stack go on, charged to activity 63 (R50, R51): one unit of the stack's bytes for each 64 copied. -/
def Module.copyOn (m : Module) (s : Nat) : Module :=
  let (l, m) := (m.st s).waiting.foldl (fun (acc : List Repair × Module) w =>
    let (k, m) := acc.2.chargeSome 63 s w.left
    (acc.1 ++ [{ w with left := w.left - k }], m)) ([], m)
  m.setSt s { m.st s with waiting := l }

/-- HBM_REPAIR_SWITCH (R50): once the copy is complete, the range lives in the repair block. Until then the copy goes on. -/
def execHbmRepairSwitch (stack : Fin 4) (channel : Fin 32) (s : State) : Host.Outcome State Fault Refusal :=
  .next (s.onM fun m =>
    let m := m.copyOn stack
    let t := m.st stack
    match t.order channel true with
    | some w =>
      if w.left ≠ 0 then m
      else
        let range := w.range.getD 0
        let m := m.setSt stack { t with repairs := t.repairs ++ [(channel.val, range, w.block)], waiting := t.waiting.erase w }
        (m.recordSubst 7 1 (32 * stack.val + channel.val) range w.block (some (channelSource stack channel))).clearSevere
          (channelSource stack channel)
    | none => m)

/-- PSEUDO_CHANNEL_RETIRE (R51): once the copy is complete, its space lies over 384 free blocks of the others, and the stack's
capacity falls to 18,600 units. The ledger names the first of the blocks as brought in (log entry 112). -/
def execPseudoChannelRetire (stack : Fin 4) (channel : Fin 32) (s : State) : Host.Outcome State Fault Refusal :=
  .next (s.onM fun m =>
    let m := m.copyOn stack
    let t := m.st stack
    match t.order channel false with
    | some w =>
      if t.canRetire channel = false then
        (m.setSt stack { t with waiting := t.waiting.erase w }).spareExhausted (32 + stack) 8 (32 * stack.val + channel.val)
      else if w.left ≠ 0 then m
      else
        let blocks := (t.free (some channel.val)).take 384
        let m := m.setSt stack { t with used := t.used ++ blocks, retired := some channel.val, waiting := t.waiting.erase w }
        ((m.recordSubst 8 1 (32 * stack.val + channel.val) channel (blocks.headD 0)
          (some (channelSource stack channel))).clearSevere (channelSource stack channel)).loseCapacity stack 600
    | none => m)

/-! ## The ledger (R52–R54) -/

/-- LEDGER_APPEND (R52, R53): the oldest entry not yet written goes to flash; a full ledger or a failed write is reported,
and only the full one counts as unrecorded. A failed write is tried again. -/
def execLedgerAppend (ok : Bool) (s : State) : Host.Outcome State Fault Refusal :=
  .next (s.onM fun m =>
    match m.safety.unsaved with
    | [] => m
    | e :: l =>
      if 16384 ≤ m.safety.ledger.length then
        (({ m with safety.unsaved := l } : Module).bump pgSaf SAF_LEDGER_COUNT.UNRECORDED).report 57 13
      else if ok then
        ({ m with safety.unsaved := l, safety.ledger := m.safety.ledger ++ [e.sealed m.safety.ledger.length] } : Module).wr
          pgSaf SAF_LEDGER_COUNT.ENTRIES (m.safety.ledger.length + 1)
      else m.report 57 13)

end Sys2Proof.Machine
end

