-- ==== Sys2Proof/Machine/Flags.lean ====
section
/-! DEFINITION. Delivery, saturation and the flags of the measurement cores (R410, R415–R418). -/

namespace Sys2Proof.Machine

/-! ## SR (R410) -/

def srZ : Nat := 1
def srN : Nat := 2
def srC : Nat := 4
def srV : Nat := 8
def srSov : Nat := 16
def srAov : Nat := 32
def srZlen : Nat := 64
def srIe1 : Nat := 256
def srIe2 : Nat := 512
def srBank : Nat := 4096

def srLevel (sr : Nat) : Nat := sr / 1024 % 4
def setLevel (sr l : Nat) : Nat := sr - srLevel sr * 1024 + l * 1024

/-- The bits of SR that a MOVX writes: BANK is written only by entry and RTI, BTRK exists on course cores. -/
def srMask (c : Nat) : Nat := if c < 16 then 0x2F7F else 0x6F7F

/-- Replace the bits of a mask. -/
def setBits (old mask v : Nat) : Nat := (old &&& (0xFFFFFFFF ^^^ mask)) ||| (v &&& mask)

/-- What an instruction does to the flags: the bits it writes, their values, and the sticky bits it sets. -/
structure FlagSet where
  mask   : Nat
  value  : Nat
  sticky : Nat
  deriving DecidableEq, Repr

def FlagSet.none_ : FlagSet := ⟨0, 0, 0⟩

def FlagSet.apply (f : FlagSet) (sr : Nat) : Nat := setBits sr f.mask f.value ||| f.sticky

/-- Z and N of a delivered result. -/
def zn (v : Nat) : Nat := flag (v == 0) 0 + flag (bit v 31) 1

/-- The flags of a result that sets Z and N only. -/
def flagsZn (v : Nat) : FlagSet := ⟨3, zn v, 0⟩

/-! ## Delivery (R415) -/

/-- A 32-bit delivered result: the value, whether the exact result did not fit, and whether it was saturated. -/
structure Delivered where
  value : Nat
  v     : Bool
  sov   : Bool
  deriving DecidableEq, Repr

def deliver (sat : Bool) (x : Int) : Delivered :=
  if -2147483648 ≤ x ∧ x ≤ 2147483647 then ⟨ofSigned 32 x, false, false⟩
  else if sat then ⟨if 0 ≤ x then 0x7FFFFFFF else 0x80000000, true, true⟩
  else ⟨ofSigned 32 x, true, false⟩

/-- Z, N and V of a delivered result, and the sticky SOV. -/
def Delivered.flagsZnv (d : Delivered) : FlagSet := ⟨11, zn d.value + flag d.v 3, flag d.sov 4⟩

/-- Z, N, C and V. -/
def Delivered.flagsZncv (d : Delivered) (carry : Bool) : FlagSet := ⟨15, zn d.value + flag carry 2 + flag d.v 3, flag d.sov 4⟩

/-! ## Accumulators (R416) -/

/-- An accumulator result: its 80 bits, AOV, and whether the overflow was left unsaturated. -/
structure AccResult where
  value : Nat
  aov   : Bool
  plain : Bool
  deriving DecidableEq, Repr

def accumulate (sat : Bool) (x : Int) : AccResult :=
  if -(2 ^ 79 : Nat) ≤ x ∧ x < (2 ^ 79 : Nat) then ⟨ofSigned 80 x, false, false⟩
  else if sat then ⟨if 0 ≤ x then 2 ^ 79 - 1 else 2 ^ 79, true, false⟩
  else ⟨ofSigned 80 x, true, true⟩

/-- EXP (R426): the bits below the sign bit that equal it. -/
def expOf (v : Nat) : Nat :=
  let x := toSigned 32 v
  let y := if x < 0 then (-x - 1).toNat else x.toNat
  if y = 0 then 31 else 30 - Nat.log2 y

/-- The conditions of B (R424); 13–15 have none. LT and the like follow the signed comparison that set the flags. -/
def condition (cond sr : Nat) : Option Bool :=
  let z := bit sr 0; let n := bit sr 1; let c := bit sr 2; let v := bit sr 3
  match cond with
  | 0 => some true
  | 1 => some z
  | 2 => some !z
  | 3 => some (n != v)
  | 4 => some (n == v)
  | 5 => some (!z && n == v)
  | 6 => some (z || n != v)
  | 7 => some c
  | 8 => some !c
  | 9 => some v
  | 10 => some !v
  | 11 => some n
  | 12 => some !n
  | _ => none

end Sys2Proof.Machine
end

