-- ==== Sys2Proof/Machine/Operands.lean ====
section
/-! DEFINITION. The operands of the measurement cores: registers and banks (R409), accumulators, addressing (R411–R414),
data memory and the core I/O registers (R397–R408, R428). -/

namespace Sys2Proof.Machine

/-! ## Registers -/

def isCluster (c : Nat) : Bool := decide (c < 16)

/-- The registers that have a shadow copy. -/
def shadowed (n : Nat) : Bool := decide (n < 8) || (decide (16 ≤ n) && decide (n < 20)) || n == 48

/-- Register n of the bank given. -/
def CoreSt.regIn (k : CoreSt) (bank : Bool) (n : Nat) : Nat :=
  if bank && shadowed n then k.shadow.get 0 n else k.regs.get 0 n

def CoreSt.setIn (k : CoreSt) (bank : Bool) (n v : Nat) : CoreSt :=
  if bank && shadowed n then { k with shadow := k.shadow.set 0 n (v % 2 ^ 32) }
  else { k with regs := k.regs.set 0 n (v % 2 ^ 32) }

/-- Register n of the bank in use. -/
def CoreSt.reg (k : CoreSt) (n : Nat) : Nat := k.regIn k.bank n
def CoreSt.setReg (k : CoreSt) (n v : Nat) : CoreSt := k.setIn k.bank n v

/-- A register as a signed number. -/
def CoreSt.sreg (k : CoreSt) (n : Nat) : Int := toSigned 32 (k.reg n)

/-- SR of the bank in use, BANK in its place. -/
def CoreSt.sr (k : CoreSt) : Nat := setBits (k.reg 48) srBank (if k.bank then srBank else 0)
def CoreSt.level (k : CoreSt) : Nat := srLevel k.sr

def aReg (i : Nat) : Nat := 16 + i
def mReg (i : Nat) : Nat := 24 + i
def bReg (i : Nat) : Nat := 32 + i
def lReg (i : Nat) : Nat := 40 + i

/-- The key of an accumulator: acc0 and acc1 have shadow copies. -/
def accKey (bank : Bool) (i : Nat) : Nat := if bank && decide (i < 2) then 4 + i else i

/-- An accumulator as an accumulate input sees it (R420), signed. -/
def CoreSt.accIn (k : CoreSt) (i : Nat) : Int := toSigned 80 (k.acc.get 0 (accKey k.bank i))
/-- An accumulator as every other read sees it (R420). -/
def CoreSt.accSeen (k : CoreSt) (i : Nat) : Nat := k.seen.get 0 (accKey k.bank i)

/-- MOVX's reading of a register number; none: reserved. -/
def CoreSt.movxRead (k : CoreSt) (c n : Nat) : Option Nat :=
  if n = 48 then some k.sr
  else if n = 50 then some (if isCluster c then 0 else k.reg 50)
  else if n = 52 then some k.pc
  else if n < 53 then some (k.reg n)
  else none

/-- MOVX's writing of a register number: the value the register takes; none: ILLEGAL. -/
def CoreSt.movxWrite (k : CoreSt) (c n v : Nat) : Option Nat :=
  if 52 ≤ n then none
  else if n = 48 then some (setBits (k.reg 48) (srMask c) v)
  else if n = 50 then (if isCluster c then none else some (v % 32))
  else if n = 51 then some (v / 128 * 128)
  else some v

/-! ## Addressing (R411–R414) -/

/-- Reverse the low k bits. -/
def revBits : Nat → Nat → Nat
  | 0, _ => 0
  | k + 1, n => n % 2 * 2 ^ k + revBits k (n / 2)

/-- The post-modify of a_i in mode am: its new value, none when the mode has none, and whether it was skipped (R414). -/
def CoreSt.postModify (k : CoreSt) (am i : Nat) : Option Nat × Bool :=
  let a : Int := k.reg (aReg i)
  let m := k.sreg (mReg i)
  let b : Int := k.reg (bReg i)
  let l := k.reg (lReg i)
  match am with
  | 0 => (none, false)
  | 1 => (some (ofSigned 32 (a + m)), false)
  | 2 => if l = 0 then (none, true) else (some (ofSigned 32 (b + (a - b + m) % (l : Int))), false)
  | _ =>
    if l = 0 ∨ m = 0 then (none, true)
    else
      let n := Nat.log2 l
      let e := 2 ^ Nat.log2 m.natAbs
      let j := ((a - b) / (e : Int) % (2 ^ n : Nat)).toNat
      (some (ofSigned 32 (b + e * revBits n ((revBits n j + 1) % 2 ^ n))), false)

/-- The address that an operand of format M uses. -/
def CoreSt.address (k : CoreSt) (o : MemOp) : Nat :=
  if o.am.val = 0 then ofSigned 32 (k.reg (aReg o.set) + o.ofs) else k.reg (aReg o.set)

/-! ## Core I/O registers (R408) -/

/-- The store page of a core's I/O registers. -/
def pgIo (c : Nat) : Nat := 512 + c

/-- IO_TIME: the TIME64 copy of the core's island. -/
def Module.ioTime (m : Module) (c : Nat) : Nat :=
  ((m.now : Int) + 256 * m.clk.skew.get 0 (m.coreIsl c)).toNat % 2 ^ 64

def Module.inboxSize (m : Module) (c : Nat) : Nat := m.lv (pgCore c) CORE_INBOX_SIZE.SIZE
def Module.inboxWr (m : Module) (c : Nat) : Nat := m.rd (pgIo c) IO_INBOX_WR.OFS
def Module.inboxRd (m : Module) (c : Nat) : Nat := m.rd (pgIo c) IO_INBOX_RD.OFS

/-- Sources 0–6 that are pending (R428). -/
def Module.pendingIrq (m : Module) (c : Nat) : Nat :=
  let k := m.cr c
  flag (m.inboxWr c != m.inboxRd c) 0 + flag (!k.recs.isEmpty) 1 + flag (!k.done.isEmpty) 2 + (k.latched &&& 0x78)

/-- The word at an I/O offset. -/
def Module.ioWord (m : Module) (c off : Nat) : Nat :=
  let p := pgIo c
  let k := m.cr c
  let n := k.recs.head?
  let of := fun (f : RecNote → Nat) => (n.map f).getD 0
  match off with
  | 0x000 => m.inboxWr c
  | 0x004 => m.inboxRd c
  | 0x010 => of fun n => 2 ^ 31 + flag n.slot.isSome 30 + n.capture % 32 * 2 ^ 25 + n.region % 64 * 2 ^ 19
  | 0x014 => of fun n => n.segment % 2 ^ 20
  | 0x018 => of fun n => n.segOfs % 2 ^ 32
  | 0x01C => of fun n => n.segOfs / 2 ^ 32
  | 0x020 => of fun n => n.slot.getD 0 % 2 ^ 32
  | 0x024 => of fun n => n.slot.getD 0 / 2 ^ 32
  | 0x028 => of fun n => n.trigTime % 2 ^ 32
  | 0x02C => of fun n => n.trigTime / 2 ^ 32
  | 0x040 => m.rd p IO_DMA_LOCAL.ADDR
  | 0x044 => m.rd p IO_DMA_REGION.REGION
  | 0x048 => m.rd p IO_DMA_OFS_LO.OFS
  | 0x04C => m.rd p IO_DMA_OFS_HI.OFS
  | 0x050 => m.rd p IO_DMA_LEN.LEN
  | 0x058 => k.dma.length * 65536 + ((k.done.head?.map fun d => 2 ^ 31 + d.1 * 256 + d.2).getD 0)
  | 0x060 => m.ioTime c % 2 ^ 32
  | 0x064 => m.ioTime c / 2 ^ 32
  | 0x068 => m.rd p IO_TIMER_LO.TIME
  | 0x06C => m.rd p IO_TIMER_HI.TIME
  | 0x070 => m.pendingIrq c + (k.exc.map fun e => 2 ^ e).getD 0
  | 0x074 => k.latched &&& 0x78
  | 0x078 => m.rd p IO_IRQ_EN.EN
  | 0x07C => m.rd p IO_IRQ_LEVEL.L2
  | 0x084 => m.rd (pgCore c) CORE_MBOX_IN.DATA
  | 0x088 => m.rd p IO_MBOX_OUT.DATA
  | 0x08C => c + flag (!isCluster c) 8
  | _ => 0

/-- The low words of the 64-bit I/O registers. -/
def ioLow (off : Nat) : Bool := [0x018, 0x020, 0x028, 0x048, 0x060, 0x068].contains off

/-- A load of an I/O word with the read latch of R7: the value, and the core after it. -/
def Module.ioRead (m : Module) (c off : Nat) : Nat × Module :=
  let k := m.cr c
  if ioLow off then (m.ioWord c off, m.setCr c { k with high := [(off, m.ioWord c (off + 4))] })
  else
    match k.high with
    | [(o, v)] => if o + 4 = off then (v, m.setCr c { k with high := [] }) else (m.ioWord c off, m)
    | _ => (m.ioWord c off, m)

/-- A new RD is not past WR (R402). -/
def Module.rdAllowed (m : Module) (c v : Nat) : Bool :=
  let n := m.inboxSize c
  let d := fun (x y : Nat) => (x + n - y) % n
  decide (v < n) && decide (d v (m.inboxRd c) ≤ d (m.inboxWr c) (m.inboxRd c))

/-- A push to the DMA queue (R405). -/
def Module.dmaPush (m : Module) (c v : Nat) : Module :=
  let p := pgIo c
  let k := m.cr c
  if 8 ≤ k.dma.length then m.bump (pgCore c) CORE_DMA_REFUSED.PUSHES
  else m.setCr c { k with dmaAt := if k.dma.isEmpty then m.clk.ticks else k.dmaAt, dma := k.dma ++ [⟨m.rd p IO_DMA_LOCAL.ADDR, m.rd p IO_DMA_REGION.REGION,
    m.rd64 p IO_DMA_OFS_LO.OFS IO_DMA_OFS_HI.OFS, m.rd p IO_DMA_LEN.LEN, bit v 8, v % 256⟩] }

/-- The high word held for a 64-bit I/O register (R8). -/
def CoreSt.heldFor (k : CoreSt) (off : Nat) : Nat :=
  match k.held with
  | [(o, v)] => if o = off then v else 0
  | _ => 0

def CoreSt.unhold (k : CoreSt) (off : Nat) : CoreSt :=
  match k.held with
  | [(o, _)] => if o = off then { k with held := [] } else k
  | _ => k

/-- A store to an I/O register. -/
def Module.ioWrite (m : Module) (c off v : Nat) : Module :=
  let p := pgIo c
  let k := m.cr c
  match off with
  | 0x004 => if m.rdAllowed c (v % 2 ^ 20) then m.wr p IO_INBOX_RD.OFS v else m
  | 0x030 => if bit v 0 then m.setCr c { k with recs := k.recs.drop 1 } else m
  | 0x040 => m.wr p IO_DMA_LOCAL.ADDR v
  | 0x044 => m.wr p IO_DMA_REGION.REGION v
  | 0x048 => (m.wr64 p IO_DMA_OFS_LO.OFS IO_DMA_OFS_HI.OFS (v + 2 ^ 32 * k.heldFor 0x048)).setCr c (k.unhold 0x048)
  | 0x04C => m.setCr c { k with held := [(0x048, v)] }
  | 0x050 => m.wr p IO_DMA_LEN.LEN v
  | 0x054 => m.dmaPush c v
  | 0x05C => if bit v 0 then m.setCr c { k with done := k.done.drop 1 } else m
  | 0x068 => (m.wr64 p IO_TIMER_LO.TIME IO_TIMER_HI.TIME (v + 2 ^ 32 * k.heldFor 0x068)).setCr c
      { k.unhold 0x068 with timer := true }
  | 0x06C => m.setCr c { k with held := [(0x068, v)] }
  | 0x074 => m.setCr c { k with latched := k.latched &&& (0x78 ^^^ (v &&& 0x78)) }
  | 0x078 => m.wr p IO_IRQ_EN.EN v
  | 0x07C => m.wr p IO_IRQ_LEVEL.L2 v
  | 0x080 => if bit v 0 then m.setCr c { k with latched := k.latched ||| 0x20 } else m
  | 0x088 => ((m.wr p IO_MBOX_OUT.DATA v).wr (pgCore c) CORE_MBOX_OUT.DATA v).raise (pgCore c) 10
  | _ => m

/-! ## Data accesses (R397–R399) -/

def dmemBytes (c : Nat) : Nat := if isCluster c then 0x80000 else 0x100000

def isIo (a : Nat) : Bool := decide (0x1000000 ≤ a) && decide (a < 0x1001000)

/-- An access of n bytes is aligned and served. -/
def dataOk (c a n : Nat) : Bool := a % n == 0 && (decide (a < dmemBytes c) || isIo a)

/-- The little-endian value of n bytes of data memory. -/
def CoreSt.peek (k : CoreSt) (a : Nat) : Nat → Nat
  | 0 => 0
  | n + 1 => (Store.get 0 k.dmem a).toNat + 256 * k.peek (a + 1) n

def CoreSt.poke (k : CoreSt) (a : Nat) : List Byte → CoreSt
  | [] => k
  | b :: l => ({ k with dmem := Store.set 0 k.dmem a b } : CoreSt).poke (a + 1) l

/-- The checker instance and the fault source of the physical core (R452, R464). -/
def Module.coreUnit (m : Module) (c : Nat) : Nat := if isCluster c then (m.cr c).phys else 17 + (m.cr c).phys
def Module.coreSource (m : Module) (c : Nat) : Nat := 770 + m.coreUnit c

/-- The ECC check of a memory word read (R399, R464): whether it is uncorrectable, and what that counts and reports. -/
def Module.coreEcc (m : Module) (c : Nat) (nature : Ecc) : Bool × Module :=
  let u := m.coreUnit c
  let (double, any) := m.checked 1 u nature
  if any then
    let m := if double then m.bump (pgCore c) CORE_ECC.UNCORR else m.bump (pgCore c) CORE_ECC.CORR
    let (k, m) := m.draw 1
    (double, m.reportChecked (m.coreIsl c) (m.coreSource c) 1 u (Config.free k % 2 ^ 32) nature (!double))
  else (false, m)

/-- The ECC check of a fetch (R399): no injection reaches it (R464). -/
def Module.fetchEcc (m : Module) (c : Nat) (nature : Ecc) : Bool × Module :=
  if nature = .clean then (false, m)
  else
    let double := nature == .double
    let m := if double then m.bump (pgCore c) CORE_ECC.UNCORR else m.bump (pgCore c) CORE_ECC.CORR
    let (k, m) := m.draw 1
    (double, m.post (m.coreIsl c) 58 .evt (.fault ⟨m.coreSource c, Config.free k % 2 ^ 32, m.now, true, false, !double⟩))

/-- The ECC checks of n words that are read one after another: those that are uncorrectable. An error of nature lies in the
first. -/
def Module.coreWords (m : Module) (c n : Nat) (nature : Ecc) : List Nat × Module :=
  if nature = .clean ∧ m.armed 1 (m.coreUnit c) = 0 then ([], m)
  else
    (List.range n).foldl (fun (acc : List Nat × Module) i =>
      let (bad, m) := acc.2.coreEcc c (if i = 0 then nature else .clean)
      (if bad then acc.1 ++ [i] else acc.1, m)) ([], m)

/-- A load of n bytes (2 or 4); none: MEM_FAULT. A halfword access to an I/O register reads zero (R6). -/
def Module.dataLoad (m : Module) (c a n : Nat) (nature : Ecc) : Option Nat × Module :=
  if !dataOk c a n then (none, m)
  else if isIo a then
    if n = 4 then
      let (v, m) := m.ioRead c (a % 4096)
      (some v, m)
    else (some 0, m)
  else
    let (bad, m) := m.coreEcc c nature
    if bad then (none, m) else (some ((m.cr c).peek a n), m)

/-- A store of n bytes (2 or 4) that is known to be served. -/
def Module.dataStore (m : Module) (c a n v : Nat) : Module :=
  if isIo a then (if n = 4 then m.ioWrite c (a % 4096) (v % 2 ^ 32) else m)
  else m.setCr c ((m.cr c).poke a (leBytes n v))

end Sys2Proof.Machine
end

