-- ==== Sys2Proof/Machine/CoreCode.lean ====
section
/-! DEFINITION. The instruction words of the measurement cores (R423, R424): the formats, the encoder of each, and which words
spell an instruction at all (R427). -/

namespace Sys2Proof.Machine

/-- The S bit. -/
def sBit (sat : Bool) : Nat := flag sat 25

/-- Format R. -/
def wordR (op : Nat) (rd rs rt : DReg) (sub : Nat) (sat : Bool := false) : Nat :=
  op * 2 ^ 26 + sBit sat + rd.val * 2 ^ 21 + rs.val * 2 ^ 17 + rt.val * 2 ^ 13 + sub

/-- Format I. -/
def wordI (op : Nat) (rd rs : DReg) (imm : Nat) (sat : Bool := false) : Nat :=
  op * 2 ^ 26 + sBit sat + rd.val * 2 ^ 21 + rs.val * 2 ^ 17 + imm

/-- Format A. -/
def wordA (op : Nat) (acc : Fin 4) (r rt : DReg) (sub : Nat) (sat : Bool := false) : Nat :=
  op * 2 ^ 26 + sBit sat + acc.val * 2 ^ 23 + r.val * 2 ^ 19 + rt.val * 2 ^ 15 + sub

/-- ACCADD: format A with accB in [22:21]. -/
def wordAccadd (acc accB : Fin 4) (sat : Bool) : Nat := 0x17 * 2 ^ 26 + sBit sat + acc.val * 2 ^ 23 + accB.val * 2 ^ 21

/-- Format F. -/
def wordF (acc : Fin 4) (i j : Fin 8) (ci cj z sat : Bool) : Nat :=
  0x1A * 2 ^ 26 + sBit sat + acc.val * 2 ^ 23 + i.val * 2 ^ 20 + j.val * 2 ^ 17 + flag ci 16 + flag cj 15 + flag z 14

/-- Format M. -/
def wordM (op : Nat) (d : DReg) (o : MemOp) : Nat :=
  op * 2 ^ 26 + o.am.val * 2 ^ 24 + o.set.val * 2 ^ 21 + d.val * 2 ^ 17 + ofSigned 17 o.ofs

/-- Format X. -/
def wordX (dst src : Fin 128) : Nat := 0x11 * 2 ^ 26 + dst.val * 2 ^ 18 + src.val * 2 ^ 11

/-- Format B: COND, or D of DBNZ, above a signed OFS. -/
def wordB (op cond : Nat) (ofs : Int) : Nat := op * 2 ^ 26 + cond * 2 ^ 22 + ofSigned 22 ofs

/-- A word that only its opcode and low bits spell: NOP, JR, RTI, WAIT, BKPT. -/
def wordOp (op low : Nat) : Nat := op * 2 ^ 26 + low

/-- SUB of SHIFT: the kind, and the amount or its register. -/
def wordShift (kind : Nat) (rd rs : DReg) (n : Amount) (sat : Bool := false) : Nat :=
  match n with
  | .imm n => wordR 0x07 rd rs 0 (kind * 2 ^ 11 + 2 ^ 10 + n.val) sat
  | .reg rt => wordR 0x07 rd rs rt (kind * 2 ^ 11) sat

/-- n bits from bit lo on. -/
def bitSpan (lo n : Nat) : Nat := (2 ^ n - 1) * 2 ^ lo

/-- The bits below the opcode that an instruction uses, S among them; none: an undefined opcode. -/
def coreUsed (op : Nat) : Option Nat :=
  match op with
  | 0x00 | 0x2C | 0x30 => some 0
  | 0x01 | 0x02 | 0x0D => some (2 ^ 25 + bitSpan 13 12)
  | 0x03 | 0x20 | 0x21 | 0x22 | 0x24 | 0x25 | 0x28 | 0x2B => some (bitSpan 0 26)
  | 0x04 | 0x05 | 0x06 | 0x0A | 0x0B | 0x0C | 0x0E => some (bitSpan 13 12)
  | 0x07 => some (2 ^ 25 + bitSpan 10 15 + bitSpan 0 5)
  | 0x08 | 0x09 => some (2 ^ 25 + bitSpan 17 8)
  | 0x0F => some (bitSpan 21 4 + bitSpan 0 16)
  | 0x10 => some (bitSpan 17 8 + bitSpan 0 16)
  | 0x11 => some (bitSpan 11 14)
  | 0x14 | 0x15 | 0x16 => some (2 ^ 25 + bitSpan 15 10)
  | 0x17 => some (2 ^ 25 + bitSpan 21 4)
  | 0x18 => some (2 ^ 25 + bitSpan 19 6 + bitSpan 0 6)
  | 0x19 => some (bitSpan 19 6 + bitSpan 12 3)
  | 0x1A => some (2 ^ 25 + bitSpan 14 11)
  | 0x1C | 0x1D => some (bitSpan 17 8)
  | 0x1E => some (bitSpan 17 4 + 1)
  | 0x29 => some (bitSpan 0 22)
  | 0x2A => some (bitSpan 21 3)
  | 0x3F => some (bitSpan 0 16)
  | _ => none

/-- SHIFT: KIND 3 is ILLEGAL, S belongs to LSL, and of the amount and its register one is zero. -/
def shiftSpelt (w : Nat) : Bool :=
  let kind := w / 2 ^ 11 % 4
  kind != 3 && (!bit w 25 || kind == 0) && (if bit w 10 then w / 2 ^ 13 % 16 == 0 else w % 32 == 0)

/-- The word spells an instruction: a defined opcode, and zero in every bit that the instruction does not use (log entry 44). -/
def wordSpelt (w : Nat) : Bool :=
  match coreUsed (w / 2 ^ 26 % 64) with
  | none => false
  | some used => (w % 2 ^ 26 &&& (bitSpan 0 26 ^^^ used)) == 0 && (w / 2 ^ 26 % 64 != 0x07 || shiftSpelt w)

end Sys2Proof.Machine
end

