-- ==== Sys2Proof/Machine/CoreOps.lean ====
section
/-! DEFINITION. How a measurement core issues (R419–R422), the boundary of R429, exceptions and entries (R430–R432), and
what the debug hardware sees at a boundary (R522, R523). -/

namespace Sys2Proof.Machine

/-! ## States (R433) -/

def coreHaltedSt : Nat := 0
def coreRunning : Nat := 1
def coreWaiting : Nat := 2
def coreDebug : Nat := 3
def coreFault : Nat := 4
def coreFailed : Nat := 5

def Module.coreState (m : Module) (c : Nat) : Nat := m.rd (pgCore c) CORE_STATUS.STATE
def Module.setCoreState (m : Module) (c v : Nat) : Module := m.wr (pgCore c) CORE_STATUS.STATE v

/-- The core runs a program: RUNNING or WAITING. -/
def Module.coreActive (m : Module) (c : Nat) : Bool := m.coreState c == coreRunning || m.coreState c == coreWaiting

/-- Some source enabled in IO_IRQ_EN is pending (WAIT ends). -/
def Module.wakes (m : Module) (c : Nat) : Bool := (m.pendingIrq c &&& m.rd (pgIo c) IO_IRQ_EN.EN) != 0

/-! ## What an instruction reads (R423, R429) -/

/-- The d registers an instruction word reads, and the accumulators it reads other than as an accumulate input. -/
def coreReads (w : Nat) : List Nat × List Nat :=
  let rs := w / 2 ^ 17 % 16
  let rt := w / 2 ^ 13 % 16
  let ars := w / 2 ^ 19 % 16
  let art := w / 2 ^ 15 % 16
  let acc := w / 2 ^ 23 % 4
  match w / 2 ^ 26 % 64 with
  | 0x01 | 0x02 | 0x04 | 0x05 | 0x06 | 0x0A | 0x0B | 0x0C | 0x0D | 0x0E => ([rs, rt], [])
  | 0x03 | 0x08 | 0x09 | 0x10 | 0x1C | 0x1D | 0x1E => ([rs], [])
  | 0x07 => (if bit w 10 then [rs] else [rs, rt], [])
  | 0x11 => ([w / 2 ^ 11 % 128], [])
  | 0x14 | 0x15 | 0x16 => ([ars, art], [])
  | 0x17 => ([], [w / 2 ^ 21 % 4])
  | 0x18 => ([], [acc])
  | 0x19 => if bit w 12 then ([ars], []) else ([], [acc])
  | 0x24 | 0x25 => ([w / 2 ^ 17 % 16], [])
  | 0x2B => ([w / 2 ^ 22 % 16], [])
  | _ => ([], [])

/-- The boundary before the next instruction is interruptible (R429). -/
def CoreSt.interruptible (k : CoreSt) : Bool :=
  let (regs, accs) := coreReads (k.imem.get 0 k.pc)
  let loadRead := match k.load with
    | some (r, _, bank) => regs.contains r && (bank == k.bank || !shadowed r)
    | none => false
  let accRead := match k.wrote with
    | some a => (accs.map (accKey k.bank)).contains a
    | none => false
  k.after.isNone && !loadRead && !accRead

/-! ## What is due at a boundary -/

/-- The breakpoint whose address is the next instruction's. -/
def Module.ibpAt (m : Module) (c : Nat) : Option Nat :=
  [0, 1, 2, 3].find? fun i =>
    m.rd pgDbg (DBG_IBP.EN i) c == 1 && m.rd pgDbg (DBG_IBP.ADDR i) c * 4 == (m.cr c).pc

/-- A halt cause is due (R522). -/
def Module.haltDue (m : Module) (c : Nat) : HaltCause → Bool
  | .halt => (m.cr c).dbg.halt
  | .cross => (m.cr c).dbg.cross
  | .step =>
    match (m.cr c).dbg.step with
    | some (n, entry) => decide (0 < n) || entry
    | none => false
  | .ibp i => (m.cr c).dbg.ibp == some i.val || (m.ibpAt c == some i.val && !(m.cr c).dbg.skip)
  | .wp i => (m.cr c).dbg.watch == some i.val
  | .bkpt => (m.cr c).dbg.bkpt

def haltCauses : List HaltCause :=
  [.halt, .cross, .step, .ibp 0, .ibp 1, .ibp 2, .ibp 3, .wp 0, .wp 1, .bkpt]

def Module.debugDue (m : Module) (c : Nat) : Bool := haltCauses.any (m.haltDue c)

/-- HALT, a safe-stop or a severity decision waits for a boundary. -/
def Module.stopDue (m : Module) (c : Nat) : Bool := (m.cr c).haltReq || (m.cr c).severe.isSome

/-- The lowest set bit below n. -/
def lowestBit (n v : Nat) : Option Nat := (List.range n).find? (bit v)

/-- A step with STEP_IRQ_MASK takes no interrupt (R523). -/
def Module.irqMasked (m : Module) (c : Nat) : Bool :=
  (m.cr c).dbg.step.isSome && m.rd pgDbg DBG_CORE_CTRL.STEP_IRQ_MASK c == 1

/-- The level-2 entry that is due: an exception, or the lowest pending and enabled level-2 source (R429). -/
def Module.level2Due (m : Module) (c : Nat) : Option Nat :=
  let k := m.cr c
  match k.exc with
  | some e => some e
  | none =>
    if bit k.sr 9 && decide (k.level < 2) && !m.irqMasked c then
      lowestBit 7 (m.pendingIrq c &&& m.rd (pgIo c) IO_IRQ_EN.EN &&& m.rd (pgIo c) IO_IRQ_LEVEL.L2)
    else none

/-- The level-1 entry that is due. -/
def Module.level1Due (m : Module) (c : Nat) : Option Nat :=
  let k := m.cr c
  if bit k.sr 8 && k.level == 0 && !m.irqMasked c then
    lowestBit 7 (m.pendingIrq c &&& m.rd (pgIo c) IO_IRQ_EN.EN &&& (0x7F ^^^ m.rd (pgIo c) IO_IRQ_LEVEL.L2))
  else none

/-- Nothing comes before the next instruction at this boundary. -/
def Module.clear (m : Module) (c : Nat) : Bool :=
  !(m.cr c).interruptible
    || (!m.debugDue c && !m.stopDue c && (m.level2Due c).isNone && (m.level1Due c).isNone)

/-- The core issues its next instruction now. A core in DEBUG_HALTED that a STEP has started is RUNNING meanwhile. -/
def Module.canIssue (m : Module) (c : Nat) : Bool :=
  !m.powerFailing && (m.coreState c == coreRunning || (m.coreState c == coreWaiting && m.wakes c)) && m.clear c

/-! ## Writes that complete (R420, R421) -/

/-- The load and the AOV of the instruction before become visible. -/
def CoreSt.settle (k : CoreSt) : CoreSt :=
  let k := match k.load with
    | some (r, v, bank) => k.setIn bank r v
    | none => k
  let k := match k.aov with
    | some bank => k.setIn bank 48 (k.regIn bank 48 ||| srAov)
    | none => k
  { k with load := none, aov := none }

/-- Writes still pending at a boundary complete (R429). -/
def CoreSt.complete (k : CoreSt) : CoreSt := { k.settle with seen := k.acc, wrote := none }

/-! ## Exceptions (R432) -/

/-- A second exception, or one at LEVEL 2: the core halts in FAULT_HALTED. -/
def Module.doubleFault (m : Module) (c : Nat) : Module :=
  let m := m.setCr c { (m.cr c).complete with after := none, exc := none }
  let m := (m.setCoreState c coreFault).wr (pgCore c) CORE_EXC_INFO.DOUBLE 1
  (m.raise (pgCore c) 9).report (m.coreIsl c) (m.coreSource c)

/-- An exception of source `e`, raised by the instruction at `pc`. -/
def Module.except (m : Module) (c e pc addr : Nat) : Module :=
  let p := pgCore c
  let m := (m.wr p CORE_EXC_PC.PC pc).wr p CORE_EXC_INFO.SOURCE e |>.bump p CORE_EXC_INFO.COUNT
  let m := if e = 10 then m.wr p CORE_EXC_ADDR.ADDR addr else m
  if (m.cr c).level = 2 then m.doubleFault c
  else m.setCr c { m.cr c with exc := some ((m.cr c).exc.getD e) }

/-! ## Issue -/

/-- What an instruction does besides memory: register writes of the bank in use, flags, a load, an accumulator write, what
follows its delay slot, an exception with its address, a wait, a BKPT. -/
structure Eff where
  regs  : List (Nat × Nat) := []
  flags : FlagSet := FlagSet.none_
  load  : Option (Nat × Nat) := none
  acc   : Option (Nat × Nat) := none
  aov   : Bool := false
  after : Option After := none
  exc   : Option (Nat × Nat) := none
  waits : Bool := false
  bkpt  : Bool := false
  deriving DecidableEq, Repr

/-- ILLEGAL without effect (R427). -/
def Eff.illegal : Eff := { exc := some (9, 0) }

/-- MEM_FAULT at an address, without effect. -/
def Eff.memFault (a : Nat) : Eff := { exc := some (10, a) }

/-- The registers of the core after an instruction: what was pending becomes visible, then the writes of the instruction
(R420, R421). -/
def CoreSt.retire (k : CoreSt) (e : Eff) : CoreSt :=
  let bank := k.bank
  let acc := k.acc
  let k := k.settle
  let k := e.regs.foldl (fun k w => k.setIn bank w.1 w.2) k
  let k := k.setIn bank 48 (e.flags.apply (k.regIn bank 48))
  { k with
    load := e.load.map fun l => (l.1, l.2, bank)
    aov := if e.aov then some bank else none
    seen := acc
    acc := match e.acc with
      | some (i, v) => k.acc.set 0 (accKey bank i) v
      | none => k.acc
    wrote := e.acc.map fun w => accKey bank w.1 }

/-- Where the program goes after an instruction: the slot of a branch follows it, and the target follows the slot. An RTI
completes after its slot (R430, R431); a stack fault of it is an exception of the RTI. -/
def Module.coreNext (m : Module) (c : Nat) (next : Option After) (stack : Ecc) : Module :=
  let k := m.cr c
  match k.after with
  | none => m.setCr c { k with pc := (k.pc + 4) % 2 ^ 32, after := next }
  | some (.jump t) => m.setCr c { k with pc := t % 2 ^ 32, after := next }
  | some (.rti 1) => m.setCr c { k with pc := k.reg 49, after := none, bank := false }
  | some (.rti 2) =>
    let k := k.complete
    let a := k.reg 23
    let m := m.setCr c { k with after := none }
    match m.dataLoad c a 4 stack with
    | (none, m) => m.except c 10 ((k.pc + (2 ^ 32 - 4)) % 2 ^ 32) a
    | (some sr, m) =>
      match m.dataLoad c ((a + 4) % 2 ^ 32) 4 .clean with
      | (none, m) => m.except c 10 ((k.pc + (2 ^ 32 - 4)) % 2 ^ 32) ((a + 4) % 2 ^ 32)
      | (some pc, m) =>
        let k := (m.cr c).setReg 23 ((a + 8) % 2 ^ 32)
        m.setCr c { k.setIn (bit sr 12) 48 (sr &&& (srMask c ||| srBank)) with pc := pc, bank := bit sr 12 }
  | some (.rti _) => m.setCr c { k with pc := (k.pc + 4) % 2 ^ 32, after := none }

/-- One more instruction of a step; a breakpoint that was passed over between boundaries is remembered. -/
def Module.debugIssued (m : Module) (c : Nat) (between : Bool) (hit : Option Nat) : Module :=
  let k := m.cr c
  let d := k.dbg
  let d := { d with
    step := d.step.map fun s => (Nat.min 255 (s.1 + 1), s.2)
    ibp := if between then (d.ibp.orElse fun _ => hit) else d.ibp
    skip := false }
  m.setCr c { k with dbg := d }

/-- What the fetched word does (R398, R399, R427): a fetch outside instruction memory, or one that ECC cannot correct, raises
MEM_FAULT; a word that spells no instruction raises ILLEGAL; else `body`, whose word it is. -/
def Module.coreBody (m : Module) (i : Issue) (body : Module → Module × Eff) : Module × Eff :=
  let pc := (m.cr i.core).pc
  if pc % 4 = 0 ∧ pc < 0x40000 then
    let (bad, m) := m.fetchEcc i.core i.fetch
    if bad then (m, Eff.memFault pc)
    else if wordSpelt ((m.cr i.core).imem.get 0 pc) then body m
    else (m, Eff.illegal)
  else (m, Eff.memFault pc)

/-- The word at the next address is w, or no instruction at all can be read there. -/
def CoreSt.fetches (k : CoreSt) (w : Nat) : Bool :=
  let v := k.imem.get 0 k.pc
  v == w || !wordSpelt v || k.pc % 4 != 0 || decide (0x40000 ≤ k.pc)

/-- A core issues the instruction at its next address, which the word w spells: `body` gives its memory effects and the rest.
Where that address holds another instruction, the core does not issue this one (log entry 44). -/
def Module.coreIssue (m : Module) (i : Issue) (w : Nat) (body : Module → Module × Eff) : Module :=
  let c := i.core.val
  if !m.canIssue c || !(m.cr c).fetches w then m
  else
    let pc := (m.cr c).pc
    let m := m.debugIssued c (!(m.cr c).interruptible) (m.ibpAt c)
    let (m, e) := m.coreBody i body
    let m := (m.setCr c ((m.cr c).retire e)).setCoreState c (if e.waits then coreWaiting else coreRunning)
    let m := m.step64 (pgCore c) CORE_BUSY_LO.CYCLES CORE_BUSY_HI.CYCLES
    let m := if e.bkpt then m.setCr c { m.cr c with dbg := { (m.cr c).dbg with bkpt := true } } else m
    let m := m.coreNext c e.after i.stack
    match e.exc with
    | some (x, a) => m.except c x pc a
    | none => m

/-- An instruction that touches no memory. -/
def Module.issueEff (m : Module) (i : Issue) (w : Nat) (body : CoreSt → Eff) : Module :=
  m.coreIssue i w fun m => (m, body (m.cr i.core))

/-- An instruction that ILLEGAL replaces in a delay slot (R422). -/
def CoreSt.inSlot (k : CoreSt) : Bool := k.after.isSome

/-- A control transfer: ILLEGAL in a slot; untaken, the program goes on after the slot. -/
def CoreSt.branch (k : CoreSt) (taken : Bool) (target : Nat) (regs : List (Nat × Nat)) : Eff :=
  if k.inSlot then Eff.illegal
  else { regs := regs, after := some (.jump (if taken then target % 2 ^ 32 else (k.pc + 8) % 2 ^ 32)) }

/-! ## Watchpoints (R522) -/

/-- A watchpoint that an access of n bytes at a matches. -/
def Module.watchHit (m : Module) (c a n : Nat) (write : Bool) : Option Nat :=
  [0, 1].find? fun w =>
    let kind := m.rd pgDbg (DBG_WP_CFG.KIND w) c
    let b := 2 ^ m.rd pgDbg (DBG_WP_CFG.LOG2_LEN w) c
    let blk := m.rd pgDbg (DBG_WP_ADDR.ADDR w) c / b
    (kind == 3 || kind == (if write then 2 else 1)) && decide (m.rd pgDbg (DBG_WP_CFG.LOG2_LEN w) c < 20)
      && decide (a / b ≤ blk) && decide (blk ≤ (a + n - 1) / b)

def Module.watched (m : Module) (c a n : Nat) (write : Bool) : Module :=
  match m.watchHit c a n write with
  | some w => m.setCr c { m.cr c with dbg := { (m.cr c).dbg with watch := some ((m.cr c).dbg.watch.getD w) } }
  | none => m

/-! ## Entries (R430, R431) -/

/-- The vector of a source. -/
def CoreSt.vector (k : CoreSt) (i : Nat) : Nat := (k.reg 51 + 8 * i) % 2 ^ 32

/-- An entry took place in a step (R523). -/
def CoreSt.entered (k : CoreSt) : CoreSt := { k with dbg := { k.dbg with step := k.dbg.step.map fun s => (s.1, true), skip := false } }

/-- Level-1 entry (R430). -/
def Module.enter1 (m : Module) (c i : Nat) : Module :=
  let k := (m.cr c).complete
  let main := k.regIn false 48
  let k := k.setReg 49 k.pc
  let sr := setLevel (k.regIn true 48) 1
  let k := k.setIn true 48 (setBits sr (256 + srIe2) (main &&& srIe2))
  let m := m.setCr c { k.entered with bank := true, pc := k.vector i }
  (m.setCoreState c coreRunning).step64 (pgCore c) CORE_BUSY_LO.CYCLES CORE_BUSY_HI.CYCLES 3

/-- Level-2 entry (R431); a stack access that is not served is a double fault (R432). -/
def Module.enter2 (m : Module) (c i : Nat) : Module :=
  let k := (m.cr c).complete
  let sp := (k.reg 23 + (2 ^ 32 - 8)) % 2 ^ 32
  let m := m.setCr c { k with exc := none }
  if dataOk c sp 4 && dataOk c (sp + 4) 4 then
    let sr := k.sr
    let m := (m.dataStore c (sp + 4) 4 k.pc).dataStore c sp 4 sr
    let k := (m.cr c).setReg 23 sp
    let k := k.setReg 48 (setBits (setLevel (k.reg 48) 2) srIe2 0)
    let m := m.setCr c { k.entered with pc := k.vector i }
    (m.setCoreState c coreRunning).step64 (pgCore c) CORE_BUSY_LO.CYCLES CORE_BUSY_HI.CYCLES 5
  else
    let p := pgCore c
    let m := (m.wr p CORE_EXC_PC.PC k.pc).wr p CORE_EXC_INFO.SOURCE 10 |>.bump p CORE_EXC_INFO.COUNT
    (m.wr p CORE_EXC_ADDR.ADDR sp).doubleFault c

end Sys2Proof.Machine
end

