-- ==== Sys2Proof/Machine/CoreIsa.lean ====
section
/-! DEFINITION. The instructions of the measurement cores (R415–R427), each issued by a core at its next instruction address,
where instruction memory holds its word (R423, R424; log entry 44). -/

namespace Sys2Proof.Machine

/-! ## Shared shapes -/

/-- rd ← an exact result delivered under R415, with Z, N and V. -/
def effZnv (rd : DReg) (d : Delivered) : Eff := { regs := [(rd.val, d.value)], flags := d.flagsZnv }

/-- rd ← a delivered result, with Z, N, C and V. -/
def effZncv (rd : DReg) (d : Delivered) (carry : Bool) : Eff := { regs := [(rd.val, d.value)], flags := d.flagsZncv carry }

/-- rd ← a 32-bit value, with Z and N. -/
def effZn (rd : DReg) (v : Nat) : Eff := { regs := [(rd.val, v)], flags := flagsZn v }

/-- An accumulator write under R416: AOV, and the AOV exception when it was not saturated and SR.AOVE is 1. -/
def CoreSt.effAcc (k : CoreSt) (acc : Fin 4) (r : AccResult) : Eff :=
  { acc := some (acc.val, r.value), aov := r.aov, exc := if r.plain && bit k.sr 13 then some (8, 0) else none }

def CoreSt.d (k : CoreSt) (r : DReg) : Nat := k.reg r.val
def CoreSt.sd (k : CoreSt) (r : DReg) : Int := k.sreg r.val

/-- The amount of a shift. -/
def CoreSt.amount (k : CoreSt) : Amount → Nat
  | .imm n => n.val
  | .reg rt => k.d rt % 32

/-- A course-core instruction is ILLEGAL on a cluster core (R427). -/
def onCourse (c : CoreNo) (e : Eff) : Eff := if isCluster c then Eff.illegal else e

/-! ## Arithmetic and logic -/

/-- NOP (R424): nothing but the issue. -/
def execNop (c : Issue) (s : State) : Host.Outcome State Fault Refusal :=
  .next (s.onM fun m => m.issueEff c (wordOp 0 0) fun _ => {})

/-- ADD (R424). -/
def execAdd (c : Issue) (rd rs rt : DReg) (sat : Bool) (s : State) : Host.Outcome State Fault Refusal :=
  .next (s.onM fun m => m.issueEff c (wordR 0x01 rd rs rt 0 sat) fun k =>
    effZncv rd (deliver sat (k.sd rs + k.sd rt)) (decide (2 ^ 32 ≤ k.d rs + k.d rt)))

/-- SUB (R424): C is no borrow. -/
def execSub (c : Issue) (rd rs rt : DReg) (sat : Bool) (s : State) : Host.Outcome State Fault Refusal :=
  .next (s.onM fun m => m.issueEff c (wordR 0x02 rd rs rt 0 sat) fun k =>
    effZncv rd (deliver sat (k.sd rs - k.sd rt)) (decide (k.d rt ≤ k.d rs)))

/-- ADDI (R424): IMM is signed. -/
def execAddi (c : Issue) (rd rs : DReg) (imm : BitVec 17) (sat : Bool) (s : State) : Host.Outcome State Fault Refusal :=
  .next (s.onM fun m => m.issueEff c (wordI 0x03 rd rs imm.toNat sat) fun k =>
    effZncv rd (deliver sat (k.sd rs + imm.toInt)) (decide (2 ^ 32 ≤ k.d rs + ofSigned 32 imm.toInt)))

/-- AND (R424). -/
def execAnd (c : Issue) (rd rs rt : DReg) (s : State) : Host.Outcome State Fault Refusal :=
  .next (s.onM fun m => m.issueEff c (wordR 0x04 rd rs rt 0) fun k => effZn rd (k.d rs &&& k.d rt))

/-- OR (R424). -/
def execOr (c : Issue) (rd rs rt : DReg) (s : State) : Host.Outcome State Fault Refusal :=
  .next (s.onM fun m => m.issueEff c (wordR 0x05 rd rs rt 0) fun k => effZn rd (k.d rs ||| k.d rt))

/-- XOR (R424). -/
def execXor (c : Issue) (rd rs rt : DReg) (s : State) : Host.Outcome State Fault Refusal :=
  .next (s.onM fun m => m.issueEff c (wordR 0x06 rd rs rt 0) fun k => effZn rd (k.d rs ^^^ k.d rt))

/-- SHIFT kind 0 (R424): the exact result is rs × 2^n. -/
def execLsl (c : Issue) (rd rs : DReg) (n : Amount) (sat : Bool) (s : State) : Host.Outcome State Fault Refusal :=
  .next (s.onM fun m => m.issueEff c (wordShift 0 rd rs n sat) fun k => effZnv rd (deliver sat (k.sd rs * 2 ^ k.amount n)))

/-- SHIFT kind 1 (R424). -/
def execLsr (c : Issue) (rd rs : DReg) (n : Amount) (s : State) : Host.Outcome State Fault Refusal :=
  .next (s.onM fun m => m.issueEff c (wordShift 1 rd rs n) fun k => effZn rd (k.d rs / 2 ^ k.amount n))

/-- SHIFT kind 2 (R424). -/
def execAsr (c : Issue) (rd rs : DReg) (n : Amount) (s : State) : Host.Outcome State Fault Refusal :=
  .next (s.onM fun m => m.issueEff c (wordShift 2 rd rs n) fun k => effZn rd (ofSigned 32 (k.sd rs / 2 ^ k.amount n)))

/-- ABS (R424). -/
def execAbs (c : Issue) (rd rs : DReg) (sat : Bool) (s : State) : Host.Outcome State Fault Refusal :=
  .next (s.onM fun m => m.issueEff c (wordR 0x08 rd rs 0 0 sat) fun k => effZnv rd (deliver sat (k.sd rs).natAbs))

/-- NEG (R424). -/
def execNeg (c : Issue) (rd rs : DReg) (sat : Bool) (s : State) : Host.Outcome State Fault Refusal :=
  .next (s.onM fun m => m.issueEff c (wordR 0x09 rd rs 0 0 sat) fun k => effZnv rd (deliver sat (-k.sd rs)))

/-- MIN (R424): signed. -/
def execMin (c : Issue) (rd rs rt : DReg) (s : State) : Host.Outcome State Fault Refusal :=
  .next (s.onM fun m => m.issueEff c (wordR 0x0A rd rs rt 0) fun k => effZn rd (if k.sd rs ≤ k.sd rt then k.d rs else k.d rt))

/-- MAX (R424): signed. -/
def execMax (c : Issue) (rd rs rt : DReg) (s : State) : Host.Outcome State Fault Refusal :=
  .next (s.onM fun m => m.issueEff c (wordR 0x0B rd rs rt 0) fun k => effZn rd (if k.sd rs ≤ k.sd rt then k.d rt else k.d rs))

/-- MULL (R424). -/
def execMull (c : Issue) (rd rs rt : DReg) (s : State) : Host.Outcome State Fault Refusal :=
  .next (s.onM fun m => m.issueEff c (wordR 0x0C rd rs rt 0) fun k => effZn rd (k.d rs * k.d rt % 2 ^ 32))

/-- MULF (R417). -/
def execMulf (c : Issue) (rd rs rt : DReg) (sat : Bool) (s : State) : Host.Outcome State Fault Refusal :=
  .next (s.onM fun m => m.issueEff c (wordR 0x0D rd rs rt 0 sat) fun k => effZnv rd (deliver sat ((k.sd rs * k.sd rt + 2 ^ 30) / 2 ^ 31)))

/-- CMP (R418): the flags of rs − rt. -/
def execCmp (c : Issue) (rd rs rt : DReg) (s : State) : Host.Outcome State Fault Refusal :=
  .next (s.onM fun m => m.issueEff c (wordR 0x0E rd rs rt 0) fun k =>
    { flags := (deliver false (k.sd rs - k.sd rt)).flagsZncv (decide (k.d rt ≤ k.d rs)) })

/-- LUI (R424): no flag changes (R418). -/
def execLui (c : Issue) (rd : DReg) (imm : BitVec 16) (s : State) : Host.Outcome State Fault Refusal :=
  .next (s.onM fun m => m.issueEff c (wordI 0x0F rd 0 imm.toNat) fun _ => { regs := [(rd.val, imm.toNat * 65536)] })

/-- ORI (R424). -/
def execOri (c : Issue) (rd rs : DReg) (imm : BitVec 16) (s : State) : Host.Outcome State Fault Refusal :=
  .next (s.onM fun m => m.issueEff c (wordI 0x10 rd rs imm.toNat) fun k => effZn rd (k.d rs ||| imm.toNat))

/-- MOVX (R424): any register number of R409; a reserved number, PC as destination, or BEXPR of a cluster core as
destination is ILLEGAL. -/
def execMovx (c : Issue) (dst src : Fin 128) (s : State) : Host.Outcome State Fault Refusal :=
  .next (s.onM fun m => m.issueEff c (wordX dst src) fun k =>
    match k.movxRead c.core src with
    | some v =>
      match k.movxWrite c.core dst v with
      | some w => { regs := [(dst.val, w)] }
      | none => Eff.illegal
    | none => Eff.illegal)

/-! ## Accumulators -/

/-- MAC (R416). -/
def execMac (c : Issue) (acc : Fin 4) (rs rt : DReg) (sat : Bool) (s : State) : Host.Outcome State Fault Refusal :=
  .next (s.onM fun m => m.issueEff c (wordA 0x14 acc rs rt 0 sat) fun k => k.effAcc acc (accumulate sat (k.accIn acc + k.sd rs * k.sd rt)))

/-- MSU (R416). -/
def execMsu (c : Issue) (acc : Fin 4) (rs rt : DReg) (sat : Bool) (s : State) : Host.Outcome State Fault Refusal :=
  .next (s.onM fun m => m.issueEff c (wordA 0x15 acc rs rt 0 sat) fun k => k.effAcc acc (accumulate sat (k.accIn acc - k.sd rs * k.sd rt)))

/-- MPY (R424): it cannot overflow, and its S bit is ignored (R416). -/
def execMpy (c : Issue) (acc : Fin 4) (rs rt : DReg) (sat : Bool) (s : State) : Host.Outcome State Fault Refusal :=
  .next (s.onM fun m => m.issueEff c (wordA 0x16 acc rs rt 0 sat) fun k => { acc := some (acc.val, ofSigned 80 (k.sd rs * k.sd rt)) })

/-- ACCADD (R416): the destination is an accumulate input, accB is not (R420). -/
def execAccadd (c : Issue) (acc accB : Fin 4) (sat : Bool) (s : State) : Host.Outcome State Fault Refusal :=
  .next (s.onM fun m => m.issueEff c (wordAccadd acc accB sat) fun k =>
    k.effAcc acc (accumulate sat (k.accIn acc + toSigned 80 (k.accSeen accB))))

/-- EXTR (R417); SH above 48 is ILLEGAL. -/
def execExtr (c : Issue) (acc : Fin 4) (rd : DReg) (sh : Fin 64) (sat : Bool) (s : State) :
    Host.Outcome State Fault Refusal :=
  .next (s.onM fun m => m.issueEff c (wordA 0x18 acc rd 0 sh.val sat) fun k =>
    let a := toSigned 80 (k.accSeen acc)
    if 48 < sh.val then Eff.illegal
    else effZnv rd (deliver sat (if sh.val = 0 then a else (a + 2 ^ (sh.val - 1)) / 2 ^ sh.val)))

/-- MOVA to d (R424); PART 3 is ILLEGAL. -/
def execMovaRead (c : Issue) (acc : Fin 4) (rd : DReg) (part : Fin 4) (s : State) : Host.Outcome State Fault Refusal :=
  .next (s.onM fun m => m.issueEff c (wordA 0x19 acc rd 0 (part.val * 2 ^ 13)) fun k =>
    let a := k.accSeen acc
    match part.val with
    | 0 => { regs := [(rd.val, a % 2 ^ 32)] }
    | 1 => { regs := [(rd.val, a / 2 ^ 32 % 2 ^ 32)] }
    | 2 => { regs := [(rd.val, ofSigned 32 (toSigned 16 (a / 2 ^ 64)))] }
    | _ => Eff.illegal)

/-- MOVA to acc (R424). -/
def execMovaWrite (c : Issue) (acc : Fin 4) (rs : DReg) (part : Fin 4) (s : State) : Host.Outcome State Fault Refusal :=
  .next (s.onM fun m => m.issueEff c (wordA 0x19 acc rs 0 (part.val * 2 ^ 13 + 2 ^ 12)) fun k =>
    let a := k.acc.get 0 (accKey k.bank acc)
    let v := k.d rs
    match part.val with
    | 0 => { acc := some (acc.val, a / 2 ^ 32 * 2 ^ 32 + v) }
    | 1 => { acc := some (acc.val, a / 2 ^ 64 * 2 ^ 64 + v * 2 ^ 32 + a % 2 ^ 32) }
    | 2 => { acc := some (acc.val, v % 65536 * 2 ^ 64 + a % 2 ^ 64) }
    | _ => Eff.illegal)

/-- FTAP (R425) on the module: three word accesses, all of them or none. Two post-modifies of one address register leave it at a
free value (log entry 3). -/
def Module.ftap (m : Module) (c : Nat) (acc : Fin 4) (i j : Tap) (ci cj z sat : Bool) : Module × Eff :=
  let k := m.cr c
  let ai := k.reg (aReg i.reg)
  let aj := k.reg (aReg j.reg)
  let ax := (ai + 4) % 2 ^ 32
  if !isCluster c then (m, Eff.illegal)
  else
    match [ai, aj, ax].find? fun a => !dataOk c a 4 with
    | some a => (m, Eff.memFault a)
    | none =>
      let (x, m) := m.dataLoad c ai 4 i.ecc
      let (h, m) := m.dataLoad c aj 4 j.ecc
      match x, h with
      | none, _ => (m, Eff.memFault ai)
      | _, none => (m, Eff.memFault aj)
      | some x, some h =>
        let m := ((m.watched c ai 4 false).watched c aj 4 false).watched c ax 4 true
        let m := m.dataStore c ax 4 x
        let r := accumulate sat ((if z then 0 else k.accIn acc) + toSigned 32 x * toSigned 32 h)
        let (ni, zi) := k.postModify (if ci then 2 else 1) i.reg
        let (nj, zj) := k.postModify (if cj then 2 else 1) j.reg
        let (f, m) := m.draw (i.reg = j.reg && ni.isSome && nj.isSome).toNat
        let both := if i.reg = j.reg && ni.isSome && nj.isSome then [(aReg i.reg, Config.free f % 2 ^ 32)] else []
        (m, { k.effAcc acc r with
          regs := (ni.map fun v => (aReg i.reg, v)).toList ++ (nj.map fun v => (aReg j.reg, v)).toList ++ both
          flags := ⟨0, 0, if zi || zj then srZlen else 0⟩ })

/-- FTAP (R425). -/
def execFtap (c : Issue) (acc : Fin 4) (i j : Tap) (ci cj z sat : Bool) (s : State) :
    Host.Outcome State Fault Refusal :=
  .next (s.onM fun m => m.coreIssue c (wordF acc i.reg j.reg ci cj z sat) fun m => m.ftap c.core acc i j ci cj z sat)

/-! ## Block floating point -/

/-- EXP (R426). -/
def execExp (c : Issue) (rd rs : DReg) (s : State) : Host.Outcome State Fault Refusal :=
  .next (s.onM fun m => m.issueEff c (wordR 0x1C rd rs 0 0) fun k => onCourse c.core { regs := [(rd.val, expOf (k.d rs))] })

/-- NORM (R424): rs × 2^EXP(rs). -/
def execNorm (c : Issue) (rd rs : DReg) (s : State) : Host.Outcome State Fault Refusal :=
  .next (s.onM fun m => m.issueEff c (wordR 0x1D rd rs 0 0) fun k => onCourse c.core (effZn rd (k.d rs * 2 ^ expOf (k.d rs) % 2 ^ 32)))

/-- BEXP with SUB[0] = 0 (R424). -/
def execBexpMin (c : Issue) (rs : DReg) (s : State) : Host.Outcome State Fault Refusal :=
  .next (s.onM fun m => m.issueEff c (wordR 0x1E 0 rs 0 0) fun k => onCourse c.core { regs := [(50, Nat.min (k.reg 50) (expOf (k.d rs)))] })

/-- BEXP with SUB[0] = 1 (R424). -/
def execBexpSet (c : Issue) (rs : DReg) (s : State) : Host.Outcome State Fault Refusal :=
  .next (s.onM fun m => m.issueEff c (wordR 0x1E 0 rs 0 1) fun k => onCourse c.core { regs := [(50, expOf (k.d rs))] })

/-! ## Loads and stores -/

/-- OFS belongs to AM 0 only (R423); another use is a reserved field value. -/
def legalOfs (o : MemOp) : Bool := o.am.val == 0 || o.ofs == 0

/-- The post-modify of a memory operand as writes and flags (R411, R414). -/
def CoreSt.effModify (k : CoreSt) (o : MemOp) : Eff :=
  let (a, skipped) := k.postModify o.am o.set
  { regs := (a.map fun v => (aReg o.set, v)).toList, flags := ⟨0, 0, if skipped then srZlen else 0⟩ }

/-- A load of n bytes into d; a fault writes no register. -/
def Module.load (m : Module) (c : Nat) (d : DReg) (o : MemOp) (n : Nat) (ext : Nat → Nat) (ecc : Ecc) : Module × Eff :=
  let k := m.cr c
  let a := k.address o
  if !legalOfs o then (m, Eff.illegal)
  else
    match m.dataLoad c a n ecc with
    | (some v, m) => (m.watched c a n false, { k.effModify o with load := some (d.val, ext v) })
    | (none, m) => (m, Eff.memFault a)

/-- A store of n bytes of d; with BTRK on a course core it updates BEXPR (R426). -/
def Module.store (m : Module) (c : Nat) (d : DReg) (o : MemOp) (n : Nat) (exponent : Nat → Nat) : Module × Eff :=
  let k := m.cr c
  let a := k.address o
  if !legalOfs o then (m, Eff.illegal)
  else if !dataOk c a n then (m, Eff.memFault a)
  else
    let m := (m.watched c a n true).dataStore c a n (k.d d)
    let e := k.effModify o
    let track := if !isCluster c && bit k.sr 14 then [(50, Nat.min (k.reg 50) (exponent (k.d d)))] else []
    (m, { e with regs := e.regs ++ track })

/-- A halfword, sign-extended. -/
def signHalf (v : Nat) : Nat := ofSigned 32 (toSigned 16 v)

/-- LD.W (R411, R424). -/
def execLdW (c : Issue) (d : DReg) (o : MemOp) (ecc : Ecc) (s : State) : Host.Outcome State Fault Refusal :=
  .next (s.onM fun m => m.coreIssue c (wordM 0x20 d o) fun m => m.load c.core d o 4 id ecc)

/-- LD.H (R424). -/
def execLdH (c : Issue) (d : DReg) (o : MemOp) (ecc : Ecc) (s : State) : Host.Outcome State Fault Refusal :=
  .next (s.onM fun m => m.coreIssue c (wordM 0x21 d o) fun m => m.load c.core d o 2 signHalf ecc)

/-- LD.HU (R424). -/
def execLdHu (c : Issue) (d : DReg) (o : MemOp) (ecc : Ecc) (s : State) : Host.Outcome State Fault Refusal :=
  .next (s.onM fun m => m.coreIssue c (wordM 0x22 d o) fun m => m.load c.core d o 2 id ecc)

/-- ST.W (R424, R426). -/
def execStW (c : Issue) (d : DReg) (o : MemOp) (s : State) : Host.Outcome State Fault Refusal :=
  .next (s.onM fun m => m.coreIssue c (wordM 0x24 d o) fun m => m.store c.core d o 4 expOf)

/-- ST.H (R424, R426). -/
def execStH (c : Issue) (d : DReg) (o : MemOp) (s : State) : Host.Outcome State Fault Refusal :=
  .next (s.onM fun m => m.coreIssue c (wordM 0x25 d o) fun m => m.store c.core d o 2 fun v => expOf (signHalf v) - 16)

/-! ## Control transfer -/

/-- The target of a branch: own address + 4 × OFS. -/
def CoreSt.target (k : CoreSt) (ofs : Int) : Nat := ofSigned 32 (k.pc + 4 * ofs)

/-- B (R424); COND 13–15 are ILLEGAL. -/
def execB (c : Issue) (cond : Fin 16) (ofs : Int) (s : State) : Host.Outcome State Fault Refusal :=
  .next (s.onM fun m => m.issueEff c (wordB 0x28 cond ofs) fun k =>
    match condition cond k.sr with
    | some t => k.branch t (k.target ofs) []
    | none => Eff.illegal)

/-- CALL (R424): a6 ← own address + 8. -/
def execCall (c : Issue) (ofs : Int) (s : State) : Host.Outcome State Fault Refusal :=
  .next (s.onM fun m => m.issueEff c (wordB 0x29 0 ofs) fun k => k.branch true (k.target ofs) [(22, (k.pc + 8) % 2 ^ 32)])

/-- JR (R424). -/
def execJr (c : Issue) (i : Fin 8) (s : State) : Host.Outcome State Fault Refusal :=
  .next (s.onM fun m => m.issueEff c (wordOp 0x2A (i.val * 2 ^ 21)) fun k => k.branch true (k.reg (aReg i)) [])

/-- DBNZ (R424). -/
def execDbnz (c : Issue) (d : DReg) (ofs : Int) (s : State) : Host.Outcome State Fault Refusal :=
  .next (s.onM fun m => m.issueEff c (wordB 0x2B d ofs) fun k =>
    let v := (k.d d + (2 ^ 32 - 1)) % 2 ^ 32
    k.branch (v != 0) (k.target ofs) [(d.val, v)])

/-- RTI (R430, R431): it completes after its delay slot. At LEVEL 0 there is nothing to return from (log entry 45). -/
def execRti (c : Issue) (s : State) : Host.Outcome State Fault Refusal :=
  .next (s.onM fun m => m.issueEff c (wordOp 0x2C 0) fun k => if k.inSlot then Eff.illegal else { after := some (.rti k.level) })

/-- WAIT (R424). -/
def execWait (c : Issue) (s : State) : Host.Outcome State Fault Refusal :=
  .next (s.onM fun m => m.issueEff c (wordOp 0x30 0) fun k => if k.inSlot then Eff.illegal else { waits := true })

/-- BKPT (R522): a debug halt with BKPT_EN set, ILLEGAL without. -/
def execBkpt (c : Issue) (code : BitVec 16) (s : State) : Host.Outcome State Fault Refusal :=
  .next (s.onM fun m => m.issueEff c (wordOp 0x3F code.toNat) fun _ =>
    if m.rd pgDbg DBG_CORE_CTRL.BKPT_EN c.core = 1 then { bkpt := true } else Eff.illegal)

end Sys2Proof.Machine
end

