-- ==== Sys2Proof/Machine/CoreCtl.lean ====
section
/-! DEFINITION. What reaches a measurement core from outside its program: entries, the inbox, notices, DMA, the CORE page,
boot, sparing (R401–R407, R430–R437), and the debug hardware (R522–R524). -/

namespace Sys2Proof.Machine

/-! ## Entries -/

/-- The core stands at an interruptible boundary of a running program. -/
def Module.atBoundary (m : Module) (c : Nat) : Bool := !m.powerFailing && m.coreActive c && (m.cr c).interruptible

/-- INTERRUPT_LEVEL1 (R430). -/
def execInterruptLevel1 (c : CoreNo) (s : State) : Host.Outcome State Fault Refusal :=
  .next (s.onM fun m =>
    match m.level1Due c with
    | some i =>
      if m.atBoundary c && !m.debugDue c && !m.stopDue c && (m.level2Due c).isNone then m.enter1 c i else m
    | none => m)

/-- INTERRUPT_LEVEL2 (R431, R432). -/
def execInterruptLevel2 (c : CoreNo) (s : State) : Host.Outcome State Fault Refusal :=
  .next (s.onM fun m =>
    match m.level2Due c with
    | some i => if m.atBoundary c && !m.debugDue c && !m.stopDue c then m.enter2 c i else m
    | none => m)

/-! ## The inbox (R401, R402) -/

/-- Write bytes into the ring, from ring offset `ofs`. -/
def ringPoke (base size : Nat) : Nat → List Byte → CoreSt → CoreSt
  | _, [], k => k
  | ofs, b :: l, k => ringPoke base size (ofs + 1) l { k with dmem := Store.set 0 k.dmem (base + ofs % size) b }

/-- The free space of the inbox. -/
def Module.inboxFree (m : Module) (c : Nat) : Nat :=
  let n := m.inboxSize c
  n - (m.inboxWr c + n - m.inboxRd c) % n - 16

/-- An entry: KIND, BRICK, EPOCH, INFO, and the item. -/
def Module.inboxPut (m : Module) (c kind brick epoch info : Nat) (item : List Byte) : Module :=
  let p := pgCore c
  let k := m.cr c
  if m.coreState c = coreFailed then m.bump p CORE_INBOX_DROPS.ENTRIES
  else if m.lv p CORE_INBOX.EN ≠ 1 then m
  else
    let size := 16 + nextMultiple item.length 16
    if m.inboxFree c < size then
      ((m.bump p CORE_INBOX_DROPS.ENTRIES).raise p 12).setCr c { k with dropped := k.dropped + 1, latched := k.latched ||| 0x40 }
    else
      let head := leBytes 1 kind ++ leBytes 1 brick ++ leBytes 1 epoch ++ leBytes 1 info ++ leBytes 4 item.length
        ++ leBytes 4 k.dropped ++ leBytes 4 k.seq
      let n := m.inboxSize c
      let k := ringPoke (m.lv p CORE_INBOX.BASE) n (m.inboxWr c) (pad size (head ++ item)) k
      (m.setCr c { k with dropped := 0, seq := (k.seq + 1) % 2 ^ 32 }).wr (pgIo c) IO_INBOX_WR.OFS ((m.inboxWr c + size) % n)

/-- An item that the island has taken for a core. What a core's old island completes after the core has moved is not carried
over to the spare (R47, R436). -/
def Module.inboxPutAt (m : Module) (isl c kind brick epoch info : Nat) (item : List Byte) : Module :=
  if m.coreIsl c = isl then m.inboxPut c kind brick epoch info item else m

/-- The next message of the pair into an island, where it is for core c; none where it is not. -/
def Module.inboxTake (m : Module) (c src isl : Nat) : Option Module :=
  match m.arrival (8 + src) isl with
  | some (.coreSpectrum k sp) =>
    if k = c then some ((m.takeArrival (8 + src) isl).inboxPutAt isl c 1 (sp.brick.getD 0) sp.epoch 0 sp.whole) else none
  | some (.coreIq k g) =>
    if k = c then some ((m.takeArrival (8 + src) isl).inboxPutAt isl c 2 g.brick g.epoch 0 g.whole) else none
  | some (.coreRole cores brick epoch role course) =>
    if cores.contains c then
      some (cores.foldl (fun m k => m.inboxPutAt isl k 3 brick epoch (role + 16 * course) []) (m.takeArrival (8 + src) isl))
    else none
  | _ => none

/-- INBOX_ENTRY (R402): the next message of the pair becomes an entry of the core's inbox; what the core's old island has
accepted comes before (R47). -/
def execInboxEntry (c : CoreNo) (src : Cluster) (s : State) : Host.Outcome State Fault Refusal :=
  .next (s.onM fun m =>
    match m.inboxTake c src (coreIsland c) with
    | some m => m
    | none => (m.inboxTake c src (m.coreIsl c)).getD m)

/-- A notice enters the record FIFO (R403, R437). -/
def Module.noticePut (m : Module) (c : Nat) (n : RecNote) : Module :=
  let p := pgCore c
  let k := m.cr c
  if m.coreState c = coreFailed then m.bump p CORE_REC_LOST.NOTICES
  else if 16 ≤ k.recs.length then
    ((m.bump p CORE_REC_LOST.NOTICES).raise p 13).setCr c { k with latched := k.latched ||| 0x40 }
  else m.setCr c { k with recs := k.recs ++ [n] }

/-- The next message of the pair into an island, where it is a notice for core c. -/
def Module.noticeTake (m : Module) (c src isl : Nat) : Option Module :=
  match m.arrival src isl with
  | some (.record n k) =>
    if k = c then
      let m := m.takeArrival src isl
      some (if m.coreIsl c = isl then m.noticePut c n else m)
    else none
  | _ => none

/-- RECORD_NOTICE (R403). -/
def execRecordNotice (c : CoreNo) (d : Input) (s : State) : Host.Outcome State Fault Refusal :=
  .next (s.onM fun m =>
    match m.noticeTake c (24 + d) (coreIsland c) with
    | some m => m
    | none => (m.noticeTake c (24 + d) (m.coreIsl c)).getD m)

/-! ## DMA (R405–R407) -/

/-- The check of a descriptor before its move: ZERO_LENGTH or RANGE. -/
def dmaCheck (c : Nat) (d : DmaDesc) : Option Nat :=
  if d.len = 0 then some 1
  else if d.addr % 4 ≠ 0 ∨ d.ofs % 4 ≠ 0 ∨ d.len % 4 ≠ 0 ∨ 1048576 < d.len ∨ dmemBytes c < d.addr + d.len then some 2
  else none

/-- The messages of a move (R407). -/
def Module.dmaMsgs (m : Module) (c region ofs len : Nat) (out : Bool) : List (List (Nat × Nat)) :=
  let g := m.region region
  if out then g.writeMsgs ofs len else g.readMsgs (m.coreIsl c) ofs len

/-- The move of a descriptor: its status, and the state after it. A local word that ECC could not correct leaves its mark on the
HBM word (R399). -/
def State.dmaMove (s : State) (c : Nat) (d : DmaDesc) (ecc : Ecc) : Nat × State :=
  let isl := s.m.coreIsl c
  let g := s.m.region d.region
  let mapped := g.holds d.ofs d.len
  if d.out then
    let (bad, m) := s.m.coreWords c (d.len / 4) ecc
    let data := (List.range d.len).map fun i => Store.get 0 (m.cr c).dmem (d.addr + i)
    let s := ({ s with m := m } : State).hbmWrite isl d.region d.ofs data
    let s := bad.foldl (fun (s : State) i =>
      if g.holds (d.ofs + 4 * i) 4 then { s with hbm := markPoison s.hbm g (d.ofs + 4 * i) 4 } else s) s
    (if !mapped then 3 else if bad.isEmpty then 0 else 4, s)
  else
    let (data, bad, s) := s.checkedRead isl d.region d.ofs d.len ecc
    let s := s.onM fun m => m.setCr c ((m.cr c).poke d.addr data)
    (if !mapped then 3 else if bad then 4 else 0, s)

/-- The oldest descriptor leaves with a status. -/
def Module.dmaEnd (m : Module) (c : Nat) (rest : List DmaDesc) (status tag : Nat) : Module :=
  m.setCr c { m.cr c with dma := rest, dmaAt := m.clk.ticks, done := (m.cr c).done ++ [(status, tag)] }

/-- The engine has had the time to move n bytes: 16 a core cycle, 12 a tick (R407). -/
def Module.dmaReady (m : Module) (c n : Nat) : Bool := decide ((m.cr c).dmaAt + ceilDiv n 12 ≤ m.clk.ticks)

/-- DMA_COMPLETION (R406): the oldest descriptor is done, once the FIFO can take its completion, its bytes have moved and its
messages have passed (R41). -/
def execDmaCompletion (c : CoreNo) (ecc : Ecc) (s : State) : Host.Outcome State Fault Refusal :=
  .next (
    match (s.m.cr c).dma with
    | [] => s
    | d :: rest =>
      if 8 ≤ (s.m.cr c).done.length then s
      else
        match dmaCheck c d with
        | some status => s.onM fun m => m.dmaEnd c rest status d.tag
        | none =>
          if !s.m.dmaReady c d.len then s
          else
            match s.m.letThrough (7168 + c) (s.m.lv (pgCore c) ACTIVITY_ID.ACTIVITY) (s.m.dmaMsgs c d.region d.ofs d.len d.out) with
            | (false, m) => { s with m := m }
            | (true, m) =>
              let (status, s) := ({ s with m := m } : State).dmaMove c d ecc
              s.onM fun m => m.dmaEnd c rest status d.tag)

/-- IO_TIMER_MATCH (R428): once per write of IO_TIMER_LO. -/
def execIoTimerMatch (c : CoreNo) (s : State) : Host.Outcome State Fault Refusal :=
  .next (s.onM fun m =>
    let k := m.cr c
    if k.timer && decide (m.rd64 (pgIo c) IO_TIMER_LO.TIME IO_TIMER_HI.TIME ≤ m.ioTime c) then
      m.setCr c { k with timer := false, latched := k.latched ||| 0x08 }
    else m)

/-- CORE_MBOX_IN (R428). -/
def State.takeCoreMboxIn (s : State) (c : CoreNo) (v : Word) : State := (s.onM fun m =>
    let m := m.wr (pgCore c) CORE_MBOX_IN.DATA v.toNat
    m.setCr c { m.cr c with latched := (m.cr c).latched ||| 0x10 })

/-- The command: a write that does this. -/
def execCoreMboxIn (r : Requester) (c : CoreNo) (v : Word) (s : State) : Host.Outcome State Fault Refusal :=
  .next (s.via (.coreMboxIn r c v) r (pgCore c) fun s => s.takeCoreMboxIn c v)

/-! ## Running and halting (R433, R434) -/

/-- RESTART (R434): issue at CORE_ENTRY with SR zero, the main bank, LEVEL 0. -/
def State.takeRestart (s : State) (c : CoreNo) : State := (s.onM fun m =>
    if m.coreState c = coreHaltedSt ∨ m.coreState c = coreFault then
      let k := (m.cr c).complete
      let k := { k.setIn false 48 0 with
        bank := false, pc := m.rd (pgCore c) CORE_ENTRY.ADDR / 4 * 4, after := none, exc := none, haltReq := false }
      (m.setCr c k).setCoreState c coreRunning
    else m)

/-- The command: a write that does this. -/
def execRestart (r : Requester) (c : CoreNo) (s : State) : Host.Outcome State Fault Refusal :=
  .next (s.via (.restart r c) r (pgCore c) fun s => s.takeRestart c)

/-- RESUME (R434). -/
def State.takeResume (s : State) (c : CoreNo) : State := (s.onM fun m =>
    if m.coreState c = coreHaltedSt then (m.setCr c { m.cr c with haltReq := false }).setCoreState c coreRunning else m)

/-- The command: a write that does this. -/
def execResume (r : Requester) (c : CoreNo) (s : State) : Host.Outcome State Fault Refusal :=
  .next (s.via (.resume r c) r (pgCore c) fun s => s.takeResume c)

/-- HALT (R434): it takes effect at the first interruptible boundary (CORE_HALTED). -/
def Module.requestHalt (m : Module) (c : Nat) : Module :=
  if m.coreActive c then m.setCr c { m.cr c with haltReq := true } else m

def State.takeHalt (s : State) (c : CoreNo) : State := (s.onM fun m => m.requestHalt c)

/-- The command: a write that does this. -/
def execHalt (r : Requester) (c : CoreNo) (s : State) : Host.Outcome State Fault Refusal :=
  .next (s.via (.halt r c) r (pgCore c) fun s => s.takeHalt c)

/-- A severity decision halts the core in FAULT_HALTED; a debug halt ends with it (R436, R522). -/
def Module.faultHalt (m : Module) (c : Nat) : Module :=
  let k := (m.cr c).complete
  let m := m.setCr c { k with haltReq := false, dbg := { DebugSt.init with skip := k.dbg.skip } }
  let m := (m.wr pgDbg DBG_CORE_STATUS.DEBUG_HALTED 0 c).wr pgDbg DBG_CORE_STATUS.EXC_PENDING 0 c
  (m.setCoreState c coreFault).raise (pgCore c) 9

/-- CORE_HALTED (R434): the core reaches an interruptible boundary with a halt, or a severity decision, waiting. One that
issues nothing is at such a boundary. -/
def execCoreHalted (c : CoreNo) (s : State) : Host.Outcome State Fault Refusal :=
  .next (s.onM fun m =>
    let k := m.cr c
    if k.severe.isSome ∧ m.coreState c ≠ coreFault ∧ m.coreState c ≠ coreFailed
        ∧ (k.interruptible ∨ m.coreActive c = false) then m.faultHalt c
    else if m.coreActive c && k.haltReq && k.interruptible && !m.debugDue c then
      ((m.setCr c { k.complete with haltReq := false }).setCoreState c coreHaltedSt).raise (pgCore c) 8
    else m)

/-- The memory window and boots act only in HALTED and FAULT_HALTED (R435). -/
def Module.memOpen (m : Module) (c : Nat) : Bool := m.coreState c == coreHaltedSt || m.coreState c == coreFault

/-- A word of instruction or data memory through the window; beyond data memory it reads 0. -/
def Module.windowWord (m : Module) (c : Nat) : Nat :=
  let p := pgCore c
  let a := m.rd p CORE_MEM_SEL.ADDR / 4 * 4
  if !m.memOpen c then 0
  else if m.rd p CORE_MEM_SEL.SPACE = 0 then (if a < 0x40000 then (m.cr c).imem.get 0 a else 0)
  else if a < dmemBytes c then (m.cr c).peek a 4 else 0

/-- CORE_MEM_DATA (R435): a write or a read of the window, with AUTO_INC. -/
def State.takeCoreMemData (s : State) (r : Requester) (c : CoreNo) (v : Option Word) : State := (s.onM fun m =>
    let p := pgCore c
    let a := m.rd p CORE_MEM_SEL.ADDR / 4 * 4
    let m : Module := match v with
      | none =>
        let v := m.windowWord c
        (if m.memOpen c && m.rd p CORE_MEM_SEL.SPACE == 1 && decide (a < dmemBytes c) then (m.coreEcc c .clean).2 else m).setAnswer r v
      | some w =>
        if !m.memOpen c then m
        else if m.rd p CORE_MEM_SEL.SPACE = 0 then
          (if a < 0x40000 then m.setCr c { m.cr c with imem := (m.cr c).imem.set 0 a w.toNat } else m)
        else if a < dmemBytes c then m.setCr c ((m.cr c).poke a (leBytes 4 w.toNat))
        else m
    if m.rd p CORE_MEM_SEL.AUTO_INC = 1 then m.wr p CORE_MEM_SEL.ADDR (m.rd p CORE_MEM_SEL.ADDR + 4) else m)

/-- The command: a write that does this. -/
def execCoreMemData (r : Requester) (c : CoreNo) (v : Option Word) (s : State) : Host.Outcome State Fault Refusal :=
  .next (s.via (.coreMemData r c v) r (pgCore c) (fun s => s.takeCoreMemData r c v) v.isSome)

/-! ## Boot (R435) -/

def Module.bootResult (m : Module) (c result : Nat) : Module :=
  ((m.wr (pgCore c) CORE_BOOT_STATUS.RESULT result).wr (pgCore c) CORE_BOOT_STATUS.STATE 2).raise (pgCore c) 14

/-- BOOT_GO (R435). A GO while a boot is busy has no effect (log entry 150). -/
def State.takeBootGo (s : State) (c : CoreNo) : State := (s.onM fun m =>
    let p := pgCore c
    let len := m.rd p CORE_BOOT_LEN.LEN
    if m.rd p CORE_BOOT_STATUS.STATE = 1 then m
    else if !m.memOpen c then m.bootResult c 5
    else if len = 0 then m.bootResult c 1
    else if 262144 < len ∨ len % 4 ≠ 0 then m.bootResult c 2
    else
      (m.setCr c { m.cr c with boot := (m.rd p CORE_BOOT_SRC.REGION, m.rd64 p CORE_BOOT_OFS_LO.OFS CORE_BOOT_OFS_HI.OFS, len) }).wr
        p CORE_BOOT_STATUS.STATE 1)

/-- The command: a write that does this. -/
def execBootGo (r : Requester) (c : CoreNo) (s : State) : Host.Outcome State Fault Refusal :=
  .next (s.via (.bootGo r c) r (pgCore c) fun s => s.takeBootGo c)

/-- Words of little-endian bytes. -/
def wordsOf : List Byte → List Nat
  | a :: b :: c :: d :: l => leNat [a, b, c, d] :: wordsOf l
  | _ => []

/-- BOOT_DONE (R435): the messages of the copy have passed, and it is made; the core is HALTED (R433). -/
def execBootDone (c : CoreNo) (ecc : Ecc) (s : State) : Host.Outcome State Fault Refusal :=
  .next (
    let p := pgCore c
    let (region, ofs, len) := (s.m.cr c).boot
    if s.m.rd p CORE_BOOT_STATUS.STATE ≠ 1 then s
    else if !s.m.memOpen c then s.onM fun m => m.bootResult c 5
    else
      match s.m.letThrough (7200 + c) (s.m.lv p ACTIVITY_ID.ACTIVITY) (s.m.dmaMsgs c region ofs len false) with
      | (false, m) => { s with m := m }
      | (true, m) =>
        let mapped := (m.region region).holds ofs len
        let (data, bad, s) := ({ s with m := m } : State).checkedRead (m.coreIsl c) region ofs len ecc
        s.onM fun m =>
          let k := m.cr c
          let w := wordsOf data
          let imem := ((List.range w.length).zip w).foldl (fun (t : Store Nat) x => t.set 0 (4 * x.1) x.2) k.imem
          ((m.setCr c { k with imem := imem }).setCoreState c coreHaltedSt).bootResult c (if !mapped then 3 else if bad then 4 else 0))

/-! ## Sparing (R436, R437) -/

/-- The spare of a kind of core serves no logical core yet. -/
def Module.coreSpareLeft (m : Module) (c : Nat) : Bool :=
  if isCluster c then (List.range 16).all fun k => (m.cr k).phys != 16
  else ([16, 17, 18, 19] : List Nat).all fun k => (m.cr k).phys != 4

/-- A severity decision on the physical core that serves c (R436), or one without a spare (R437): RD and WR return to 0 with
the program. -/
def Module.coreOrder (m : Module) (c syndrome : Nat) : Module :=
  if m.coreState c = coreFailed then m else m.setCr c { m.cr c with severe := some syndrome }

/-- The logical core that a physical core of a kind serves. -/
def Module.coreOf (m : Module) (cluster : Bool) (phys : Nat) : Option Nat :=
  (if cluster then List.range 16 else [16, 17, 18, 19]).find? fun c => (m.cr c).phys == phys

/-- The core I/O registers return to zero (R436). -/
def Module.clearIo (m : Module) (c : Nat) : Module :=
  [IO_INBOX_WR.OFS, IO_INBOX_RD.OFS, IO_DMA_LOCAL.ADDR, IO_DMA_REGION.REGION, IO_DMA_OFS_LO.OFS, IO_DMA_OFS_HI.OFS, IO_DMA_LEN.LEN,
    IO_TIMER_LO.TIME, IO_TIMER_HI.TIME, IO_IRQ_EN.EN, IO_IRQ_LEVEL.L2, IO_MBOX_OUT.DATA].foldl (fun m f => m.wr (pgIo c) f 0) m

/-- CORE_SUBSTITUTION (R436, R437): the halted core moves to the spare of its kind, whose memories and registers are zero;
without a spare it enters FAILED. -/
def execCoreSubstitution (c : CoreNo) (s : State) : Host.Outcome State Fault Refusal :=
  .next (s.onM fun m =>
    let p := pgCore c
    let k := m.cr c
    match k.severe with
    | none => m
    | some _ =>
      if m.coreState c ≠ coreFault then m
      else if m.coreSpareLeft c then
        let source := m.coreSource c
        let old := k.phys
        let new := if isCluster c then 16 else 4
        let m := m.setCr c { CoreSt.init c with phys := new, seq := k.seq, dropped := k.dropped, boot := k.boot }
        let m := { m with net.passed := (m.net.passed.set 0 (7168 + c) 0).set 0 (7200 + c) 0 }
        let m := (m.clearIo c).setCoreState c coreHaltedSt
        let m := (m.wr p STATUS.SPARE_IN_USE 1).raise p 11
        (m.recordSubst (if isCluster c then 3 else 4) 1 c old new (some source)).clearSevere source
      else
        let m := (m.setCr c { k with severe := none }).setCoreState c coreFailed
        m.spareExhausted (m.coreIsl c) (if isCluster c then 3 else 4) c)

/-! ## The commit of CORE (R437, R438) -/

/-- The checks of a snapshot of CORE. -/
def checkCore (m : Module) (c : Nat) (snap : Store Nat) : List Bad :=
  let p := pgCore c
  let g := fun (f : Fld) => snapGet snap p f
  let size := g CORE_INBOX_SIZE.SIZE
  let on := g CORE_INBOX.EN == 1
  let changed := g CORE_INBOX.EN != m.lv p CORE_INBOX.EN || g CORE_INBOX.BASE != m.lv p CORE_INBOX.BASE
    || size != m.lv p CORE_INBOX_SIZE.SIZE
  chk (62 ≤ g ACTIVITY_ID.ACTIVITY) 0x02C 2
  ++ chk (changed && m.coreActive c) 0x04C 0x80
  ++ chk (on && m.coreState c == coreFailed) 0x04C 0x81
  ++ chk (g CORE_INBOX.BASE % 16 != 0) 0x04C 2
  ++ chk (on && size == 0) 0x04C 1
  ++ chk (size != 0 && (size % 16 != 0 || decide (size < 256))) 0x050 2
  ++ chk (size != 0 && decide (dmemBytes c < g CORE_INBOX.BASE + size)) 0x04C 2
  ++ chk (g CORE_REC_SLOT.SLOT == 15) 0x058 2

/-- An applied CORE_INBOX change resets RD and WR; entry numbers start again when the inbox is enabled. -/
def Module.appliedCore (m before : Module) (c : Nat) : Module :=
  let p := pgCore c
  if differs m before p [CORE_INBOX.EN, CORE_INBOX.BASE, CORE_INBOX_SIZE.SIZE] 0 then
    let m := (m.wr (pgIo c) IO_INBOX_WR.OFS 0).wr (pgIo c) IO_INBOX_RD.OFS 0
    if m.lv p CORE_INBOX.EN = 1 ∧ before.lv p CORE_INBOX.EN = 0 then m.setCr c { m.cr c with seq := 0, dropped := 0 } else m
  else m

/-! ## The debug hardware (R522–R524) -/

def haltCode : HaltCause → Nat
  | .halt => 1
  | .step => 2
  | .ibp _ => 3
  | .wp _ => 4
  | .bkpt => 5
  | .cross => 6

def haltIndex : HaltCause → Nat
  | .ibp i => i.val
  | .wp i => i.val
  | _ => 0

/-- SKID: the boundary lies after the instruction that caused the halt. -/
def Module.skidOf (m : Module) (c : Nat) : HaltCause → Bool
  | .ibp i => (m.cr c).dbg.ibp == some i.val
  | .wp _ => true
  | .bkpt => true
  | _ => false

/-- The core that DBG_CORE_SEL names, where there is one. -/
def Module.dbgSel (m : Module) : Nat := m.rd pgDbg DBG_CORE_SEL.CORE

/-- Debug writes take effect from the JDL always, from the host and the cores only while HOST_DEBUG is 1 (spec 16, DBG page). -/
def Module.debugAllows (m : Module) (r : Requester) : Bool := r == .jdl || r == .mgt || m.rd pgDbg DBG_CTRL.HOST_DEBUG == 1

/-- A debug write to the selected core. -/
def State.debugWrite (s : State) (r : Requester) (f : Module → Nat → Module) : State :=
  s.onM fun m => if m.debugAllows r && decide (m.dbgSel < 20) then f m m.dbgSel else m

/-- DBG_HALT (R522): no effect unless RUNNING or WAITING. -/
def State.takeDbgHalt (s : State) (r : Requester) : State :=
  s.debugWrite r fun m c =>
    if m.coreActive c then m.setCr c { m.cr c with dbg := { (m.cr c).dbg with halt := true } } else m

/-- The command: a write that does this. -/
def execDbgHalt (r : Requester) (s : State) : Host.Outcome State Fault Refusal :=
  .next (s.via (.dbgHalt r) r pgDbg fun s => s.takeDbgHalt r)

/-- A cross-halt leaves for the other running members of the core's group (R524). -/
def Module.sendCrossHalt (m : Module) (c : Nat) : Module :=
  let g := m.rd pgDbg DBG_CORE_CTRL.XH_GROUP c
  if g = 0 then m
  else (List.range 20).foldl (fun m k =>
    if k ≠ c ∧ m.rd pgDbg DBG_CORE_CTRL.XH_GROUP k = g ∧ m.coreActive k then
      m.setCr k { m.cr k with dbg := { (m.cr k).dbg with coming := true } }
    else m) m

/-- DEBUG_HALT (R522): the core reaches its halt boundary for a cause that is due. -/
def execDebugHalt (c : CoreNo) (cause : HaltCause) (s : State) : Host.Outcome State Fault Refusal :=
  .next (s.onM fun m =>
    if m.atBoundary c && m.haltDue c cause && (m.cr c).severe.isNone then
      let k := m.cr c
      let d := pgDbg
      let m := ((m.wr d DBG_CORE_STATUS.CAUSE (haltCode cause) c).wr d DBG_CORE_STATUS.INDEX (haltIndex cause) c).wr d
        DBG_CORE_STATUS.SKID (m.skidOf c cause).toNat c
      let m := (m.wr d DBG_CORE_STATUS.EXC_PENDING k.exc.isSome.toNat c).wr d DBG_CORE_STATUS.DEBUG_HALTED 1 c
      let m := match k.dbg.step with
        | some (n, _) => m.wr d DBG_CORE_STATUS.STEPPED n c
        | none => m
      let m := m.setCr c { k.complete with dbg := DebugSt.init }
      let m := (m.setCoreState c coreDebug).raise d 8
      match cause with
      | .step => m
      | .cross => m
      | _ => m.sendCrossHalt c
    else m)

/-- A DEBUG_HALTED core issues again from its boundary. -/
def Module.leaveDebug (m : Module) (c : Nat) (step : Option (Nat × Bool)) : Module :=
  if m.coreState c = coreDebug then
    let m := m.setCr c { m.cr c with dbg := { (m.cr c).dbg with skip := true, step := step } }
    let m := (m.wr pgDbg DBG_CORE_STATUS.DEBUG_HALTED 0 c).wr pgDbg DBG_CORE_STATUS.EXC_PENDING 0 c
    m.setCoreState c coreRunning
  else m

/-- DBG_STEP (R523). -/
def State.takeDbgStep (s : State) (r : Requester) : State :=
  s.debugWrite r fun m c => m.leaveDebug c (some (0, false))

/-- The command: a write that does this. -/
def execDbgStep (r : Requester) (s : State) : Host.Outcome State Fault Refusal :=
  .next (s.via (.dbgStep r) r pgDbg fun s => s.takeDbgStep r)

/-- DBG_RESUME (R522). -/
def State.takeDbgResume (s : State) (r : Requester) : State :=
  s.debugWrite r fun m c => m.leaveDebug c none

/-- The command: a write that does this. -/
def execDbgResume (r : Requester) (s : State) : Host.Outcome State Fault Refusal :=
  .next (s.via (.dbgResume r) r pgDbg fun s => s.takeDbgResume r)

/-- CROSS_HALT (R524): the halt reaches the member. -/
def execCrossHalt (c : CoreNo) (s : State) : Host.Outcome State Fault Refusal :=
  .next (s.onM fun m =>
    let k := m.cr c
    if k.dbg.coming then m.setCr c { k with dbg := { k.dbg with coming := false, cross := m.coreActive c } } else m)

/-- DBG_XH_RESUME (R524): group 0 has no effect. -/
def State.takeDbgXhResume (s : State) (r : Requester) (g : Fin 4) : State := (s.onM fun m =>
    if m.debugAllows r && g.val != 0 then
      (List.range 20).foldl (fun m c =>
        if m.rd pgDbg DBG_CORE_CTRL.XH_GROUP c = g.val then m.leaveDebug c none else m) m
    else m)

/-- The command: a write that does this. -/
def execDbgXhResume (r : Requester) (g : Fin 4) (s : State) : Host.Outcome State Fault Refusal :=
  .next (s.via (.dbgXhResume r g) r pgDbg fun s => s.takeDbgXhResume r g)

end Sys2Proof.Machine
end

