-- ==== Sys2Proof/Machine/Faults.lean ====
section
/-! DEFINITION. Fault collection, island 58, and the safety partition, island 57 (spec/14): counting, records, reactions,
safe-stop, injection, the mailbox, monitors. -/

namespace Sys2Proof.Machine

/-! ## Substitution orders (R48, R454) -/

/-- Send the substitution order of a severe source to its unit's island: KIND as in R54, and 10 for a decompressor lane; the
unit is the physical one. -/
def Module.orderFor (m : Module) (n syndrome : Nat) : Module :=
  let order := fun (isl kind unit : Nat) => m.post 58 isl .evt (.substOrder kind unit syndrome)
  if 16 ≤ n ∧ n < 288 then order ((n - 16) / 68) 1 ((n - 16) % 68)
  else if 304 ≤ n ∧ n < 576 then order (8 + (n - 304) / 17) 2 ((n - 304) % 17)
  else if 580 ≤ n ∧ n < 589 then
    match (List.range 8).find? fun e => m.denPhys e == n - 580 with
    | some e => order (m.denIsland e) 6 e
    | none => m
  else if 591 ≤ n ∧ n < 719 then order (32 + (n - 591) / 32) 7 ((n - 591) % 32)
  else if 720 ≤ n ∧ n < 728 then order 24 9 (n - 720)
  else if 728 ≤ n ∧ n < 762 then order (45 + laneGroup (n - 728)) 5 (n - 728)
  else if 762 ≤ n ∧ n < 770 then order 49 10 (n - 762)
  else if 770 ≤ n ∧ n < 792 then
    let cluster := decide (n < 787)
    match m.coreOf cluster (if cluster then n - 770 else n - 787) with
    | some c => order (m.coreIsl c) (if cluster then 3 else 4) c
    | none => m
  else m

/-- A substitution order at its island. -/
def State.takeOrder (s : State) (isl kind unit syndrome : Nat) : State :=
  match kind with
  | 1 => s.onM fun m => m.sliceOrder isl unit syndrome
  | 2 => s.onM fun m =>
    match (clusterBricks (isl - 8)).find? fun n => (m.bk n).slot == unit with
    | some n => m.brickOrder n syndrome
    | none => m
  | 3 => s.onM fun m => m.coreOrder unit syndrome
  | 4 => s.onM fun m => m.coreOrder unit syndrome
  | 5 => s.onM fun m => m.laneOrder unit
  | 6 => s.onM fun m => m.denOrder unit
  | 7 => s.onM fun m => m.hbmOrder (isl - 32) unit syndrome
  | 9 => s.onM fun m => m.retire unit 1
  | 10 => s.dlaneFails unit
  | _ => s

/-! ## Counting (R453, R454) -/

/-- The leak period of a source in ticks: P = max(1, ⌊W × 1,000 ÷ N⌋) µs. -/
def Module.leakPeriod (m : Module) (n : Nat) : Nat :=
  Nat.max 1 (m.rd pgFlt FLT_SRC_WINDOW.MS n * 1000 / m.rd pgFlt FLT_SRC_THRESH.N n) * 2000

/-- An event adds 1 to the bucket; when it rises from 0, the leak timer starts. -/
def Module.fill (m : Module) (n : Nat) : Module :=
  let b := m.rd pgFlt FLT_SRC_STATE.BUCKET n
  let m := m.bump pgFlt FLT_SRC_STATE.BUCKET 1 n
  if b = 0 then { m with flt.leak := m.flt.leak.set 0 n (m.clk.ticks + m.leakPeriod n + 1) } else m

/-- The bucket is empty, and its timer is stopped. -/
def Module.emptyBucket (m : Module) (n : Nat) : Module :=
  { m.wr pgFlt FLT_SRC_STATE.BUCKET 0 n with flt.leak := m.flt.leak.set 0 n 0 }

/-- The leaks of a source that are due: they come before an event of the same cycle (R453). -/
def Module.leaks (m : Module) (n : Nat) : Module :=
  let b := m.rd pgFlt FLT_SRC_STATE.BUCKET n
  let at_ := m.flt.leak.get 0 n
  if 0 < b ∧ 0 < at_ ∧ at_ ≤ m.clk.ticks + 1 then
    let k := (m.clk.ticks + 1 - at_) / m.leakPeriod n + 1
    let m := m.wr pgFlt FLT_SRC_STATE.BUCKET (b - k) n
    { m with flt.leak := m.flt.leak.set 0 n (if b ≤ k then 0 else at_ + k * m.leakPeriod n) }
  else m

/-- BUCKET_LEAK (R453). -/
def execBucketLeak (src : Fin 1024) (s : State) : Host.Outcome State Fault Refusal :=
  .next (s.onM fun m =>
    let n := src.val
    let b := m.rd pgFlt FLT_SRC_STATE.BUCKET n
    let at_ := m.flt.leak.get 0 n
    if 0 < b ∧ 0 < at_ ∧ at_ ≤ m.clk.ticks + 1 then
      let m := m.wr pgFlt FLT_SRC_STATE.BUCKET (b - 1) n
      { m with flt.leak := m.flt.leak.set 0 n (if b = 1 then 0 else at_ + m.leakPeriod n) }
    else m)

/-! ## Records and the log (R456, R458, R463) -/

/-- The sources whose record is latched. -/
def Module.latched (m : Module) : List Nat := (List.range 856).filter fun n => m.rd pgFlt FLT_SRC_STATE.LATCHED n == 1

/-- The record of an event: the first one latches it, a later one counts. -/
def Module.record (m : Module) (f : FaultMsg) (severe : Bool) : Module :=
  let p := pgFlt
  let n := f.source
  let m :=
    if m.rd p FLT_SRC_STATE.LATCHED n = 1 then m.bump p FLT_REC_FLAGS.COUNT 1 n
    else
      let m := if m.latched = [] then
          ((m.wr p FLT_FIRST.VALID 1).wr p FLT_FIRST.SOURCE n).wr64 p FLT_FIRST_TIME_LO.TIME FLT_FIRST_TIME_HI.TIME f.time
        else m
      let m := ((m.wr p FLT_SRC_STATE.LATCHED 1 n).wr p FLT_REC_FLAGS.COUNT 1 n).wr p FLT_REC_FLAGS.KIND
        (!f.corrected).toNat n
      let m := (m.wr p FLT_REC_FLAGS.REAL_AND_INJECTED (f.real && f.injected).toNat n).wr p FLT_REC_FLAGS.INJECTED
        (!f.real && f.injected).toNat n
      (m.wr64 p FLT_REC_TIME_LO.TIME FLT_REC_TIME_HI.TIME f.time n).wr p FLT_REC_SYND.SYNDROME f.syndrome n
  let m := m.wr64 p FLT_REC_LAST_LO.TIME FLT_REC_LAST_HI.TIME f.time n
  if severe then m.wr p FLT_REC_FLAGS.SEVERE_SEEN 1 n else m

/-- Reaction LOG: an entry that arrives at a full log is discarded and counted. -/
def Module.logFault (m : Module) (f : FaultMsg) (severe : Bool) : Module :=
  if 256 ≤ m.flt.log.length then (m.bump pgFlt FLT_LOG_STATUS.OVERFLOW).raise pgFlt 10
  else { m with
    flt.log := m.flt.log ++ [⟨m.flt.seq, f.source, f.time, f.syndrome, f.corrected, f.real, f.injected, severe⟩]
    flt.seq := (m.flt.seq + 1) % 256 }

/-! ## Reactions (R458–R461) -/

/-- The courses that a STOP_COURSE of a source stops (R460). -/
def Module.coursesOf (m : Module) (n : Nat) : List Nat :=
  if 16 ≤ n ∧ n < 288 then [(n - 16) / 68]
  else if 288 ≤ n ∧ n < 304 then [n % 4]
  else if 304 ≤ n ∧ n < 576 then
    match (clusterBricks ((n - 304) / 17)).find? fun b => (m.bk b).slot == (n - 304) % 17 with
    | some b => [(m.brickCfg b).course]
    | none => []
  else if 576 ≤ n ∧ n < 580 then coursesAt (n - 576)
  else [0, 1, 2, 3, 4]

/-- A safe-stop (R461): the order leaves for every island; a second one has no further effect. -/
def Module.orderSafeStop (m : Module) (n : Nat) : Module :=
  if m.safeStopped then m
  else
    let m := (m.wr pgFlt FLT_SAFE_STOP.ACTIVE 1).wr pgFlt FLT_SAFE_STOP.SOURCE n
    (List.range 60).foldl (fun m i => m.post 58 i .evt (.safeStop n)) m

/-- The reactions of an event's level, in the order of the table; an injected event stops nothing (R465). -/
def Module.react (m : Module) (f : FaultMsg) (severe : Bool) : Module :=
  let n := f.source
  let bits := if severe then m.rd pgFlt FLT_SRC_REACT.ON_SEVERE n else m.rd pgFlt FLT_SRC_REACT.ON_EVENT n
  let m := if bit bits 0 then m.logFault f severe else m
  let m := if bit bits 1 then m.raise pgFlt (if severe then 9 else 8) else m
  let m := if bit bits 2 then m.alert 1 else m
  let m := if bit bits 3 then { m with flt.holds := if m.flt.holds.contains n then m.flt.holds else m.flt.holds ++ [n] } else m
  let m := if bit bits 4 && f.real then
      (m.coursesOf n).foldl (fun m d => m.post 58 (courseIsland d) .evt (.stopCourse d)) m
    else m
  if bit bits 5 && f.real then m.orderSafeStop n else m

/-- The compatibility view (R467): every event but those injected alone. -/
def Module.legacy (m : Module) (f : FaultMsg) (severe : Bool) : Module :=
  let p := pgFlt
  let fatal := severe && (m.rd p FLT_SRC_REACT.ON_SEVERE f.source &&& 0x30) != 0
  let cls := if fatal then 2 else if f.corrected then 0 else 1
  let m := m.bump p (if fatal then FLT_LEG_FATAL.COUNT else if f.corrected then FLT_LEG_CORR.COUNT else FLT_LEG_CONT.COUNT)
  let st := if fatal then FLT_LEG_STATUS.FATAL else if f.corrected then FLT_LEG_STATUS.CORRECTED else FLT_LEG_STATUS.CONTAINED
  if m.rd p st = 1 then m
  else
    let m := (m.wr p st 1).wr p FLT_LEG_FIRST_SRC.SOURCE f.source cls
    (m.wr64 p FLT_LEG_FIRST_TIME_LO.TIME FLT_LEG_FIRST_TIME_HI.TIME f.time cls).wr p FLT_LEG_FIRST_SYND.SYNDROME f.syndrome cls

/-- An event counts, latches and takes its reactions (R453–R467); `force` makes its source severe whatever its N (R450). -/
def Module.faultIn (m : Module) (f : FaultMsg) (force : Bool) : Module :=
  let p := pgFlt
  let n := f.source
  if !f.real then ((m.bump p FLT_SRC_INJECTED.COUNT 1 n).record f false).react f false
  else
    let m := (m.leaks n).fill n
    let severe := m.rd p FLT_SRC_STATE.SEVERE n == 0
      && (force || decide (m.rd p FLT_SRC_THRESH.N n ≤ m.rd p FLT_SRC_STATE.BUCKET n))
    let m := if severe then (m.wr p FLT_SRC_STATE.SEVERE 1 n).bump p FLT_SRC_SEVERE.COUNT 1 n else m
    let m := m.record f severe
    let m := if severe then m.orderFor n f.syndrome else m
    (m.react f severe).legacy f severe

/-- FAULT_EVENT (R451): the next report of island `src` reaches island 58. -/
def execFaultEvent (src : Island) (s : State) : Host.Outcome State Fault Refusal :=
  .next (match s.m.arrival src 58 with
    | some (.fault f) => s.onM fun m => (m.takeArrival src 58).faultIn f false
    | _ => s)

/-! ## Safe-stop at an island (R461, R462) -/

/-- A course stops at tick t: its members are told, and RUN reads 0. -/
def Module.stopCourseAt (m : Module) (d t : Nat) : Module :=
  if m.courseState d = 0 then m
  else
    let m := (m.wsh (pgCrs d) CRS_RUN.RUN 0).wlv (pgCrs d) CRS_RUN.RUN 0
    let m := m.setCrs d { m.crs d with stopTick := some t }
    (m.knownMembers d).foldl (fun m n => m.emitStopTo d t n) m

/-- A converter ends delivery and powers down at once; ENABLE reads 0. -/
def Module.safeStopConverter (m : Module) (x : Nat) : Module :=
  let m := m.wr (pgCnv x) CTRL.ENABLE 0
  let m := if m.runState x = 1 ∨ m.runState x = 2 then (m.cutInjection x).converterStops x
    else if m.runState x = 3 then m.setCv x { m.cv x with cutStop := true } else m
  m.setCv x { m.cv x with powered := false, startTick := none }

/-- SAFE_STOP at an island (R461). -/
def execSafeStop (island : Island) (s : State) : Host.Outcome State Fault Refusal :=
  .next (match s.m.arrival 58 island with
    | some (.safeStop _) =>
      s.onM fun m =>
        let i := island.val
        let m := m.takeArrival 58 i
        let m := { m with flt.safe := i :: m.flt.safe.filter fun k => k != i }
        if i < 4 then m.safeStopConverter i
        else if 24 ≤ i ∧ i < 28 then
          let m := (coursesAt (i - 24)).foldl (fun m d => m.stopCourseAt d (m.tick + 1)) m
          if i = 24 then m.stopStreams else m
        else if 50 ≤ i ∧ i < 54 then
          (List.range 20).foldl (fun m c => if m.coreIsl c = i then m.requestHalt c else m) m
        else m
    | _ => s)

/-- SAFE_RELEASE (R462): only through the management port, and not out of a thermal safe-stop. -/
def State.takeSafeRelease (s : State) (r : Requester) : State := (s.onM fun m =>
    if r = .mgt ∧ m.rd pgSaf SAF_STATUS.THERMAL_SHUTDOWN = 0 then
      { m.wr pgFlt FLT_SAFE_STOP.ACTIVE 0 with flt.safe := [] }
    else m)

/-- The command: a write that does this. -/
def execSafeRelease (r : Requester) (s : State) : Host.Outcome State Fault Refusal :=
  .next (s.via (.safeRelease r) r pgSaf fun s => s.takeSafeRelease r)

/-! ## The FLT page -/

/-- The selected source. -/
def Module.fltSel (m : Module) : Nat := m.rd pgFlt FLT_SRC_SEL.SOURCE

/-- FLT_SRC_CONFIG (R453, R468): THRESH and WINDOW are RM; zero is refused, a larger WINDOW has no effect; a write that takes
effect empties the bucket. -/
def State.takeFltSrcConfig (s : State) (r : Requester) (thresh : Bool) (v : Word) : State := (s.onM fun m =>
    let n := m.fltSel
    let x := if thresh then v.toNat % 65536 else v.toNat % 2 ^ 23
    if r ≠ .mgt ∨ x = 0 ∨ (thresh = false ∧ 4194304 < x) then m
    else (m.wr pgFlt (if thresh then FLT_SRC_THRESH.N else FLT_SRC_WINDOW.MS) x n).emptyBucket n)

/-- The command: a write that does this. -/
def execFltSrcConfig (r : Requester) (thresh : Bool) (v : Word) (s : State) : Host.Outcome State Fault Refusal :=
  .next (s.via (.fltSrcConfig r thresh v) r pgFlt fun s => s.takeFltSrcConfig r thresh v)

/-- A record is cleared (R456, R459); a source that stayed SEVERE starts again (R454). -/
def Module.clearRecord (m : Module) (n : Nat) : Module :=
  let p := pgFlt
  let m := [FLT_SRC_STATE.LATCHED, FLT_REC_FLAGS.COUNT, FLT_REC_FLAGS.KIND, FLT_REC_FLAGS.REAL_AND_INJECTED,
    FLT_REC_FLAGS.INJECTED, FLT_REC_FLAGS.SEVERE_SEEN, FLT_REC_TIME_LO.TIME, FLT_REC_TIME_HI.TIME, FLT_REC_SYND.SYNDROME,
    FLT_REC_LAST_LO.TIME, FLT_REC_LAST_HI.TIME].foldl (fun (m : Module) f => m.wr p f 0 n) m
  let m := if m.rd p FLT_SRC_STATE.SEVERE n = 1 then (m.wr p FLT_SRC_STATE.SEVERE 0 n).emptyBucket n else m
  { m with flt.holds := m.flt.holds.filter fun k => k != n }

/-- With no record latched, FLT_FIRST names none. -/
def Module.refreshFirst (m : Module) : Module :=
  if m.latched = [] then
    ((m.wr pgFlt FLT_FIRST.VALID 0).wr pgFlt FLT_FIRST.SOURCE 0).wr64 pgFlt FLT_FIRST_TIME_LO.TIME FLT_FIRST_TIME_HI.TIME 0
  else m

/-- FLT_REC_CLR (R456). -/
def State.takeFltRecClr (s : State) : State := (s.onM fun m => (m.clearRecord m.fltSel).refreshFirst)

/-- The command: a write that does this. -/
def execFltRecClr (r : Requester) (s : State) : Host.Outcome State Fault Refusal :=
  .next (s.via (.fltRecClr r) r pgFlt fun s => s.takeFltRecClr)

/-- FLT_CLR_ALL (R456). -/
def State.takeFltClrAll (s : State) : State := (s.onM fun m => (m.latched.foldl (fun m n => m.clearRecord n) m).refreshFirst)

/-- The command: a write that does this. -/
def execFltClrAll (r : Requester) (s : State) : Host.Outcome State Fault Refusal :=
  .next (s.via (.fltClrAll r) r pgFlt fun s => s.takeFltClrAll)

/-- FLT_LOG_POP (R463): no effect when empty. -/
def State.takeFltLogPop (s : State) : State := (s.onM fun m => { m with flt.log := m.flt.log.drop 1 })

/-- The command: a write that does this. -/
def execFltLogPop (r : Requester) (s : State) : Host.Outcome State Fault Refusal :=
  .next (s.via (.fltLogPop r) r pgFlt fun s => s.takeFltLogPop)

/-- FLT_LEG_STATUS_CLEAR (R467): a status bit goes with its first record. -/
def State.takeFltLegStatusClear (s : State) (bits : BitVec 3) : State := (s.onM fun m =>
    [(0, FLT_LEG_STATUS.CORRECTED), (1, FLT_LEG_STATUS.CONTAINED), (2, FLT_LEG_STATUS.FATAL)].foldl (fun (m : Module) x =>
      if bit bits.toNat x.1 then
        [FLT_LEG_FIRST_SRC.SOURCE, FLT_LEG_FIRST_TIME_LO.TIME, FLT_LEG_FIRST_TIME_HI.TIME, FLT_LEG_FIRST_SYND.SYNDROME].foldl
          (fun (m : Module) f => m.wr pgFlt f 0 x.1) (m.wr pgFlt x.2 0)
      else m) m)

/-- The command: a write that does this. -/
def execFltLegStatusClear (r : Requester) (bits : BitVec 3) (s : State) : Host.Outcome State Fault Refusal :=
  .next (s.via (.fltLegStatusClear r bits) r pgFlt fun s => s.takeFltLegStatusClear bits)

/-- FLT_FAULTN: the lowest latched source that holds the pin (R459). -/
def Module.faultN (m : Module) : Option Nat := (List.range 856).find? fun n => m.flt.holds.contains n

/-! ## The management port and the mailbox (R442–R446) -/

/-- A frame whose PEC or CRC fails (R442). -/
def Module.pecError (m : Module) : Module := (m.bump pgMgt MGT_PORT.PEC_ERRORS).report 57 855

/-- MGT_ALERT_CLEAR (R443): through the management port. -/
def State.takeMgtAlertClear (s : State) (r : Requester) (bits : BitVec 5) : State := (s.onM fun m =>
    if r = .mgt then m.wr pgMgt MGT_ALERT.CAUSE (m.rd pgMgt MGT_ALERT.CAUSE &&& (31 ^^^ bits.toNat)) else m)

/-- The command: a write that does this. -/
def execMgtAlertClear (r : Requester) (bits : BitVec 5) (s : State) : Host.Outcome State Fault Refusal :=
  .next (s.via (.mgtAlertClear r bits) r pgMgt fun s => s.takeMgtAlertClear r bits)

/-- MGT_REQ_GO (R444). -/
def State.takeMgtReqGo (s : State) (r : Requester) : State := (s.onM fun m =>
    if r = .jdl then m
    else if m.rd pgMgt MGT_RESP.STATE = 1 then m.bump pgMgt MGT_REQ_STATS.REFUSED_BUSY
    else
      let m := (m.step pgMgt MGT_RESP.SEQ).wr pgMgt MGT_RESP.STATE 1 |>.alert 0
      { m with safety.askedAt := m.clk.ticks })

/-- The command: a write that does this. -/
def execMgtReqGo (r : Requester) (s : State) : Host.Outcome State Fault Refusal :=
  .next (s.via (.mgtReqGo r) r pgMgt fun s => s.takeMgtReqGo r)

/-- No answer has arrived TIMEOUT_MS milliseconds after the GO (R445). -/
def Module.mailboxLate (m : Module) : Bool :=
  m.rd pgMgt MGT_RESP.STATE == 1 && decide (m.safety.askedAt + m.rd pgMgt MGT_REQ_TIMEOUT.MS * 2000000 ≤ m.clk.ticks)

/-- MGT_RESP (R445): DONE or REFUSED, only while PENDING, and not after the timeout. -/
def State.takeMgtResp (s : State) (r : Requester) (state : Fin 8) (reason : Byte) : State := (s.onM fun m =>
    if m.mailboxLate then m
    else if r = .mgt ∧ m.rd pgMgt MGT_RESP.STATE = 1 ∧ (state.val = 2 ∨ state.val = 3) then
      ((m.wr pgMgt MGT_RESP.STATE state).wr pgMgt MGT_RESP.REASON reason.toNat).raise pgMgt 8
    else m)

/-- The command: a write that does this. -/
def execMgtResp (r : Requester) (state : Fin 8) (reason : Byte) (s : State) : Host.Outcome State Fault Refusal :=
  .next (s.via (.mgtResp r state reason) r pgMgt fun s => s.takeMgtResp r state reason)

/-- MAILBOX_TIMEOUT (R445): TIMEOUT_MS milliseconds after the GO. -/
def execMailboxTimeout (s : State) : Host.Outcome State Fault Refusal :=
  .next (s.onM fun m =>
    if m.mailboxLate then
      (m.wr pgMgt MGT_RESP.STATE 4).raise pgMgt 8
    else m)

/-- A requested substitution: refused, without a spare, or ordered at an island (R446). -/
inductive SubstAnswer where
  | refused
  | noSpare
  | order (island unit : Nat)
  | done
  deriving DecidableEq, Repr

def Module.substSlice (m : Module) (u : Nat) : SubstAnswer :=
  if 4 ≤ u / 64 ∨ (m.cv (u / 64)).failed then .refused
  else if m.rd (pgCnv (u / 64)) CNV_SLICE_STATUS.SPARES_LEFT = 0 then .noSpare
  else .order (u / 64) ((m.sliceAt (u / 64) (u % 64)).getD 0)

def Module.substBrick (m : Module) (u : Nat) : SubstAnswer :=
  if 256 ≤ u ∨ m.rd (pgBrk u) BRK_STATUS.FAILED = 1 then .refused
  else if m.rd (pgBrk u) BRK_PHYS.CLUSTER_SPARE = 0 then .noSpare
  else .order (8 + u / 16) (m.bk u).slot

def Module.substCore (m : Module) (cluster : Bool) (u : Nat) : SubstAnswer :=
  if 20 ≤ u ∨ isCluster u ≠ cluster ∨ m.coreState u = coreFailed then .refused
  else if !m.coreSpareLeft u then .noSpare
  else .order (m.coreIsl u) u

def Module.substLane (m : Module) (u : Nat) : SubstAnswer :=
  if 32 ≤ u ∨ (m.lane u).failed then .refused
  else if (m.laneSpare u).isNone then .noSpare
  else .order (45 + laneGroup (m.lane u).phys) (m.lane u).phys

def Module.substDensity (m : Module) (u : Nat) : SubstAnswer :=
  if 8 ≤ u then .refused
  else if m.rd (pgDen u) DEN_PHYS.SPARE_LEFT = 0 then .noSpare
  else .order (m.denIsland u) u

def Module.substChannel (m : Module) (u : Nat) : SubstAnswer :=
  if 128 ≤ u then .refused else if (m.st (u / 32)).canRetire (u % 32) then .done else .noSpare

def Module.substDrive (m : Module) (u : Nat) : SubstAnswer :=
  if 8 ≤ u ∨ m.roleOf u ≠ 1 then .refused
  else if m.sparePort < 8 && m.driveState m.sparePort == 3 && m.roleOf m.sparePort == 2 then .done
  else .noSpare

/-- What becomes of a request, by KIND; an HBM repair names no range and is refused. -/
def Module.substAnswer (m : Module) (kind u : Nat) : SubstAnswer :=
  if kind = 1 then m.substSlice u
  else if kind = 2 then m.substBrick u
  else if kind = 3 then m.substCore true u
  else if kind = 4 then m.substCore false u
  else if kind = 5 then m.substLane u
  else if kind = 6 then m.substDensity u
  else if kind = 8 then m.substChannel u
  else if kind = 9 then m.substDrive u
  else .refused

/-- The requested substitution is answered, or ordered. A retirement of a pseudo-channel or of a drive starts at once. -/
def Module.substGo (m : Module) (kind u : Nat) : Module :=
  match m.substAnswer kind u with
  | .refused => m.substResult 3
  | .noSpare => m.substResult 2
  | .order isl unit => ({ m with safety.request := some (kind, u) } : Module).post 58 isl .evt (.substOrder kind unit 0)
  | .done =>
    if kind = 8 then
      let t := m.st (u / 32)
      ({ m with safety.request := some (8, u) } : Module).setSt (u / 32)
        { t with waiting := t.waiting ++ [⟨u % 32, none, 0, channelUnits⟩] }
    else ({ m with safety.request := some (9, m.sparePort) } : Module).retire u 3

/-- MGT_SUBST_GO (R446): through the management port. -/
def State.takeMgtSubstGo (s : State) (r : Requester) (kind : Byte) (logical : BitVec 16) : State := (s.onM fun m =>
    if r = .mgt then
      let m := ((m.wr pgMgt MGT_SUBST.KIND kind.toNat).wr pgMgt MGT_SUBST.LOGICAL logical.toNat).wr pgMgt
        MGT_SUBST_STATUS.RESULT 0
      m.substGo kind.toNat logical.toNat
    else m)

/-- The command: a write that does this. -/
def execMgtSubstGo (r : Requester) (kind : Byte) (logical : BitVec 16) (s : State) : Host.Outcome State Fault Refusal :=
  .next (s.via (.mgtSubstGo r kind logical) r pgMgt fun s => s.takeMgtSubstGo r kind logical)

/-! ## The safety partition's own -/

/-- SAF_WALL (R447). -/
def State.takeSafWall (s : State) (r : Requester) (v : Word) : State := (s.onM fun m =>
    if r = .mgt then (m.wr pgSaf SAF_WALL.SECONDS v.toNat).wr pgSaf SAF_STATUS.WALL_SET 1 else m)

/-- The command: a write that does this. -/
def execSafWall (r : Requester) (v : Word) (s : State) : Host.Outcome State Fault Refusal :=
  .next (s.via (.safWall r v) r pgSaf fun s => s.takeSafWall r v)

/-- The checkers and their instances (R464). -/
def checkerInstances (c : Nat) : Nat := if c = 0 then 4 else if c = 1 then 22 else if c = 2 then 60 else 0

/-- SAF_INJ_COUNT (R464): a count of zero arms nothing (R10), and so does a checker or an instance that does not exist. -/
def State.takeSafInjCount (s : State) (r : Requester) (n : BitVec 16) : State := (s.onM fun m =>
    if r = .mgt then
      let m := m.wr pgSaf SAF_INJ_COUNT.COUNT n.toNat
      let c := m.rd pgSaf SAF_INJ_SEL.CHECKER
      let i := m.rd pgSaf SAF_INJ_SEL.INSTANCE
      if n.toNat = 0 ∨ checkerInstances c ≤ i then m
      else { m with net.injectNext := m.net.injectNext.set 0 (injectKey c i) (n.toNat * 2 + m.rd pgSaf SAF_INJ_SEL.MODE) }
    else m)

/-- The command: a write that does this. -/
def execSafInjCount (r : Requester) (n : BitVec 16) (s : State) : Host.Outcome State Fault Refusal :=
  .next (s.via (.safInjCount r n) r pgSaf fun s => s.takeSafInjCount r n)

/-- A die temperature as SAF_TEMP holds it. -/
def Module.dieTemp (m : Module) (d : Nat) : Int := toSigned 16 (m.rd pgSaf SAF_TEMP.NOW d)

/-- The estimates of a loop in HOLDOVER or PULL_IN (R64): the held estimate is integrated up to the update, and the new one
follows the temperature. -/
def Module.estimate (m : Module) (l : Nat) : Module :=
  if m.loopState l = 2 ∨ m.loopState l = 3 then (m.integrate l).estimateNow l else m

/-- The temperatures of an update, with their peaks. -/
def Module.takeTemps (m : Module) (temps : List Int) : Module :=
  (List.range 8).foldl (fun m d =>
    let t := temps.getD d (m.dieTemp d)
    let m := { m.wr pgSaf SAF_TEMP.NOW (ofSigned 16 t) d with
      clk.temps := m.clk.temps.set [] d (((m.clk.ticks, t) :: m.clk.temps.get [] d).take 128) }
    if toSigned 16 (m.rd pgSaf SAF_TEMP.PEAK d) < t then m.wr pgSaf SAF_TEMP.PEAK (ofSigned 16 t) d else m) m

/-- THERM_N follows WARN; its fall is a contained event (R449). -/
def Module.thermPin (m : Module) : Module :=
  let warn := toSigned 16 (m.rd pgSaf SAF_THERM.WARN)
  let warm := (List.range 8).any fun d => decide (warn ≤ m.dieTemp d)
  let was := m.rd pgSaf SAF_STATUS.THERM
  let m := m.wr pgSaf SAF_STATUS.THERM warm.toNat
  if warm && was == 0 then ((m.report 57 854).alert 3).raise pgSaf 9 else m

/-- Since when each die has read 115 °C or more (R450). -/
def Module.watchHeat (m : Module) : Module :=
  (List.range 8).foldl (fun m d =>
    let since := if 29440 ≤ m.dieTemp d then some ((m.safety.hotSince.get none d).getD m.clk.ticks) else none
    { m with safety.hotSince := m.safety.hotSince.set none d since }) m

/-- A code-density build starts when the die temperature has moved by more than TEMP_STEP, in 0.5 °C (R233). -/
def Module.watchStep (m : Module) : Module :=
  let step := m.lv pgEvt EVT_CD_CTRL.TEMP_STEP * 128
  let moved := (m.dieTemp 6 - m.clk.cdTemp).natAbs
  if m.rd pgEvt EVT_STATUS.CD_VALID == 1 && m.rd pgEvt EVT_STATUS.CD_BUILDING == 0 && Nat.blt step moved then m.startBuild
  else m

/-- MONITOR_UPDATE (R449, R64, R233): every 100 µs. -/
def execMonitorUpdate (volts power : BitVec 16) (temps : List Int) (s : State) : Host.Outcome State Fault Refusal :=
  .next (s.onM fun m =>
    if m.safety.monitor.any (fun t => decide (m.clk.ticks < t + 200000)) = true then m
    else
      let m := { m with safety.monitor := some m.clk.ticks }
      let m := (m.wr pgSaf SAF_VIN.VOLTS volts.toNat).wr pgSaf SAF_VIN.POWER power.toNat
      let m := ((m.takeTemps temps).thermPin).watchHeat
      ((List.range 10).foldl (fun m l => m.estimate l) m).watchStep)

end Sys2Proof.Machine
end

