-- ==== Sys2Proof/Machine/HostIf.lean ====
section
/-! DEFINITION. The host interface (spec/15): configuration space, BAR2, the host DMA queues and their doorbells, MSI-X, and
function resets. -/

namespace Sys2Proof.Machine

/-! ## Configuration space (R472, R473, R478) -/

/-- The function answers configuration requests (R473); without PERST_N or rails it answers none. -/
def Module.configReady (m : Module) : Bool := m.railsUp && m.hostif.loaded && !m.hostif.perst

/-- The bits of a configuration word that a write changes; the rest of the layout is the family's (log entry 14). -/
def Module.configMask (m : Module) (w : Nat) : Nat :=
  let l := m.rd pgPcie PCIE_BAR2.LOG2_SIZE
  match w with
  | 1 => 0x546
  | 3 => 0xFF
  | 4 => 0xFC000000
  | 5 => 0xFFFFFFFF
  | 6 => 2 ^ 32 - 2 ^ Nat.min 32 l
  | 7 => 2 ^ 32 - 2 ^ (Nat.max 32 l - 32)
  | 8 => 0xFFFFC000
  | 9 => 0xFFFFFFFF
  | 15 => 0xFF
  | 44 => 0xC0000000
  | _ => 0

def Module.setCfg (m : Module) (w v : Nat) : Module :=
  { m with hostif.config := m.hostif.config.set (configReset w) w v }

/-- Vectors whose pending bit is set and whose messages are no longer masked are sent (R477). -/
def Module.deliverPending (m : Module) : Module :=
  (m.hostif.msixPend.map Prod.fst).foldl (fun m v =>
    if m.msixEnabled && !m.msixMasked v then
      ({ m with hostif.msixPend := m.hostif.msixPend.set 0 v 0 } : Module).sendVector v
    else m) m

/-- The masked bits of a word change; power state 0 or 3 alone is taken (R471: D0 and D3hot); the Resizable BAR control sets
the size of BAR2 (R472: 1 GiB to 128 GiB). -/
def Module.configWrite (m : Module) (w v : Nat) : Module :=
  let old := m.cfg w
  if w = 17 then (if v % 4 = 0 ∨ v % 4 = 3 then m.setCfg 17 (old - old % 4 + v % 4) else m)
  else if w = 66 then
    let n := v / 256 % 64
    if 10 ≤ n ∧ n ≤ 17 then
      let m := (m.setCfg 66 (0x22 + 256 * n)).wr pgPcie PCIE_BAR2.LOG2_SIZE (20 + n)
      let m := m.setCfg 6 ((m.cfg 6 &&& m.configMask 6) ||| 0xC)
      m.setCfg 7 (m.cfg 7 &&& m.configMask 7)
    else m
  else
    let k := m.configMask w
    let m := m.setCfg w ((old &&& (2 ^ 32 - 1 - k)) ||| (v &&& k))
    if w = 44 then m.deliverPending else m

/-- CONFIG_REQUEST (R473): Configuration Request Retry Status, shown as an empty reply, until the configuration is loaded. -/
def execConfigRequest (reg : Fin 1024) (v : Option Word) (s : State) : Host.Outcome State Fault Refusal :=
  .next (s.onM fun m =>
    if m.configReady then
      match v with
      | some w => m.configWrite reg w.toNat
      | none => { m with hostif.reply := leBytes 4 (m.cfg reg) }
    else { m with hostif.reply := [] })

/-- PCIE_CONFIG_LOAD (R504): after the deassertion of PERST_N and the end of step 4. -/
def execPcieConfigLoad (s : State) : Host.Outcome State Fault Refusal :=
  .next (s.onM fun m =>
    if m.railsUp && !m.hostif.loaded && Nat.blt 4 (m.rd pgPwr PWR_START.STEP) then
      { m with hostif.loaded := true, hostif.perst := false }
    else m)

/-! ## MSI-X (R476–R478) -/

/-- MSIX_TABLE_WRITE (R478): a word of an entry; bit 0 of the fourth masks the vector. -/
def execMsixTableWrite (vector : Fin 512) (w : Fin 4) (v : Word) (s : State) : Host.Outcome State Fault Refusal :=
  .next (s.onM fun m =>
    if m.barsOpen then
      let val := if w.val = 3 then v.toNat % 2 else if w.val = 0 then v.toNat / 4 * 4 else v.toNat
      { m with hostif.msixTable := m.hostif.msixTable.set (if w.val = 3 then 1 else 0) (vector.val * 4 + w.val) val }.deliverPending
    else m.unsupported)

/-- SYS_IRQ_ROUTE (R476, R477): the page that SYS_IRQ_SEL names moves to a page vector; a requesting page sends there. -/
def State.takeSysIrqRoute (s : State) (v : BitVec 9) : State := (s.onM fun m =>
    let p := m.rd pgSys SYS_IRQ_SEL.PAGE
    let new := v.toNat
    let old := m.vectorOf p
    if !m.feature 2 || Nat.blt new 64 || defaultVector p == 0 || new == old then m
    else
      let m := { m with reg.route := m.reg.route.set (defaultVector p) p new }
      if m.pageRequests p then m.sendVector new else m)

/-- The command: a write that does this. -/
def execSysIrqRoute (r : Requester) (v : BitVec 9) (s : State) : Host.Outcome State Fault Refusal :=
  .next (s.via (.sysIrqRoute r v) r pgSys fun s => s.takeSysIrqRoute v)

/-- SYS_VEC_EOI (R477): a page vector whose request is 1 sends again. -/
def State.takeSysVecEoi (s : State) (v : BitVec 9) : State := (s.onM fun m =>
    if 64 ≤ v.toNat ∧ m.vectorRequest v.toNat = true then m.sendVector v.toNat else m)

/-- The command: a write that does this. -/
def execSysVecEoi (r : Requester) (v : BitVec 9) (s : State) : Host.Outcome State Fault Refusal :=
  .next (s.via (.sysVecEoi r v) r pgSys fun s => s.takeSysVecEoi v)

/-! ## BAR2 (R479–R481) -/

/-- The region whose window covers a BAR2 offset, and the region offset. -/
def Module.window (m : Module) (ofs : Nat) : Option (Nat × Nat) :=
  ((List.range 64).find? fun r =>
    let base := m.lv pgSys SYS_REG_WIN.WIN_BASE r * 2097152
    m.lv pgSys SYS_REG_CTRL.HOST_WINDOW r == 1 && decide (base ≤ ofs) && decide (ofs < base + (m.region r).bytes)).map
    fun r => (r, ofs - m.lv pgSys SYS_REG_WIN.WIN_BASE r * 2097152)

/-- The window that an access falls in: none beyond the BAR, without feature 0 (R494), or in STANDBY (R511). -/
def Module.bar2Hit (m : Module) (ofs : Nat) : Option (Nat × Nat) :=
  if m.feature 0 && m.rd pgPwr PWR_STATE.STATE != 3 && decide (ofs < 2 ^ m.rd pgPcie PCIE_BAR2.LOG2_SIZE) then m.window ofs
  else none

def Module.winMiss (m : Module) : Module := m.bump pgPcie PCIE_WIN_MISSES.COUNT

/-- What an access through the window or by a queue is charged (R37, R480, R489): host DMA, and the HBM. -/
def Module.moveCosts (m : Module) (write : Bool) (r ofs len : Nat) : List (Nat × Nat) :=
  let g := m.region r
  if write then (73, units len) :: stackCosts g [(ofs, len)] else (72, units len) :: readCosts g 36 [(ofs, len)]

/-- The messages of a queue's copy, one for each 4,096-byte chunk of the region. -/
def Module.moveMsgs (m : Module) (write : Bool) (r ofs len : Nat) : List (List (Nat × Nat)) :=
  ((m.region r).pieces ofs len).map fun c =>
    if write then (73, units c.2.2) :: writePiece c else (72, units c.2.2) :: readPiece 36 c

/-- One access through BAR2 (R480, R481): whether its budget took it. A write that misses is discarded; a read that misses
returns zeros. -/
def State.tryWindow (s : State) : Instr → Bool × State
  | .bar2Write ofs data =>
    match s.m.bar2Hit ofs with
    | none => (true, s.onM Module.winMiss)
    | some (r, a) =>
      match s.m.charge (s.m.lv pgSys SYS_REG_CTRL.OWNER r) (s.m.moveCosts true r a data.length) with
      | (false, m) => (false, { s with m := m })
      | (true, m) => (true, (({ s with m := m } : State).hbmWrite 36 r a data).onM fun m => m.addWork 14 data.length)
  | .bar2Read ofs len =>
    match s.m.bar2Hit ofs with
    | none => (true, s.onM fun m => { m.winMiss with hostif.reply := List.replicate len 0 })
    | some (r, a) =>
      match s.m.charge (s.m.lv pgSys SYS_REG_CTRL.OWNER r) (s.m.moveCosts false r a len) with
      | (false, m) => (false, { s with m := m })
      | (true, m) =>
        let (data, _, s) := ({ s with m := m } : State).checkedRead 36 r a len
        (true, s.onM fun m => { m.addWork 14 len with hostif.reply := data })
  | _ => (true, s)

/-- The accesses through BAR2 that wait take place in order, as far as their budgets go: none overtakes an earlier one (R20). -/
def State.runWindow : List Instr → State → State
  | [], s => s
  | c :: l, s =>
    match s.tryWindow c with
    | (true, s) => State.runWindow l s
    | (false, s) => s.onM fun m => { m with hostif.window := c :: l }

/-- The waiting accesses through BAR2 are tried again. -/
def State.retryWindow (s : State) : State :=
  State.runWindow s.m.hostif.window (s.onM fun m => { m with hostif.window := [] })

/-- An access through BAR2, behind those that wait. -/
def State.viaWindow (s : State) (c : Instr) : State :=
  if !s.m.barsOpen then s.onM Module.unsupported
  else if s.m.hostif.window = [] then State.runWindow [c] s
  else s.onM fun m => { m with hostif.window := m.hostif.window ++ [c] }

/-- BAR2_WRITE (R20, R480, R481): posted; one that the budget holds waits. -/
def execBar2Write (ofs : Nat) (data : List Byte) (s : State) : Host.Outcome State Fault Refusal :=
  .next (s.viaWindow (.bar2Write ofs data))

/-- BAR2_READ (R20, R480, R481): the bytes are the reply, with every earlier posted write in them. -/
def execBar2Read (ofs len : Nat) (s : State) : Host.Outcome State Fault Refusal :=
  .next (s.viaWindow (.bar2Read ofs len))

/-! ## Queues (R485–R493) -/

/-- STATE as it is stored: 0 OFF, 1 RUNNING, 3 ERROR; WAITING is what a running queue reads while it waits. -/
def Module.queueState (m : Module) (q : Nat) : Nat := m.rd pgPcie PCIE_Q_STATE.STATE q
def Module.queueKind (m : Module) (q : Nat) : Nat := m.lv pgPcie PCIE_Q_CFG.KIND q
def Module.ringSize (m : Module) (q : Nat) : Nat := 2 ^ m.lv pgPcie PCIE_Q_CFG.LOG2_ENTRIES q
def Module.cqTail (m : Module) (q : Nat) : Nat := m.rd pgPcie PCIE_Q_HEADS.CQ_TAIL q

/-- The next slot of the completion ring equals the written completion head (R485). -/
def Module.cqFull (m : Module) (q : Nat) : Bool := (m.cqTail q + 1) % m.ringSize q == (m.hq q).cqHead

/-- The STATE that a queue reads (R500). -/
def Module.queueShown (m : Module) (q : Nat) : Nat :=
  if m.queueState q = 1 ∧ (m.cqFull q = true ∨ m.busMaster = false) then 2 else m.queueState q

/-- A queue enters ERROR (R486), or OFF when it has been disabled (R492). -/
def Module.queueFails (m : Module) (q : Nat) : Module :=
  (m.wr pgPcie PCIE_Q_STATE.STATE (if m.lv pgPcie PCIE_Q_CFG.EN q = 1 then 3 else 0) q).raise pgPcie 10

/-- A doorbell (R491): its value is taken, or it counts as an error. -/
def Module.doorbell (m : Module) (q v : Nat) (take : HostQ → HostQ) : Module :=
  if m.feature 1 && m.lv pgPcie PCIE_Q_CFG.EN q == 1 && decide (v < m.ringSize q) then m.setHq q (take (m.hq q))
  else (m.bump pgPcie PCIE_Q_DB_ERR.COUNT 1 q).raise pgPcie 9

/-- SQ_TAIL_DOORBELL (R491). -/
def execSqTailDoorbell (q : Fin 64) (v : BitVec 16) (s : State) : Host.Outcome State Fault Refusal :=
  .next (if s.m.barsOpen then s.onM fun m => m.doorbell q v.toNat fun h => { h with sqTail := v.toNat } else s.onM Module.unsupported)

/-- CQ_HEAD_DOORBELL (R491): it frees slots of the completion ring. -/
def execCqHeadDoorbell (q : Fin 64) (v : BitVec 16) (s : State) : Host.Outcome State Fault Refusal :=
  .next (if s.m.barsOpen then s.onM fun m => m.doorbell q v.toNat fun h => { h with cqHead := v.toNat } else s.onM Module.unsupported)

/-- The fields of a submission descriptor (R482). -/
def descriptorOf (l : List Byte) : Descriptor :=
  ⟨le l 0 8, le l 8 4, le l 12 1 % 64, bit (le l 13 1) 0, le l 16 8, le l 24 4⟩

/-- A descriptor that moves nothing: ZERO_LENGTH, or RANGE for a misaligned field or a range that is not mapped (R484). -/
def Module.descriptorFault (m : Module) (kind : Nat) (d : Descriptor) : Nat :=
  if d.length = 0 then 1
  else if kind = 2 then (if d.hostAddr % 4096 ≠ 0 ∨ d.length % 4096 ≠ 0 then 2 else 0)
  else if d.hostAddr % 4 ≠ 0 ∨ d.length % 4 ≠ 0 ∨ d.hbmOfs % 4 ≠ 0 then 2
  else if (m.region d.region).holds d.hbmOfs d.length then 0 else 2

/-- The next frame of a STREAM_RX queue (R487): the frame placed, or the buffer's end, and whether something happened. `early` of
a buffer that is to complete is 256 + STATUS. -/
def State.pumpFrame (s : State) (q : Nat) : Bool × State :=
  let h := s.m.hq q
  match h.cur, h.waiting with
  | some d, f :: rest =>
    if h.early ≠ 0 ∨ s.m.busMaster = false then (false, s)
    else
      match s.frameData 36 (2176 + q) [[(72, units f.rawLen)]] s.m.hostif.payloads f with
      | (s, none) => (false, s)
      | (s, some (g, crc, data)) =>
        let all := g.bytes crc data
        if d.length < h.placed + all.length then
          (true, s.onM fun m => m.setHq q { h with early := if h.placed = 0 then 256 + 6 else 256 })
        else
          let s := s.onM fun m =>
            let m := m.setHq q { h with
              waiting := rest, placed := h.placed + all.length, frames := h.frames + 1, placedAt := m.clk.ticks }
            { m with
              hostif.payloads := m.hostif.payloads.filter fun p => p.tag != f.tag
              hostif.out := m.hostif.out ++ [⟨d.hostAddr + h.placed, all⟩] }
          (true, s.frameWritten g all.length)
  | _, _ => (false, s)

/-- Frames of a STREAM_RX queue go into its buffer while they can. -/
def State.pumpRx (s : State) (q : Nat) : Nat → State
  | 0 => s
  | fuel + 1 =>
    match s.pumpFrame q with
    | (true, s) => s.pumpRx q fuel
    | (false, s) => s

def State.pumpAll (s : State) (q : Nat) : State := s.pumpRx q ((s.m.hq q).waiting.length + 1)

/-- The queue may take a descriptor (R485, R486, R492, R493, R506). -/
def Module.mayFetch (m : Module) (q : Nat) : Bool :=
  m.queueState q == 1 && !(m.hq q).stopping && (m.hq q).cur.isNone && m.rd pgPcie PCIE_Q_HEADS.SQ_HEAD q != (m.hq q).sqTail
    && m.busMaster && !m.cqFull q && !m.powerFailing && m.configReady

/-- DESCRIPTOR_FETCH (R485, R486): the read is charged to activity 63. -/
def execDescriptorFetch (q : Fin 64) (d : Option (List Byte)) (s : State) : Host.Outcome State Fault Refusal :=
  .next (if s.m.mayFetch q then
    match s.m.charge 63 [(73, 1)] with
    | (false, m) => { s with m := m }
    | (true, m) =>
      match d with
      | none => { s with m := m.queueFails q }
      | some l =>
        let d := descriptorOf l
        let kind := m.queueKind q
        let bad := m.descriptorFault kind d
        let m := m.wr pgPcie PCIE_Q_HEADS.SQ_HEAD ((m.rd pgPcie PCIE_Q_HEADS.SQ_HEAD q + 1) % m.ringSize q) q
        let early := if bad ≠ 0 then (if kind = 2 then 256 + bad else bad) else 0
        let s : State := { s with m := m.setHq q { m.hq q with cur := some d, early := early, placed := 0, frames := 0 } }
        if kind = 2 then s.pumpAll q else s
  else s)

/-- Vector q is sent, and every written completion is signalled (R490). -/
def Module.signal (m : Module) (q : Nat) : Module := (m.setHq q { m.hq q with unsig := 0 }).sendVector q

/-- Write the completion of the descriptor in progress (R483, R485, R490, R492). -/
def Module.complete (m : Module) (q : Nat) (d : Descriptor) (status bytes frames : Nat) : Module :=
  let p := pgPcie
  let h := m.hq q
  let tail := m.cqTail q
  let entry := leBytes 4 d.tag ++ leBytes 4 bytes ++ leBytes 2 (m.rd p PCIE_Q_HEADS.SQ_HEAD q) ++ leBytes 2 frames
    ++ leBytes 1 status ++ leBytes 1 0 ++ leBytes 2 h.phase.toNat
  let next := (tail + 1) % m.ringSize q
  let slot := m.lv64 p PCIE_Q_CQ_BASE_LO.ADDR PCIE_Q_CQ_BASE_HI.ADDR q + 16 * tail
  let m : Module := { m with hostif.out := m.hostif.out ++ [HostWrite.mk slot entry] }
  let m := m.setHq q { h with
    phase := if next = 0 then !h.phase else h.phase, cur := none, early := 0, placed := 0, frames := 0, stopping := false
    unsig := h.unsig + 1, unsigAt := if h.unsig = 0 then m.clk.ticks else h.unsigAt, ready := none }
  let m := (m.wr p PCIE_Q_HEADS.CQ_TAIL next q).wr p PCIE_Q_STATE.LAST_STATUS status q
  let m := (m.bump p PCIE_Q_DONE.COUNT 1 q).step64 p PCIE_Q_BYTES_LO.BYTES PCIE_Q_BYTES_HI.BYTES bytes q
  let m := m.addWork 14 bytes
  let m :=
    if d.irq || m.lv p PCIE_Q_IRQ.IRQ_USEC q == 0 || decide (m.lv p PCIE_Q_IRQ.IRQ_COUNT q ≤ (m.hq q).unsig) then m.signal q
    else m
  let m := if status = 5 then m.queueFails q else m
  if h.stopping then (m.wr p PCIE_Q_STATE.STATE 0 q) else m

/-- A descriptor has ended with a STATUS: its completion is written as soon as activity 63 has room for it (R41, R489). -/
def Module.finish (m : Module) (q : Nat) (d : Descriptor) (status bytes frames : Nat) : Module :=
  match m.charge 63 [(72, 1)] with
  | (true, m) => m.complete q d status bytes frames
  | (false, m) => m.setHq q { m.hq q with ready := some (status, bytes, frames) }

/-- The move of a copy (R484, R489): its status, the bytes moved, and the state after it; none while its budget holds it. -/
def State.move (s : State) (q : Nat) (d : Descriptor) (hostData : List Byte) (hostError : Option Nat) :
    State × Option (Nat × Nat) :=
  let toHost := s.m.queueKind q == 0
  let len := match hostError with
    | some n => Nat.min n d.length
    | none => d.length
  match s.m.letThrough (2048 + q) (s.m.lv pgPcie PCIE_Q_CFG.ACTIVITY q) (s.m.moveMsgs (!toHost) d.region d.hbmOfs len) with
  | (false, m) => ({ s with m := m }, none)
  | (true, m) =>
    let s : State := { s with m := m }
    let gone := !(m.region d.region).holds d.hbmOfs d.length
    let (bad, s) :=
      if toHost then
        let (data, bad, s) := s.checkedRead 36 d.region d.hbmOfs len
        (bad, s.onM fun m => { m with hostif.out := m.hostif.out ++ [⟨d.hostAddr, data⟩] })
      else (false, s.hbmWrite 36 d.region d.hbmOfs (pad len hostData))
    (s, some (if hostError.isSome then 5 else if gone then 3 else if bad then 4 else 0, len))

/-- COMPLETION_WRITE (R485): a copy moves and completes; a STREAM_RX buffer completes once it is to. -/
def execCompletionWrite (q : Fin 64) (hostData : List Byte) (hostError : Option Nat) (s : State) :
    Host.Outcome State Fault Refusal :=
  let h := s.m.hq q
  .next (match h.cur with
    | none => s
    | some d =>
      if s.m.busMaster = false ∨ s.m.cqFull q = true ∨ s.m.configReady = false then s
      else
        match h.ready with
        | some (status, bytes, frames) => s.onM fun m => m.finish q d status bytes frames
        | none =>
          if s.m.queueKind q = 2 then
            if hostError.isSome then s.onM fun m => m.finish q d 5 h.placed h.frames
            else if h.early = 0 ∧ h.stopping = false then s
            else s.onM fun m => m.finish q d (h.early % 256) h.placed h.frames
          else if h.early ≠ 0 then s.onM fun m => m.finish q d h.early 0 0
          else
            match s.move q d hostData hostError with
            | (s, none) => s
            | (s, some (status, n)) => s.onM fun m => m.finish q d status n 0)

/-- QUEUE_IRQ_TIMEOUT (R490): IRQ_USEC microseconds after the oldest unsignalled completion. -/
def execQueueIrqTimeout (q : Fin 64) (s : State) : Host.Outcome State Fault Refusal :=
  .next (s.onM fun m =>
    let h := m.hq q
    if 0 < h.unsig ∧ h.unsigAt + m.lv pgPcie PCIE_Q_IRQ.IRQ_USEC q * 2000 ≤ m.clk.ticks + 1 then m.signal q else m)

/-- STREAM_RX_FLUSH (R487): FLUSH_US microseconds after the last frame was placed. -/
def execStreamRxFlush (q : Fin 64) (s : State) : Host.Outcome State Fault Refusal :=
  .next (s.onM fun m =>
    if m.queueKind q = 2 ∧ (m.hq q).placedAt + m.lv pgPcie PCIE_Q_FLUSH.FLUSH_US q * 2000 ≤ m.clk.ticks + 1 then m.closeBuffer q
    else m)

/-- STREAM_RX_FRAME (R361, R487): a descriptor or a payload reaches island 36, and frames go into their buffers. -/
def execStreamRxFrame (src : Island) (s : State) : Host.Outcome State Fault Refusal :=
  .next (match s.m.arrival src 36 with
    | some (.hostFrame q f) =>
      let s := s.onM fun m =>
        let m := m.takeArrival src 36
        if m.inFlight f.tag none then m.setHq q { m.hq q with waiting := addFrame (m.hq q).waiting f } else m
      s.pumpAll q
    | some (.payload p) =>
      let s := s.onM fun m =>
        let m := m.takeArrival src 36
        if m.inFlight p.tag none then { m with hostif.payloads := addPayload m.hostif.payloads p } else m
      (List.range 64).foldl (fun s q => if s.m.queueKind q = 2 then s.pumpAll q else s) s
    | _ => s)

/-- BUS_MASTER_ENABLE (R493): queues continue where they were. -/
def execBusMasterEnable (on : Bool) (s : State) : Host.Outcome State Fault Refusal :=
  .next (if s.m.configReady then
    let s := s.onM fun m => m.setCfg 1 ((m.cfg 1 &&& (2 ^ 32 - 1 - 4)) ||| (if on then 4 else 0))
    (List.range 64).foldl (fun s q => if s.m.queueKind q = 2 then s.pumpAll q else s) s
  else s)

/-! ## Function resets and the link (R471, R498, R504) -/

/-- A queue is off, with no completion written: its descriptor is abandoned, its frames wait (R498). -/
def Module.abandonQueue (m : Module) (q : Nat) : Module :=
  let m := (m.wlv pgPcie PCIE_Q_CFG.EN 0 q).wsh pgPcie PCIE_Q_CFG.EN 0 q
  let m := { m with net.passed := (m.net.passed.set 0 (2048 + q) 0).set 0 (2176 + q) 0 }
  (m.setHq q { HostQ.init with waiting := (m.hq q).waiting, sqTail := (m.hq q).sqTail, cqHead := (m.hq q).cqHead }).wr pgPcie
    PCIE_Q_STATE.STATE 0 q

/-- What a function reset clears (R497, R498). The route changes send nothing. -/
def Module.functionReset (m : Module) : Module :=
  let m := { m with
    reg.route := [], hostif.config := [], hostif.msixTable := [], hostif.msixPend := [] }
  let m := (m.wr pgSys SYS_FEATURES_CTRL.FEATURES_OK 0).wr pgSys SYS_STATUS.FEATURES_OK 0
  let m := (List.range 4).foldl (fun (m : Module) k => m.wr pgSys (SYS_DRV_FEATURES.FEATURES k) 0) m
  let m := (List.range 64).foldl (fun m q => m.abandonQueue q) m
  (m.wr pgPcie PCIE_BAR2.LOG2_SIZE 30).bump pgPcie PCIE_FLR.COUNT

/-- FUNCTION_RESET (R498): FLR, hot reset or link-down reset; each does the same. -/
def execFunctionReset (_k : ResetKind) (s : State) : Host.Outcome State Fault Refusal :=
  .next (if s.m.configReady then s.onM Module.functionReset else s)

/-- PERST_N_ASSERT (R504, R473). -/
def execPerstNAssert (s : State) : Host.Outcome State Fault Refusal :=
  .next (s.onM fun m =>
    let m := if m.hostif.loaded then m.functionReset else m
    { m with hostif.loaded := false, hostif.perst := true })

/-- LINK_CHANGE (R471, R500): what PCIE_LINK and STATUS read; a change raises LINK_CHANGE. -/
def execLinkChange (up : Bool) (trained inUse : Fin 32) (speed : Fin 8) (flit : Bool) (s : State) :
    Host.Outcome State Fault Refusal :=
  .next (if s.m.railsUp then s.onM fun m =>
    let p := pgPcie
    let w := if up then inUse.val else 0
    let t := if up then trained.val else 0
    let m := ((m.wr p PCIE_LINK.WIDTH w).wr p PCIE_LINK.TRAINED_WIDTH t).wr p PCIE_LINK.SPEED (if up then speed.val else 0)
    let m := (m.wr p PCIE_STATUS.LINK_UP up.toNat).wr p PCIE_STATUS.FLIT (up && (flit || speed == 6)).toNat
    (m.wr p PCIE_STATUS.L0P_REDUCED (up && decide (w < t)).toNat).raise p 8
  else s)

/-! ## The PCIE page's commits (R492, R500) -/

/-- An enabled queue keeps every field but EN and the moderation fields, unless the commit disables it. -/
def Module.queueChanged (m : Module) (snap : Store Nat) (q : Nat) : Bool :=
  m.lv pgPcie PCIE_Q_CFG.EN q == 1 && snapGet snap pgPcie PCIE_Q_CFG.EN q == 1
    && [PCIE_Q_CFG.LOG2_ENTRIES, PCIE_Q_CFG.ACTIVITY, PCIE_Q_CFG.KIND, PCIE_Q_SQ_BASE_LO.ADDR, PCIE_Q_SQ_BASE_HI.ADDR,
        PCIE_Q_CQ_BASE_LO.ADDR, PCIE_Q_CQ_BASE_HI.ADDR].any fun f => m.lv pgPcie f q != snapGet snap pgPcie f q

/-- The checks of a PCIE snapshot; AUX names the queue. -/
def checkPcie (m : Module) (snap : Store Nat) : List Bad :=
  (List.range 64).flatMap fun q =>
    let g (f : Fld) := snapGet snap pgPcie f q
    let n := g PCIE_Q_CFG.LOG2_ENTRIES
    chk (n == 0) 0x084 1 q ++ chk (n != 0 && outside 4 16 n) 0x084 2 q ++ chk (62 ≤ g PCIE_Q_CFG.ACTIVITY) 0x084 2 q
    ++ chk (g PCIE_Q_CFG.KIND == 3) 0x084 2 q ++ chk (m.queueChanged snap q) 0x084 0x80 q
    ++ chk (g PCIE_Q_CFG.EN == 1 && m.lv pgPcie PCIE_Q_CFG.EN q == 0 && !m.feature 1) 0x084 0x81 q
    ++ chk (g PCIE_Q_SQ_BASE_LO.ADDR % 4096 != 0) 0x088 2 q ++ chk (g PCIE_Q_CQ_BASE_LO.ADDR % 4096 != 0) 0x090 2 q
    ++ chk (g PCIE_Q_IRQ.IRQ_COUNT == 0) 0x098 1 q ++ chk (g PCIE_Q_FLUSH.FLUSH_US == 0) 0x09C 1 q

/-- The effects of a PCIE commit (R492). -/
def Module.appliedPcie (m before : Module) : Module :=
  (List.range 64).foldl (fun m q =>
    let was := before.lv pgPcie PCIE_Q_CFG.EN q
    let now_ := m.lv pgPcie PCIE_Q_CFG.EN q
    if was = 0 ∧ now_ = 1 then
      let m := m.setHq q { HostQ.init with waiting := (m.hq q).waiting }
      (((m.wr pgPcie PCIE_Q_HEADS.SQ_HEAD 0 q).wr pgPcie PCIE_Q_HEADS.CQ_TAIL 0 q).wr pgPcie PCIE_Q_STATE.STATE 1 q)
    else if was = 1 ∧ now_ = 0 then
      if (m.hq q).cur.isSome && m.queueState q == 1 then m.setHq q { m.hq q with stopping := true }
      else (m.setHq q { m.hq q with cur := none }).wr pgPcie PCIE_Q_STATE.STATE 0 q
    else m) m

/-! ## The SYS page's commits (R33, R479) -/

/-- Two spans of half-open intervals meet. -/
def meets (a b c d : Nat) : Bool := decide (a < d) && decide (c < b)

/-- Two regions of a snapshot share a 2 MiB unit of a stack. -/
def regionsMeet (g : Fld → Nat → Nat) (a b : Nat) : Bool :=
  (g SYS_REG_CTRL.STACKS a &&& g SYS_REG_CTRL.STACKS b) != 0 && g SYS_REG_SIZE.SIZE a != 0 && g SYS_REG_SIZE.SIZE b != 0
    && meets (g SYS_REG_BASE.BASE a) (g SYS_REG_BASE.BASE a + g SYS_REG_SIZE.SIZE a) (g SYS_REG_BASE.BASE b)
      (g SYS_REG_BASE.BASE b + g SYS_REG_SIZE.SIZE b)

/-- The end of a region's window, in 2 MiB units. -/
def windowEnd (g : Fld → Nat → Nat) (a : Nat) : Nat :=
  g SYS_REG_WIN.WIN_BASE a + (stackList (g SYS_REG_CTRL.STACKS a)).length * g SYS_REG_SIZE.SIZE a

/-- The checks of a SYS region snapshot; AUX names the region. -/
def checkSys (snap : Store Nat) : List Bad :=
  let g (f : Fld) (r : Nat) := snapGet snap pgSys f r
  let rs := List.range 64
  let mapped := rs.filter fun r => g SYS_REG_CTRL.MAPPED r == 1
  let shown := rs.filter fun r => g SYS_REG_CTRL.HOST_WINDOW r == 1
  mapped.flatMap (fun r =>
    let n := (stackList (g SYS_REG_CTRL.STACKS r)).length
    chk (12288 < g SYS_REG_BASE.BASE r + g SYS_REG_SIZE.SIZE r) 0x404 2 r
    ++ chk (mapped.any fun q => q != r && regionsMeet g q r) 0x404 3 r
    ++ chk (g SYS_REG_SIZE.SIZE r == 0) 0x408 1 r ++ chk (n == 0 || n == 3) 0x40C 4 r)
  ++ shown.flatMap fun r =>
    chk (shown.any fun q => q != r && meets (g SYS_REG_WIN.WIN_BASE r) (windowEnd g r) (g SYS_REG_WIN.WIN_BASE q) (windowEnd g q))
      0x414 3 r
    ++ chk (65536 < windowEnd g r) 0x414 2 r

end Sys2Proof.Machine
end

