-- ==== Sys2Proof/Machine/TimeLoad.lean ====
section
/-! DEFINITION. Loads and wraps of TIME64 (R74, R78, R82, R548, R549), and what one tick changes when no command waits. -/

namespace Sys2Proof.Machine

/-- A count moved by a load of d ticks or samples. -/
def moved (d : Int) (t : Nat) : Nat := (t + d).toNat

/-! ## What each unit does at a load (R82, R549) -/

/-- A RUNNING converter: the table restarts at START_ENTRY, an injected entry ends, a pending one stays (R82). -/
def Module.loadRunning (m : Module) (x new : Nat) : Module :=
  let c := m.cv x
  let m := m.setCv x { c with
    nextIndex := 16 * new, p12Seq := 0, p12Buf := [], p12Hold := [], entries := [], preempt := none, restart := false, resumed := false
    inj := c.inj.map fun i => { i with tick := new } }
  let m := if c.injected then m.injectionDone x else m
  (m.startTable x new).wr64 (pgCnv x) CNV_START_ACTUAL_LO.ACTUAL CNV_START_ACTUAL_HI.ACTUAL (tick64 new)

/-- An ARMED converter judges START_AT against the new count; an event start of the old count is forgotten (R82, R549). One that a
calibration holds paused is as an ARMED one (R141). -/
def Module.loadArmed (m : Module) (x new : Nat) : Module :=
  let p := pgCnv x
  if m.lv p CNV_RUN.START_SRC = 0 then
    let (t, late) := lateStart new (m.tickOf (m.lv64 p CNV_START_AT_LO.START_AT CNV_START_AT_HI.START_AT))
    let m := m.setCv x { m.cv x with startTick := some t }
    if late then m.raise p 11 else m
  else m.setCv x { m.cv x with startTick := none }

/-- A converter at a load from tick `old` to tick `new`: the intervals of R101 go on, its calibration times move with the count
(R82). -/
def Module.loadConverter (m : Module) (x old new : Nat) : Module :=
  let d : Int := (new : Int) - old
  let c := m.cv x
  let m := m.setCv x { c with
    readyTick := moved d c.readyTick
    resumeAt := nextMultiple (moved d c.resumeAt) 4096, jumped := true
    lastOvr := c.lastOvr.map (moved (16 * d)), limFrom := c.limFrom.map (moved (16 * d))
    flagged := c.flagged.map fun s => ⟨moved (16 * d) s.lo, moved (16 * d) s.hi⟩ }
  if m.runState x = 2 then m.loadRunning x new else if m.armed_ x then m.loadArmed x new else m

/-- The corrected-sample messages that are on their way to island 4 + X, oldest first. -/
def Module.feedsComing (m : Module) (x : Nat) : List SampleMsg :=
  (m.net.arrived ++ m.net.transit).filterMap fun e =>
    match e.body with
    | .samples g => if e.src = x ∧ e.dst = 4 + x then some g else none
    | _ => none

/-- Every frame of the grids that is complete is computed; `fuel` bounds their number. -/
def Module.finishFrames (m : Module) (x : Nat) : Nat → Module
  | 0 => m
  | fuel + 1 =>
    match (m.wd x).grids with
    | g :: rest =>
      if g.open_ && inRun (m.wd x).feed.got ⟨g.start, g.start + g.cfg.size - 1⟩ then
        let m := m.computeFrame x g
        (m.setWd x { m.wd x with grids := g.next ++ rest }).finishFrames x fuel
      else m
    | [] => m

/-- The WTE and the channeliser of a RUNNING input emit what the samples before the load complete, as at a stop (R82, R161,
R185): what is on its way to them comes first. -/
def Module.endWide (m : Module) (x : Nat) : Module :=
  let m := (m.feedsComing x).foldl (fun m g => m.feedSamples x g) m
  let m := m.deliveryEnds x ((m.wd x).feed.nextIdx - 1)
  let m := m.finishFrames x (((m.wd x).feed.got.map fun r => r.hi + 1 - r.lo).sum + 1)
  m.flushRoutes x

/-- The WTE and the channeliser after a load to tick `new`: what is not emitted is gone; where the converter runs, a new grid stands
at the load and every route starts with GAP (R82, R549). -/
def Module.loadWide (m : Module) (x new : Nat) : Module :=
  let running := m.runState x == 2
  let w := m.wd x
  let m := m.setWd x { w with
    feed := { Feed.init with nextIdx := 16 * new }, grids := [], seq := if running then 0 else w.seq
    nextStamp := (w.subs.filter fun e => decide (0 < e.2)).map fun e => (e.1, if running then 16 * new + 1024 else 16 * new)
    gapRoute := (w.subs.filter fun e => decide (0 < e.2)).map fun e => (e.1, 1)
    ending := [], restart := [], counted := 16 * new, lostRun := none, marks := [] }
  if running then m.newGrid x (16 * new) true false else m

/-- A brick counts its outputs from the new count, and the first one carries GAP (R198); partial results are gone. Emission that
has begun goes on, emission that has ended is over, and a start that is still to come stays (log entry 152). `was` and `new` are the
TIME64 before and after. -/
def Module.recountBrick (m : Module) (n was new : Nat) : Module :=
  let c := m.brickCfg n
  let b := m.bk n
  let b := { b with
    got := [], vals := [], tainted := [], lost := [], hold := [], marked := [], paused := false, nextIndex := none, iqSince := none }
  let begun := b.emitFrom.any fun t => decide (t ≤ was)
  let past := b.emitTo.any fun t => decide (t ≤ was)
  if c.role = 0 then m
  else if ¬ begun then m.setBk n b
  else
    let a := c.firstAt new
    let b := { b with grids := [], iqs := [], emitFrom := none, emitTo := none }
    m.setBk n (if past then b
      else ({ b with
        emitFrom := some new, emitTo := (m.bk n).emitTo.map fun t => (moved ((new : Int) - was) t) % 2 ^ 64 }.stretches c a a true false
          false))

/-- Interval units end with ABORTED, and stamps not yet sent are gone; times to come move with the count (R237, R549). -/
def Module.loadEvents (m : Module) (old new : Nat) : Module :=
  let d : Int := 256 * ((new : Int) - old)
  let m := (List.range 4).foldl (fun m u => m.abortUnit u) m
  { m with evtIn := m.evtIn.map fun e => (e.1, { e.2 with
      stamps := [], dead := false, holdEnd := e.2.holdEnd.map (moved d), last := e.2.last.map (moved d) }) }

/-- The start of an ARMED or HELD course at a load: START_AT is judged against the new count, and an event start of the old one is
forgotten (log entry 152). -/
def Module.loadStart (m : Module) (d : Nat) : Module :=
  let byTime := m.lv (pgCrs d) CRS_RUN.START_SRC == 0
  let c := m.crs d
  if m.courseState d = 3 then m.setCrs d { c with startTick := if byTime then some (m.startAt d) else none }
  else if m.courseState d = 1 then
    if byTime then
      let (t, late) := lateStart m.tick (m.startAt d)
      if c.startTick = some t then m else m.armCourse d t late
    else m.setCrs d { c with startTick := none }
  else m

/-- A course: its engine starts anew, and what its timeline, its marks and its open segments hold is gone (R549). -/
def Module.loadCourse (m : Module) (d old new : Nat) : Module :=
  let k : Int := (new : Int) - old
  let c := m.crs d
  let m := m.setCrs d { c with marks := [], gen := c.genAt (2 ^ 64), stopTick := c.stopTick.map (moved k) }
  let m := m.loadStart d
  let t := m.tg d
  let m := m.setTg d { t with
    atoms := [], lastOvr := none, compared := 128 * new, evalTick := new, evals := 0, seenAt := new, copyFrom := moved k t.copyFrom }
  let m := if t.running then m.startEngine d new else m
  (m.capsOf d).foldl (fun m b =>
    let k := m.cpt b
    m.setCpt b { k with
      segs := k.segs.map fun g => if g.close.isSome then g else Seg.open_ g.index
      stall := k.stall.filter fun g => g.close.isSome }) m

/-- A message that carries samples, products of them, or ticks of the count before a load (R549). -/
def Body.ofOldCount : Body → Bool
  | .samples _ | .rawSamples _ | .entryMark _ | .swapMark _ | .subband _ | .forward _ | .spectrum _ | .specPiece _ _ _
  | .iq _ | .notice _ | .startTick _ _ | .rects _ | .cross _ _ _ => true
  | _ => false

/-- A message of the old count keeps its place on the mortar, and its receiver discards it. -/
def Envelope.stale (e : Envelope) : Envelope := if e.body.ofOldCount then { e with body := .bygone } else e

/-- Nothing of the old count is taken any more. -/
def Module.dropOld (m : Module) : Module :=
  { m with
    marks := []
    net.transit := m.net.transit.map Envelope.stale
    net.arrived := m.net.arrived.filter fun e => !e.body.ofOldCount }

/-- Snapshots that wait for their commit point were validated at a tick of the old count. -/
def Module.moveCommits (m : Module) (d : Int) : Module :=
  { m with reg.commits := m.reg.commits.map fun e => (e.1, e.2.map fun c => { c with tick := moved d c.tick }) }

/-- Every unit takes the jump of a load. -/
def Module.loadUnits (m : Module) (old new was : Nat) : Module :=
  let m := ([0, 1, 2, 3].filter fun x => m.runState x == 2).foldl (fun m x => m.endWide x) m
  let m := [0, 1, 2, 3].foldl (fun m x => (m.loadConverter x old new).loadWide x new) m.dropOld
  let m := (m.brick.map Prod.fst).foldl (fun m n => m.recountBrick n was (tick64 new)) m
  let m := [0, 1, 2, 3, 4].foldl (fun m d => m.loadCourse d old new) (m.loadEvents old new)
  (List.range 8).foldl (fun m e => m.denLoad e new) (m.moveCommits ((new : Int) - old))

/-! ## The time base at a load (R78, R80, R81, R548) -/

/-- Every enforcement point starts a new period (R78). -/
def Module.newPeriods (m : Module) : Module := m.endPeriods.wr pgBud BUD_PERIOD.PERIOD (m.tick / 2048)

/-- The outputs with ALIGN_SYNC have their edges at the load. -/
def Module.syncOutputs (m : Module) : Module :=
  [0, 1, 2, 3].foldl (fun m k =>
    if m.lv pgClk (CLK_OUT_CFG.ALIGN_SYNC k) = 1 then
      { m with clk.outs := m.clk.outs.set OutCfg.init k { m.clk.outs.get OutCfg.init k with phase := m.now } }
    else m) m

/-- What the load writes on the TB page; the mode is OFF again. -/
def Module.loadStatus (m : Module) (was : Nat) : Module :=
  let p := pgTb
  let m := (m.wr p TB_WRAP.WRAP_COUNT 0).wr p TB_ALIGN_STATUS.ALIGN_STALE 0
  let m := (m.wr64 p TB_PRELOAD_LO.PRELOAD TB_PRELOAD_HI.PRELOAD was).wr p TB_ALIGN_STATUS.STATE 2
  let m := (m.bump p TB_ALIGN_STATUS.LOADS).raise p 8
  (m.wlv p TB_ALIGN_CTRL.MODE 0).wsh p TB_ALIGN_CTRL.MODE 0

/-- A load: TIME64 takes TB_LOAD. -/
def Module.loadTime (m : Module) : Module :=
  let was := m.now
  let old := m.tick
  let value := m.lv64 pgTb TB_LOAD_LO.LOAD TB_LOAD_HI.LOAD
  let m := { m with
    clk.time := BitVec.ofNat 64 value, clk.wraps := 0, clk.alignE0 := false, clk.skew := [] }
  let m := ((m.loadStatus was).syncOutputs.newPeriods).loadUnits old (value / 256) was
  if m.clk.alignSent then m.sendReleases else m

/-- TIME64_LOAD (R78): at E2, or at the SOFT load instant. -/
def execTime64Load (s : State) : Host.Outcome State Fault Refusal :=
  .next (s.onM fun m =>
    let mode := m.lv pgTb TB_ALIGN_CTRL.MODE
    if m.rd pgTb TB_ALIGN_STATUS.STATE = 1 ∧ (mode = 3 ∨ (mode ≠ 0 ∧ m.clk.alignE0 = true)) then m.loadTime else m)

/-! ## Ticks and wraps (R70, R74, R447) -/

/-- What a cluster keeps of an input's marks at a wrap: the entry in force, from the first sample on. -/
def entryOnly (l : List Mark) : List Mark :=
  ((l.filterMap Mark.entryOf).getLast?.map fun i => Mark.entry { i with index := 0 }).toList

/-- The wrap: it is counted, the slices' next step is a short one (R132), and bricks count their outputs anew (R74, R198). -/
def Module.wrapTime (m : Module) : Module :=
  let was := m.now
  let m := { m with clk.time := 0, clk.wraps := m.clk.wraps + 1, marks := m.marks.map fun (e : Nat × List Mark) => (e.1, entryOnly e.2) }
  let m := (m.bump pgTb TB_WRAP.WRAP_COUNT).raise pgTb 10
  let m := [0, 1, 2, 3].foldl (fun m x => m.setCv x { m.cv x with jumped := true }) m
  (m.brick.map Prod.fst).foldl (fun m n => m.recountBrick n was 0) m

/-- One tick of the count, once it runs, with the time marks that are due (R73). -/
def Module.countTick (m : Module) : Module :=
  if ¬ m.clk.counting then m
  else (if m.rawTick + 1 = 2 ^ 56 then m.wrapTime else { m with clk.time := m.clk.time + 256 }).sendMarks

/-- The wall clock gains a second every 2,000,000,000 ticks of the oscillator (R447). -/
def Module.wallTick (m : Module) : Module :=
  if m.clk.ticks % 2000000000 = 0 then m.step pgSaf SAF_WALL.SECONDS else m

/-- One tick in which no command is carried out. A module without VIN does nothing. -/
def State.idle (s : State) : State :=
  if s.m.power.vin then
    (s.onM fun m =>
      let m := { m with clk.ticks := m.clk.ticks + 1, clk.alignOut := m.clk.alignOut - 1 }
      m.wallTick.countTick.portsTick).displayTick.codecTick
  else s

/-- TIME64_WRAP (R74): the tick at which the count wraps. -/
def execTime64Wrap (s : State) : Host.Outcome State Fault Refusal :=
  .next (if s.m.clk.counting = true ∧ s.m.rawTick + 1 = 2 ^ 56 then s.idle else s)

end Sys2Proof.Machine
end

