-- ==== Sys2Proof/Machine/Power.lean ====
section
/-! DEFINITION. Start-up, shedding, power states and counters (spec/16, R450). -/

namespace Sys2Proof.Machine

/-! ## What survives (R506, R507) -/

/-- The registers of a list of pages. -/
def keepPages {α : Type} (m : Store α) (size : Nat) (pages : List Nat) : Store α :=
  m.filter fun e => pages.contains (e.1 / size)

/-- What a register file keeps of some pages. -/
def RegFile.keep (r : RegFile) (pages : List Nat) : RegFile :=
  let n := 4096 * 32 * 65536
  { RegFile.reset with
    regs := keepPages r.regs n pages, shadow := keepPages r.shadow n pages, live := keepPages r.live n pages
    wrote := keepPages r.wrote 4096 pages, irqStat := keepPages r.irqStat 1 pages, irqEn := keepPages r.irqEn 1 pages }

/-- The converters as flash alone knows them: which factory tables are missing (R96). -/
def flashTables (c : Store Conv) : Store Conv :=
  c.foldl (fun acc e =>
    acc.set Conv.init e.1 { Conv.init with eqTable := (e.2.eqTable.map fun t => (t.1, 1)) }) []

/-- Every unit outside the safety partition is as after VIN; the registers of the given pages stay. -/
def Module.lose (m : Module) (pages : List Nat) : Module :=
  { Module.reset with
    reg := m.reg.keep pages, clk.ticks := m.clk.ticks, fresh := m.fresh, conv := flashTables m.conv
    hostif.perst := m.hostif.perst, power := { m.power with work := [], move := none }
    safety := { m.safety with stores := [], request := none } }

/-- Ledger entries not yet in flash are lost with the supply (R52). -/
def Module.loseUnsaved (m : Module) : Module := { m with safety.unsaved := [] }

/-- A header program that has begun completes; nothing further is programmed (R153). -/
def Module.finishHeader (m : Module) : Module :=
  match m.safety.stores with
  | x :: _ => if m.storeState = 3 then m.programHeader x else m
  | [] => m

/-- Load is shed (R506, R513, R450): only the safety partition runs. Of a store only a header program that has begun completes
(R153). -/
def State.shed (s : State) (state : Nat) : State :=
  let n := s.m.finishHeader.lose [pgFlt, pgSaf, pgMgt, pgPwr]
  let n := { n with power.shed := true }
  let n := (n.wr pgPwr PWR_STATE.STATE state).wr pgPwr PWR_STATE.MOVING 0
  { s with hbm := ⟨[], []⟩, m := (n.wr pgPwr PWR_STATUS.READY 0).wr pgPwr PWR_STATUS.PGOOD 0 }

/-- Start-up begins again at step 2 (R503, R507, R513); everything outside the safety partition is lost. -/
def State.restart (s : State) (counts : Bool) : State :=
  let n := s.m.lose [pgSaf, pgMgt, pgPwr]
  let n := { n with power.shed := false, power.startAt := n.clk.ticks, power.stepAt := n.clk.ticks }
  let n := (n.wr pgPwr PWR_STATE.STATE 5).wr pgPwr PWR_STATE.MOVING 0
  let n := ((n.wr pgPwr PWR_START.STEP 2).wr pgPwr PWR_START.FAIL 0).wr pgPwr PWR_START.REF_TIMEOUT 0
  let n := (n.wr pgPwr PWR_STATUS.READY 0).wr pgPwr PWR_STATUS.PGOOD 0
  let n := (n.wr pgSaf SAF_STATUS.PFW 0).wr pgSaf SAF_STATUS.THERMAL_SHUTDOWN 0
  let n := if counts then n.bump pgPwr PWR_EVENTS.RESTARTS else n
  let n := { n with volume.records := n.safety.drives }
  { s with hbm := ⟨[], []⟩, m := n.raise pgPwr 9 }

/-! ## VIN (R501, R506, R507) -/

/-- VIN_APPLY: the module as after reset, with what flash holds. -/
def execVinApply (s : State) : Host.Outcome State Fault Refusal :=
  .next (if s.m.power.vin then s
  else
    { s with
      hbm := ⟨[], []⟩
      m := { Module.reset with
        fresh := s.m.fresh, conv := flashTables s.m.conv, hostif.perst := s.m.hostif.perst
        volume.records := s.m.safety.drives
        safety := { Safety.reset with
          slots := s.m.safety.slots, ledger := s.m.safety.ledger, drives := s.m.safety.drives } } })

/-- VIN_REMOVAL (R507): nothing but flash is left. -/
def execVinRemoval (s : State) : Host.Outcome State Fault Refusal :=
  .next (if s.m.power.vin then
    let n := (s.m.lose []).loseUnsaved
    { s with hbm := ⟨[], []⟩, m := { n with power := { Power.reset with vin := false, shed := true } } }
  else s)

/-- POWER_FAIL_WARNING (R449, R506): reported, counted, and load is shed. -/
def execPowerFailWarning (s : State) : Host.Outcome State Fault Refusal :=
  .next (if s.m.power.vin = true ∧ 2 ≤ s.m.rd pgPwr PWR_START.STEP ∧ s.m.rd pgSaf SAF_STATUS.PFW = 0 then
    (s.shed 6).onM fun m =>
      let m := ((m.loseUnsaved.wr pgSaf SAF_STATUS.PFW 1).alert 2).raise pgSaf 8
      (m.bump pgPwr PWR_EVENTS.PFW).report 57 853
  else s)

/-- RESTART_AFTER_PFW (R507): VIN is back while the safety partition still runs. -/
def execRestartAfterPfw (s : State) : Host.Outcome State Fault Refusal :=
  .next (if s.m.power.vin = true ∧ s.m.rd pgSaf SAF_STATUS.PFW = 1 ∧ s.m.rd pgSaf SAF_STATUS.THERMAL_SHUTDOWN = 0 then
    s.restart true
  else s)

/-! ## The steps of start-up (R501–R503) -/

def Module.startStep (m : Module) : Nat := m.rd pgPwr PWR_START.STEP

/-- The next step begins. -/
def Module.beginStep (m : Module) (n : Nat) : Module :=
  { m.wr pgPwr PWR_START.STEP n with power.stepAt := m.clk.ticks }

/-- The slot that start-up loads (R154). -/
def Module.bestSlot (m : Module) : Option Nat :=
  let a := m.slot 0
  let b := m.slot 1
  if a.valid && (!b.valid || decide (b.gen ≤ a.gen)) then some 0 else if b.valid then some 1 else none

/-- A report on the four calibration sources (R154). -/
def Module.reportCal (m : Module) : Module := [0, 1, 2, 3].foldl (fun m x => m.report 57 (292 + x)) m

/-- A section that says nothing. -/
def CalSection.none_ : CalSection := ⟨0, 0, 0, [], []⟩

/-- The courses and the density engines know the generation of each input from the slot in force on (R148, R276). -/
def Module.loadGens (m : Module) : Module :=
  let gen := fun (x : Nat) => m.rd pgCal CAL_INPUT_GEN.GEN x
  let m := [0, 1, 2, 3].foldl (fun m x => m.setCrs x { m.crs x with gen := gen x }) m
  (List.range 8).foldl (fun m e => m.setDn e { m.dn e with
    gens := ([0, 1, 2, 3].filter fun x => gen x != 0).map fun x => (x, 0, gen x) }) m

/-- Step 2: the calibration slot is selected (R154). -/
def Module.loadSlot (m : Module) : Module :=
  let p := pgCal
  match m.bestSlot with
  | none => ((m.wr p CAL_GENERATION.GEN 0).wr p CAL_STORE_STATUS.FACTORY_FALLBACK 1).reportCal
  | some k =>
    let t := m.slot k
    let o := m.slot (1 - k)
    let m := (m.wr p CAL_GENERATION.GEN t.gen).wr p CAL_COUNT_TOTAL.COUNT t.count
    let m := (m.wr p CAL_STORE_STATUS.ACTIVE_SLOT k).wr p CAL_STORE_STATUS.OTHER_VALID o.valid.toNat
    let m := [0, 1, 2, 3].foldl (fun (m : Module) x =>
      let sec := t.body.getD x CalSection.none_
      (m.wr p CAL_LAST_WALL.SECONDS sec.wall x).wr p CAL_INPUT_GEN.GEN sec.gen x) m
    let m := m.loadGens
    if o.opened && !o.valid then ((m.wr p CAL_STORE_STATUS.RESTORED_PREVIOUS 1).raise p 12).reportCal else m

/-- The entries of the ledger whose CRC matches: any other is ignored at start-up (R54, Caution). Entries that the safety partition
has still to write are in force too (R52). -/
def Module.soundLedger (m : Module) : List LedgerEntry :=
  ((List.range m.safety.ledger.length).zip m.safety.ledger).filterMap (fun e => if e.2.sound e.1 then some e.2 else none)
    ++ m.safety.unsaved

/-- A slice of the ledger is retired (R52, R137). Where it still holds a position, the slice that took its place then takes it if
that is a spare, and otherwise the slice of the highest position does; with no spare left, the one in calibration (log entry
153). -/
def Module.replaySlice (m : Module) (x out inn : Nat) : Module :=
  let p := pgCnv x
  let spares := m.rd p CNV_SLICE_STATUS.SPARES_LEFT
  let place := (m.slice x out).pos
  let top := if 0 < spares then (m.sliceAt x (63 + spares)).getD inn else (m.cv x).calSlice
  let taker := if 0 < spares ∧ 64 ≤ (m.slice x inn).pos ∧ (m.slice x inn).pos < 126 then inn else top
  let freed := (m.slice x taker).pos
  let m := m.wr p STATUS.SPARE_IN_USE 1
  let m :=
    if place = 127 then m
    else
      let m := m.setSlice x out { m.slice x out with pos := 127 }
      let m := if taker = top then m else m.setSlice x top { m.slice x top with pos := freed }
      let m := if taker = out then m else m.setSlice x taker { m.slice x taker with pos := place }
      if place = 126 then m.setCv x { m.cv x with calSlice := taker } else m
  if spares = 0 then m.wr p CNV_SLICE_STATUS.ROTATION_STOPPED 1 else m.wr p CNV_SLICE_STATUS.SPARES_LEFT (spares - 1)

/-- An entry of the spare ledger is in force again (R52): slices, bricks, cores, lanes, density engines. -/
def Module.replayEntry (m : Module) (e : LedgerEntry) : Module :=
  let n := e.logical
  match e.kind with
  | 1 => m.replaySlice (n / 64) e.out e.inn
  | 2 => (m.setBk n { m.bk n with slot := e.inn }).wr (pgBrk n) STATUS.SPARE_IN_USE 1
  | 3 => (m.setCr n { m.cr n with phys := e.inn }).wr (pgCore n) STATUS.SPARE_IN_USE 1
  | 4 => (m.setCr n { m.cr n with phys := e.inn }).wr (pgCore n) STATUS.SPARE_IN_USE 1
  | 5 =>
    let m := (m.setLane n { m.lane n with phys := e.inn }).wr pgCmp STATUS.SPARE_IN_USE 1
    m.wr pgCmp (if e.inn = 8 then CMP_SPARES.SPARE_8 else CMP_SPARES.SPARE_25) 0
  | 6 =>
    let m := (List.range 8).foldl (fun (m : Module) k => m.wr (pgDen k) DEN_PHYS.SPARE_LEFT 0) m
    (m.wr (pgDen n) DEN_PHYS.ENGINE e.inn).wr (pgDen n) STATUS.SPARE_IN_USE 1
  | _ => m

/-- An HBM repair or retirement of the ledger is in force again (step 5). -/
def Module.replayHbm (m : Module) (e : LedgerEntry) : Module :=
  let s := e.logical / 32
  let q := e.logical % 32
  let t := m.st s
  match e.kind with
  | 7 => m.setSt s { t with used := t.used ++ [e.inn], repairs := t.repairs ++ [(q, e.out, e.inn)] }
  | 8 => (m.setSt s { t with used := t.used ++ (t.free (some q)).take 384, retired := some q }).loseCapacity s 600
  | _ => m

/-- An input's section is loaded: trims, positions and taps. A substitution made since the section was stored is in force all the
same. -/
def Module.loadSection (m : Module) (x : Nat) (sec : CalSection) : Module :=
  let p := pgCnv x
  let m := ((List.range sec.slices.length).zip sec.slices).foldl (fun m (e : Nat × Trim × Nat) =>
    m.setSlice x e.1 { m.slice x e.1 with trim := e.2.1, pos := e.2.2 }) m
  let m := m.setCv x { m.cv x with corr := sec.taps, calSlice := (m.sliceAt x 126).getD (m.cv x).calSlice }
  let m := (m.wr p CNV_SLICE_STATUS.SPARES_LEFT (resetValue p CNV_SLICE_STATUS.SPARES_LEFT 0)).wr p
    CNV_SLICE_STATUS.ROTATION_STOPPED 0
  (m.soundLedger.filter fun e => e.kind == 1 && e.logical / 64 == x).foldl (fun m e => m.replaySlice x e.out e.inn) m

/-- Step 6: the sections of the slot in force load trims, positions and taps. -/
def Module.loadTrims (m : Module) : Module :=
  match m.bestSlot with
  | none => m
  | some k =>
    [0, 1, 2, 3].foldl (fun m x =>
      match (m.slot k).body[x]? with
      | none => m
      | some sec => m.loadSection x sec) m

/-- Input X counts as recently calibrated (R155): MAX_AGE in hours, MAX_DTEMP in 0.5 °C. -/
def Module.recentlyCalibrated (m : Module) (x : Nat) : Bool :=
  match m.bestSlot with
  | none => false
  | some k =>
    let sec := (m.slot k).body.getD x CalSection.none_
    let wall := m.rd pgSaf SAF_WALL.SECONDS
    m.rd pgSaf SAF_STATUS.WALL_SET == 1
      && Nat.ble (wall - sec.wall + (sec.wall - wall)) (m.rd pgCal CAL_STARTUP.MAX_AGE * 3600)
      && Nat.ble (m.dieTemp x - sec.dieTemp).natAbs (m.rd pgCal CAL_STARTUP.MAX_DTEMP * 128)

/-- The inputs that run a foreground calibration at start-up (R155). -/
def Module.startupInputs (m : Module) : List Nat :=
  if m.rd pgCal CAL_STARTUP.STARTUP_FG_EN = 1 then [0, 1, 2, 3].filter fun x => !m.recentlyCalibrated x else []

/-- The start of a move to the target (R508), in ticks. -/
def moveTicks (a b : Nat) : Nat :=
  if a ≤ 1 ∧ b ≤ 1 then 20000
  else if a ≤ 1 then (if b = 2 then 200000 else 2200000)
  else if a = 2 then (if b = 3 then 2000000 else 4000000)
  else if b = 2 then 10000000 else 14000000

/-- A move begins where TARGET differs from a settled state. -/
def Module.beginMove (m : Module) : Module :=
  let st := m.rd pgPwr PWR_STATE.STATE
  let target := m.lv pgPwr PWR_TARGET.STATE
  if st < 4 ∧ m.power.move = none ∧ target ≠ st then
    { m.wr pgPwr PWR_STATE.MOVING 1 with power.move := some target, power.moveEnd := m.clk.ticks + moveTicks st target }
  else m

/-- Step 8 (R501, R505): READY. -/
def Module.becomeReady (m : Module) : Module :=
  let m := (m.beginStep 8).wr pgPwr PWR_START.READY_MS (Nat.min 65535 ((m.clk.ticks - m.power.startAt) / 2000000))
  let m := (m.wr pgPwr PWR_STATUS.READY 1).wr pgSys SYS_STATUS.READY 1
  ((m.wr pgPwr PWR_STATE.STATE 0).raise pgSys 8).beginMove

/-- Step 4 may end: every loop has locked, or REF_WAIT has passed (R501, R502). -/
def Module.loopsDone (m : Module) : Bool :=
  m.rd pgPwr PWR_START.REF_TIMEOUT == 1 || (List.range 10).all fun l => m.loopState l == 1

/-- Step 7 may end: no start-up run is under way (R155, R502). -/
def Module.runsDone (m : Module) : Bool :=
  [0, 1, 2, 3].all fun x => (m.cv x).step == 0 && m.runState x != 3

/-- The tables of step 6 (R233). -/
def Module.firstTables (m : Module) : Module :=
  let m := (m.bump pgEvt EVT_CD_STATUS.BUILDS).wr pgEvt EVT_CD_STATUS.VALID 1
  { m.wr pgEvt EVT_STATUS.CD_VALID 1 with clk.cdTemp := m.dieTemp 6 }

/-- The end of a step. -/
def Module.endStep (m : Module) : Module :=
  match m.startStep with
  | 1 => m.beginStep 2
  | 2 => (m.soundLedger.foldl (fun m e => m.replayEntry e) m.loadSlot).beginStep 3
  | 3 => { (m.wr pgPwr PWR_STATUS.PGOOD 1).beginStep 4 with power.work := [] }
  | 4 => if m.loopsDone then m.beginStep 5 else m
  | 5 => (m.soundLedger.foldl (fun m e => m.replayHbm e) m).beginStep 6
  | 6 =>
    let m := m.loadTrims.firstTables
    let l := m.startupInputs
    if l = [] then m.becomeReady else l.foldl (fun m x => m.queueRun x 57) (m.beginStep 7)
  | 7 => if m.runsDone then m.becomeReady else m
  | _ => m

/-- STARTUP_STEP_END (R501). -/
def execStartupStepEnd (s : State) : Host.Outcome State Fault Refusal :=
  .next (if s.m.power.vin = true ∧ s.m.power.shed = false ∧ s.m.rd pgPwr PWR_START.FAIL = 0
      ∧ s.m.rd pgPwr PWR_STATE.STATE = 5 then
    s.onM Module.endStep
  else s)

/-- The limit of a step in milliseconds (R501); none for the steps that R503 does not name. -/
def startupLimit (n : Nat) : Option Nat :=
  match n with
  | 2 => some 500
  | 3 => some 50
  | 5 => some 200
  | 6 => some 50
  | _ => none

/-- STARTUP_LIMIT (R503): start-up stops at the step; PGOOD is low where the rails are that step. -/
def execStartupLimit (s : State) : Host.Outcome State Fault Refusal :=
  .next (match startupLimit s.m.startStep with
    | some ms =>
      if s.m.rd pgPwr PWR_STATE.STATE = 5 ∧ s.m.rd pgPwr PWR_START.FAIL = 0
          ∧ s.m.power.stepAt + ms * 2000000 ≤ s.m.clk.ticks then
        s.onM fun m =>
          let m := if m.startStep = 3 then m.wr pgPwr PWR_STATUS.PGOOD 0 else m
          (m.wr pgPwr PWR_START.FAIL 1).raise pgPwr 10
      else s
    | none => s)

/-- REF_WAIT_EXPIRY (R502): loops 0–9 enter free-run holdover, and no loss is declared. -/
def execRefWaitExpiry (s : State) : Host.Outcome State Fault Refusal :=
  .next (if s.m.startStep = 4 ∧ s.m.loopState 0 ≠ 1 ∧ s.m.rd pgPwr PWR_START.REF_TIMEOUT = 0
      ∧ s.m.power.stepAt + s.m.rd pgPwr PWR_REF_WAIT.MS * 2000000 ≤ s.m.clk.ticks then
    s.onM fun m =>
      (List.range 10).foldl (fun m l => m.enterHoldover l m.now (m.rd pgClk CLK_LOOP_WORD.WORD l))
        (m.wr pgPwr PWR_START.REF_TIMEOUT 1)
  else s)

/-! ## Moves, OFF and the thermal shutdown (R450, R508–R514) -/

/-- What a state powers down on entry (R511 and its table): converters, whose power detectors begin anew when they are powered
again (R90), and in STANDBY loops and drive ports. -/
def Module.enterState_ (m : Module) (st : Nat) : Module :=
  let m := if st = 2 ∨ st = 3 then
      [0, 1, 2, 3].foldl (fun m x => (m.setCv x { m.cv x with powered := false }).wr (pgCnv x) CNV_PWR_DET.VALID 0) m
    else m
  if st = 3 then
    let m := [1, 2, 3, 4, 6, 7, 8, 9].foldl (fun m l => m.setLoop l 0) m
    ports.foldl (fun m n => if m.driveState n = 0 then m else m.driveLost n) m
  else m

/-- MOVE_COMPLETE (R508). -/
def execMoveComplete (s : State) : Host.Outcome State Fault Refusal :=
  .next (match s.m.power.move with
    | some t =>
      if s.m.power.moveEnd ≤ s.m.clk.ticks + 1 then
        s.onM fun m =>
          let m := (m.wr pgPwr PWR_STATE.STATE t).wr pgPwr PWR_STATE.MOVING 0
          let m := (m.bump pgPwr PWR_STATE.TRANSITIONS).raise pgPwr 8
          ({ m with power.move := none } : Module).enterState_ t
      else s
    | none => s)

/-- WAKE_N is held low in STANDBY while a page requests an interrupt (R512). -/
def Module.wakeLow (m : Module) : Bool :=
  m.rd pgPwr PWR_STATE.STATE == 3 && (m.reg.irqStat.map Prod.fst).any m.pageRequests

/-- PWR_OFF_REQ (R513): through the management port. -/
def State.takePwrOffReq (s : State) (r : Requester) : State := (if r = .mgt ∧ s.m.power.shed = false then s.shed 4 else s)

/-- The command: a write that does this. -/
def execPwrOffReq (r : Requester) (s : State) : Host.Outcome State Fault Refusal :=
  .next (s.via (.pwrOffReq r) r pgPwr fun s => s.takePwrOffReq r)

/-- PWR_OFF_WAKE (R503, R513): out of OFF, or out of a start-up that has stopped. -/
def State.takePwrOffWake (s : State) (r : Requester) : State :=
    (if r = .mgt ∧ (s.m.rd pgPwr PWR_STATE.STATE = 4 ∨ s.m.rd pgPwr PWR_START.FAIL = 1) then s.restart true else s)

/-- The command: a write that does this. -/
def execPwrOffWake (r : Requester) (s : State) : Host.Outcome State Fault Refusal :=
  .next (s.via (.pwrOffWake r) r pgPwr fun s => s.takePwrOffWake r)

/-- THERMAL_SHUTDOWN (R450): a die has read 115 °C or more for 1 ms: the thermal source is severe, a safe-stop, and the outputs
are off. -/
def execThermalShutdown (s : State) : Host.Outcome State Fault Refusal :=
  .next (
      if ((List.range 8).any fun d => (s.m.safety.hotSince.get none d).any fun t => decide (t + 2000000 ≤ s.m.clk.ticks + 1)) = true
          ∧ s.m.rd pgSaf SAF_STATUS.THERMAL_SHUTDOWN = 0 ∧ s.m.power.vin = true then
        let s := s.onM fun m =>
          let (k, m) := m.draw 1
          let m := m.faultIn ⟨854, Config.free k % 2 ^ 32, m.now, true, false, false⟩ true
          (m.orderSafeStop 854).wr pgSaf SAF_STATUS.THERMAL_SHUTDOWN 1
        s.shed 6
      else s)

/-- THERMAL_RESTART (R450): through the management port, once every die reads below 95 °C. -/
def State.takeThermalRestart (s : State) (r : Requester) : State :=
    (if r = .mgt ∧ s.m.rd pgSaf SAF_STATUS.THERMAL_SHUTDOWN = 1
        ∧ (∀ d ∈ List.range 8, s.m.dieTemp d < 24320) then
      s.restart false
    else s)

/-- The command: a write that does this. -/
def execThermalRestart (r : Requester) (s : State) : Host.Outcome State Fault Refusal :=
  .next (s.via (.thermalRestart r) r pgSaf fun s => s.takeThermalRestart r)

/-! ## Snapshots (R515, R516) -/

/-- PWR_SNAP: work counters as counted, energy counters as free values (log entry 3), the instant. -/
def State.takePwrSnap (s : State) (r : Requester) : State := if r = .jdl then s else (s.onM fun m =>
    let p := pgPwr
    let m := m.wr64 p PWR_SNAP_TIME_LO.TIME PWR_SNAP_TIME_HI.TIME m.now
    let m := (List.range 16).foldl (fun m c => m.wr64 p PWR_WORK_LO.COUNT PWR_WORK_HI.COUNT (m.power.work.get 0 c) c) m
    let (k, m) := m.draw 62
    (List.range 62).foldl (fun m c => m.wr64 p PWR_ENERGY_LO.NJ PWR_ENERGY_HI.NJ (Config.free (k + c) % 2 ^ 64) c) m)

/-- The command: a write that does this. -/
def execPwrSnap (r : Requester) (s : State) : Host.Outcome State Fault Refusal :=
  .next (s.via (.pwrSnap r) r pgPwr fun s => s.takePwrSnap r)

/-! ## PWR commits (R508, R509) -/

/-- Some unit that IDLE powers down is in use. -/
def Module.unitsActive (m : Module) : Bool :=
  ([0, 1, 2, 3].any fun x => m.rd (pgCnv x) CTRL.ENABLE == 1)
  || ([0, 1, 2, 3, 4].any fun d => m.rd (pgCrs d) CRS_STATUS.RUN_STATE != 0)
  || (slots.any fun k => m.rd pgStr STR_STATUS.STATE k != 0)
  || ((List.range 20).any fun c => m.coreActive c)
  || m.lv pgDisp DISP_LINK.OUT_EN == 1 || m.volume.read.running

/-- The checks of a PWR snapshot. -/
def checkPwr (m : Module) (snap : Store Nat) : List Bad :=
  let t := snapGet snap pgPwr PWR_TARGET.STATE
  let cap := snapGet snap pgPwr PWR_LEAN.MAX_OVERLAP
  chk (decide (4 ≤ t)) 0x040 2
  ++ chk (t == 1 && [0, 1, 2, 3].any fun x => decide (cap < m.lv (pgWte x) WTE_XFORM.OVERLAP)) 0x040 0x80
  ++ chk ((t == 2 || t == 3) && m.unitsActive) 0x040 0x81
  ++ chk (t == 3 && (m.volState != 0 || (List.range 64).any fun q => m.queueState q != 0)) 0x040 0x82

end Sys2Proof.Machine
end

