-- ==== Sys2Proof/Machine/Commit.lean ====
section
/-! DEFINITION. The commit of a page (R25–R31), group commits, SOFT_RESET (R547), interrupt registers (R24), the region map
(R35) and feature negotiation (R496, R497). -/

namespace Sys2Proof.Machine

/-! ## Pages and their fields -/

/-- The page indices of the map. -/
def allPages : List Nat := pageMap.flatMap fun r => (List.range r.count).map (r.base + ·)

/-- The block fields of a page. -/
def pageRows (p : Nat) : List Row :=
  match pageKind p with
  | some k => k.rows
  | none => []

def pageHasShadow (p : Nat) : Bool :=
  match pageKind p with
  | some k => k.hasShadow
  | none => false

/-- The offsets of the shadowed registers of a page. -/
def shadowOffsets (p : Nat) : List Nat :=
  (0x02C :: ((pageRows p).filter fun r => r.code == .rws).map fun r => r.fld.off).dedup

/-- The first and the last + 1 number of a page's fields in a register store. -/
def pageLo (p : Nat) : Nat := p * 2 ^ 33
def pageHi (p : Nat) : Nat := (p + 1) * 2 ^ 33

/-- Return a field to reset, in every bank. -/
def Module.resetField (m : Module) (p : Nat) (f : Fld) : Module :=
  { m with reg.regs := m.reg.regs.drop (fieldKey p f 0) (fieldKey p f 65536) }

/-! ## Writes of CTRL.ENABLE -/

/-- CTRL.ENABLE takes a value: each unit follows its own rules; 1 has no effect on a gated page (R511). -/
def Module.setEnable (m : Module) (p : Nat) (on : Bool) : Module :=
  if on && m.gated p then m
  else
    match pageRow p with
    | some (r, i) =>
      match r.kind with
      | .cnv => m.enableConverter i on
      | .chn => m.enableChn i on
      | .wte => m.enableWte i on
      | .brk => m.enableBrk i on
      | .trg => if i < 4 then (m.enableTrg i on).refreshRaw i else m.enableTrg i on
      | .den => m.enableDen i on
      | .disp => if on then m.wr p CTRL.ENABLE 1 else (m.wr p CTRL.ENABLE 0).stopRaster
      | _ => m.wr p CTRL.ENABLE on.toNat
    | none => m

/-! ## Validation (R27) -/

/-- A WTE whose OVERLAP exceeds the cap of LEAN (R509). -/
def checkLean (m : Module) (x : Nat) (snap : Store Nat) : List Bad :=
  chk (m.rd pgPwr PWR_STATE.STATE == 1
    && decide (m.lv pgPwr PWR_LEAN.MAX_OVERLAP < snapGet snap (pgWte x) WTE_XFORM.OVERLAP)) 0x040 4

/-- Traffic directed to a unit whose feature is absent (R494, R495). -/
def checkFeatures (m : Module) (k : Kind) (i : Nat) (snap : Store Nat) : List Bad :=
  match k with
  | .wte =>
    let g := fun (f : Fld) => snapGet snap (pgWte i) f
    chk (!m.feature 9 && g WTE_BIN_CFG.EN == 1 && g WTE_BIN_CFG.DEST / 2 != 0) 0x048 4
    ++ chk (!m.feature 9 && g WTE_COL_CFG.EN == 1 && g WTE_COL_CFG.DEST / 2 != 0) 0x054 4
  | .brk =>
    let g := fun (f : Fld) => snapGet snap (pgBrk i) f
    let role := g BRK_ROLE.ROLE
    let dest := (if specUsed role (g BRK_SPEC_CFG.DEST) then g BRK_SPEC_CFG.DEST else 0)
      ||| (if iqUsed role (g BRK_IQ_CFG.DEST) then g BRK_IQ_CFG.DEST else 0)
    chk ((!m.feature 9 && (bit dest 1 || bit dest 2)) || (!m.feature 7 && (bit dest 3 || bit dest 4))) 0x040 4
  | .trg => (List.range 16).flatMap fun c => chk (!m.feature 9 && snapGet snap (pgTrg i) TRG_COND_CFG.TYPE c == 4) 0x054 4 c
  | .acq =>
    (List.range 32).flatMap (fun b =>
      chk (!m.feature 8 && snapGet snap pgAcq ACQ_CAP_CFG.ARM b == 1 && snapGet snap pgAcq ACQ_CAP_CFG.COURSE b == 4) 0x044 4 b)
    ++ chk (!m.feature 8 && snapGet snap pgAcq ACQ_REPLAY_CFG.EN == 1) ACQ_REPLAY_CFG.EN.off 4
  | .str => slots.flatMap fun j => chk (!m.feature 4 && m.opens snap j && snapGet snap pgStr STR_CFG.DEST j == 1) 0x084 4 j
  | _ => []

/-- The checks of a page's chapter. -/
def blockChecks (m : Module) (k : Kind) (i : Nat) (snap : Store Nat) : List Bad :=
  match k with
  | .sys => checkSys snap
  | .pcie => checkPcie m snap
  | .clk => checkClk snap
  | .tb => checkTb m snap
  | .cal => checkCal snap
  | .evt => checkEvt snap
  | .bud => checkBud m snap
  | .pwr => checkPwr m snap
  | .acq => checkAcq m snap
  | .meas => checkMeas m snap
  | .cmp => checkCmp snap
  | .dcm => checkDcm snap
  | .str => checkStr m snap
  | .disp => checkDisp m snap
  | .cnv => checkCnv m i snap
  | .wte => checkWte i snap ++ checkLean m i snap
  | .crs => checkCrs m i snap
  | .trg => checkTrg i snap
  | .den => checkDen m i snap
  | .layer => checkLayer m i snap
  | .nvp => checkNvp i snap
  | .core => checkCore m i snap
  | .brk => checkBrk m i snap
  | .chn | .flt | .saf | .mgt | .dbg => []

/-- The refusal of a snapshot of a page, where there is one. -/
def Module.judgeSnap (m : Module) (p : Nat) (snap : Store Nat) : Option Bad :=
  match pageRow p with
  | some (r, i) =>
    lowest (chk (62 ≤ snapGet snap p ACTIVITY_ID.ACTIVITY) 0x02C 2 ++ checkFeatures m r.kind i snap ++ blockChecks m r.kind i snap)
  | none => none

/-! ## Application (R28) -/

/-- What a page's unit does as a commit takes effect. -/
def State.applyHook (s : State) (before : Module) (p : Nat) (c : PCommit) : State :=
  match pageRow p with
  | some (r, i) =>
    match r.kind with
    | .acq => s.appliedAcq before
    | .clk => s.onM fun m => m.appliedClk before
    | .tb => s.onM fun m => m.appliedTb before
    | .evt => s.onM fun m => m.appliedEvt before
    | .bud => s.onM fun m => m.appliedBud
    | .pcie => s.onM fun m => m.appliedPcie before
    | .pwr => s.onM fun m => m.beginMove
    | .meas => s.onM fun m => m.appliedMeas
    | .str => s.onM fun m => m.appliedStr before
    | .disp => s.onM fun m => m.appliedDisp
    | .cnv => s.onM fun m => m.appliedCnv before i c.wrote
    | .wte => s.onM fun m => m.appliedWte i c.tick
    | .crs => s.onM fun m => m.appliedCrs i c.wrote
    | .trg => s.onM fun m =>
        let m := (m.appliedTrg before i).lookaheads i
        if i < 4 then m.refreshRaw i else m
    | .den => s.onM fun m => m.appliedDen before i c.tick
    | .layer => s.onM fun m => m.appliedLayer before i
    | .nvp => s.onM fun m => m.appliedNvp before i
    | .core => s.onM fun m => m.appliedCore before i
    | .brk => s.onM fun m => m.appliedBrk before i c.tick c.wrote
    | .sys | .cal | .chn | .cmp | .dcm | .flt | .saf | .mgt | .dbg => s
  | none => s

/-- The live values of a page become those of a snapshot, and the page's commit registers say so. -/
def Module.takeSnap (m : Module) (p : Nat) (c : PCommit) : Module :=
  let m := { m with
    reg.live := (m.reg.live.drop (pageLo p) (pageHi p)).merge c.snap
    reg.commits := m.reg.commits.set none p none }
  let m := (m.step p COMMIT_STATUS.APPLY_COUNT).wr p COMMIT_STATUS.STATE 2
  (m.wr p COMMIT_STATUS.SUPERSEDED c.superseded.toNat).raise p 0

/-- A snapshot takes effect in full and at one instant (R28). -/
def State.applySnap (s : State) (p : Nat) (c : PCommit) : State :=
  (s.onM fun m => m.takeSnap p c).applyHook s.m p c

/-- A SYS snapshot changes a region register. -/
def Module.regionsChange (m : Module) (snap : Store Nat) : Bool :=
  let lo := fieldKey pgSys SYS_REG_BASE.BASE 0
  m.reg.live.window lo (pageHi pgSys) != snap.window lo (pageHi pgSys)

/-- The page's commit point is the validation of the snapshot. -/
def Module.appliesAtOnce (m : Module) (p : Nat) (snap : Store Nat) : Bool :=
  match pageRow p with
  | some (r, i) =>
    match r.kind with
    | .cnv => m.runState i != 2
    | .wte => m.runState i != 2
    | .brk => m.lv p BRK_ROLE.ROLE == 0 || m.rd p BRK_STATUS.FAILED == 1
    | .trg => m.courseState i != 1 && m.courseState i != 2
    | .den => !(m.dn i).on
    | .disp | .layer => !m.rasterRuns
    | .pwr => m.rd pgPwr PWR_STATE.MOVING == 0
    | .acq | .meas | .evt | .bud | .clk => false
    | .sys => !m.regionsChange snap
    | _ => true
  | none => false

/-- A pending commit has reached its commit point: that of R160 on a WTE whose converter runs, that of R211 on a live brick, the
first tick after validation on EVT, a period start on BUD; on the other pages it is the event that the command stands for. -/
def Module.commitDue (m : Module) (p : Nat) : Bool :=
  let validated := ((m.reg.commits.get none p).map PCommit.tick).getD 0
  match pageRow p with
  | some (r, i) =>
    match r.kind with
    | .wte => m.runState i != 2 || decide (nextMultiple (validated + 64) 4096 ≤ m.tick)
    | .brk => !(m.brickCfg i).live || m.rd p BRK_STATUS.FAILED == 1 || decide (brickPoint validated ≤ 16 * m.tick)
    | .evt => !m.clk.counting || decide (validated < m.tick)
    | .trg =>
      (m.courseState i != 1 && m.courseState i != 2) || match m.trgCommitSlot i with
        | some tc => m.atTrgCommit i tc
        | none => true
    | .den => m.denCommitDue i
    | .disp | .layer => !m.rasterRuns
    | .pwr => m.rd pgPwr PWR_STATE.MOVING == 0
    | .bud => m.periodOffset.isSome
    | _ => true
  | none => false

/-- The page's snapshot belongs to the group commit that is VALIDATING (R30). -/
def Module.validating (m : Module) (p : Nat) : Bool := (m.reg.group.map fun g => g.pages.contains p).getD false

/-- COMMIT_APPLIED (R28). -/
def execCommitApplied (page : Nat) (s : State) : Host.Outcome State Fault Refusal :=
  .next (match s.m.reg.commits.get none page with
    | some c => if s.m.commitDue page && !s.m.validating page then s.applySnap page c else s
    | none => s)

/-- REGION_MAP_APPLY (R35): all four controllers have acknowledged. -/
def execRegionMapApply (s : State) : Host.Outcome State Fault Refusal :=
  .next (match s.m.reg.commits.get none pgSys with
    | some c => s.applySnap pgSys c
    | none => s)

/-! ## COMMIT_GO (R25–R29, R31) -/

/-- A refusal in the commit registers of a page; a snapshot already pending stays so (R27). -/
def Module.refuseCommit (m : Module) (p code : Nat) (b : Bad) : Module :=
  let m := if (m.reg.commits.get none p).isSome then m else m.wr p COMMIT_STATUS.STATE 3
  let m := (m.wr p COMMIT_STATUS.CODE code).wr p ERR_INFO.AUX b.aux
  ((m.wr p ERR_INFO.REASON b.reason).wr p ERR_INFO.OFFSET b.off).raise p 1

/-- The snapshot of a page's shadow. -/
def Module.shadowOf (m : Module) (p : Nat) : Store Nat := m.reg.shadow.window (pageLo p) (pageHi p)

/-- The registers of a page written since its previous commit. -/
def Module.writtenOf (m : Module) (p : Nat) : List Nat :=
  (m.reg.wrote.window (p * 4096) (p * 4096 + 4096)).map fun e => e.1 - p * 4096

/-- A page accepts a snapshot: it is pending, in place of an earlier one (R25, R26, R30). -/
def Module.acceptCommit (m : Module) (p : Nat) (snap : Store Nat) (group : Bool) : Module :=
  let old := m.reg.commits.get none p
  let shown := m.rd p COMMIT_STATUS.STATE == 1
  let c : PCommit := ⟨m.tick, snap, ((old.map PCommit.wrote).getD [] ++ m.writtenOf p).dedup, group, old.isSome && shown⟩
  let m := { m with
    reg.commits := m.reg.commits.set none p (some c)
    reg.wrote := m.reg.wrote.drop (p * 4096) (p * 4096 + 4096) }
  let m := m.wr p COMMIT_STATUS.STATE 1
  match pageKind p with
  | some .disp | some .layer => m.endExtension
  | _ => m

/-- An accepted snapshot applies at once where its commit point is its validation. -/
def State.settleCommit (s : State) (p : Nat) : State :=
  match s.m.reg.commits.get none p with
  | some c => if s.m.appliesAtOnce p c.snap then s.applySnap p c else s
  | none => s

/-- A page takes a snapshot and judges it. -/
def State.commitPage (s : State) (p : Nat) : State :=
  let snap := s.m.shadowOf p
  match s.m.judgeSnap p snap with
  | some b => s.onM fun m => m.refuseCommit p b.code b
  | none => (s.onM fun m => m.acceptCommit p snap false).settleCommit p

/-- COMMIT_GO (R25, R29, R31). Other fields of the write take effect with it. -/
def State.takeCommitGo (s : State) (r : Requester) (page : Nat) (group : Fin 16) : State := (
    if jdlBarred r page then s
    else if page = pgSaf ∧ r ≠ .mgt then s.onM fun m => m.refuseCommit page 4 ⟨0, 4, 0, 0⟩
    else
      let busy := s.m.validating page
      let s := s.onM fun m => m.wr page COMMIT.GROUP group
      if busy then s.onM fun m => m.refuseCommit page 5 ⟨0, 5, 0, 0⟩
      else if pageHasShadow page then s.commitPage page else s)

/-- The command: a write that does this. -/
def execCommitGo (r : Requester) (page : Nat) (group : Fin 16) (s : State) : Host.Outcome State Fault Refusal :=
  .next (s.via (.commitGo r page group) r page fun s => s.takeCommitGo r page group)

/-! ## Group commits (R30) -/

/-- The pages of a group. -/
def Module.groupPages (m : Module) (g : Nat) : List Nat :=
  allPages.filter fun p =>
    m.claimed p && m.rd p COMMIT.GROUP == g && match pageKind p with
      | some k => k.groupable
      | none => false

/-- A page of an aborted group: nothing stays pending on it; a page that accepted reports GROUP_ABORT. -/
def Module.abortPage (m : Module) (p : Nat) (why : Option Bad) : Module :=
  let m := { m with reg.commits := m.reg.commits.set none p none }
  match why with
  | some b => m.refuseCommit p b.code b
  | none => m.refuseCommit p 3 ⟨0, 3, 0, 0⟩

/-- The outcome of a group in SYS_GROUP_STATUS. -/
def Module.groupStatus (m : Module) (state g page : Nat) : Module :=
  (((m.wr pgSys SYS_GROUP_STATUS.STATE state).wr pgSys SYS_GROUP_STATUS.GROUP g).wr pgSys SYS_GROUP_STATUS.PAGE page).raise
    pgSys 9

/-- A page of a group takes its snapshot, which replaces a pending one (R30). -/
def Module.groupSnap (m : Module) (p : Nat) : Module := m.acceptCommit p (m.shadowOf p) true

/-- Validation ends (R30): every page accepts, and each snapshot waits for its own commit point; or no page applies. -/
def State.endGroup (s : State) (g : GroupCommit) : State :=
  let s := s.onM fun m => { m with reg.group := none }
  match g.refused with
  | [] =>
    let s := s.onM fun m => g.pages.foldl (fun m p =>
      { m with reg.commits := m.reg.commits.set none p ((m.reg.commits.get none p).map fun c => { c with tick := m.tick }) }) m
    (g.pages.foldl State.settleCommit s).onM fun m => m.groupStatus 2 g.group 0
  | (p, _) :: l =>
    s.onM fun m => (g.pages.foldl (fun m q =>
      m.abortPage q ((g.refused.find? fun e => e.1 == q).map Prod.snd)) m).groupStatus 3 g.group ((l.map Prod.fst).foldl Nat.min p)

/-- A verdict has come back to island 36; the last one ends the validation. -/
def State.takeVerdict (s : State) (p : Nat) (bad : Option Bad) : State :=
  match s.m.reg.group with
  | none => s
  | some g =>
    let g := { g with
      waiting := g.waiting.erase p
      refused := match bad with
        | some b => if g.pages.contains p then g.refused ++ [(p, b)] else g.refused
        | none => g.refused }
    if g.waiting = [] then s.endGroup g else s.onM fun m => { m with reg.group := some g }

/-- A group commit (R30): every page of the group takes a snapshot and judges it, and reads PENDING; the verdicts of the pages
of other islands come back over X → 36. -/
def State.commitGroup (s : State) (g : Nat) : State :=
  let pages := s.m.groupPages g
  let verdicts := pages.map fun p => (p, s.m.judgeSnap p (s.m.shadowOf p))
  let (here, there) := verdicts.partition fun v => pageIsland v.1 == 36
  let group : GroupCommit := ⟨g, pages, there.map Prod.fst, here.filterMap fun v => v.2.map fun b => (v.1, b)⟩
  let s := s.onM fun m =>
    let m := (pages.foldl Module.groupSnap m).wr pgSys SYS_GROUP_STATUS.STATE 1
    let m := (m.wr pgSys SYS_GROUP_STATUS.GROUP g).wr pgSys SYS_GROUP_STATUS.PAGE 0
    { there.foldl (fun m v => m.post (pageIsland v.1) 36 .cpl (.verdict v.1 v.2)) m with reg.group := some group }
  if there = [] then s.endGroup group else s

/-- SYS_GROUP_COMMIT (R30): 0 has no effect, and neither has a write while a group is VALIDATING, or without feature 3 (R494). -/
def State.takeSysGroupCommit (s : State) (group : Fin 16) : State :=
  if group.val = 0 ∨ s.m.feature 3 = false ∨ s.m.reg.group.isSome = true then s else s.commitGroup group

/-- The command: a write that does this. -/
def execSysGroupCommit (r : Requester) (group : Fin 16) (s : State) : Host.Outcome State Fault Refusal :=
  .next (s.via (.sysGroupCommit r group) r pgSys fun s => s.takeSysGroupCommit group)

/-! ## SOFT_RESET and CNT_CLR (R547, R124) -/

/-- The counters of a page. -/
def Kind.counters : Kind → List Fld
  | .cnv => [CNV_SCAN_SKIPS.SKIPS, CNV_SCAN_CYCLES.CYCLES, CNV_INJECT_STATUS.REFUSED, CNV_INJECT_DONE.DONE,
      CNV_OVR_COUNT_LO.COUNT, CNV_OVR_COUNT_HI.COUNT, CNV_OVR_RUNS.RUNS, CNV_LIMITER.ENGAGED, CNV_DROP_MSGS.DROPS]
  | .chn => [CHN_SUBS.REFUSED, CHN_SUBS.ACCEPTED, CHN_DROP_MSGS.DROPS, CHN_TAINTED.STAMPS, CHN_GAPS.GAPS]
  | .wte => [WTE_EXP.MAX_EXP, WTE_EXP.MIN_EXP, WTE_ABANDONED.FRAMES, WTE_DROPPED.COLUMNS, WTE_DROPPED.BINS,
      WTE_TAINTED.SPECTRA]
  | .brk => [BRK_EPOCH.ROLE_WRITES, BRK_STALE.COUNT, BRK_DROPPED.IQ_MSGS, BRK_DROPPED.SPECTRA, BRK_TAINTED.OUTPUTS,
      BRK_GAPS.OUTPUTS]
  | .evt => [EVT_IN_EDGES_LO.EDGES, EVT_IN_EDGES_HI.EDGES, EVT_IN_DEADTIME.LOST, EVT_IN_HELD.HELD, EVT_IN_NOTICE_DROPS.DROPS,
      EVT_IU_COUNTS.EARLY_STOP, EVT_IU_COUNTS.FIFO_OVERFLOW, EVT_IU_RESULTS.RESULTS, EVT_CD_STATUS.BUILDS]
  | .trg => [TRG_COND_TRUE.SLOTS, TRG_COND_IGNORED.ITEMS, TRG_COND_LATE.ITEMS, TRG_ST_VISITS.ENTRIES, TRG_TRIGGERS.COUNT,
      TRG_SAME_SLOT.COUNT, TRG_INJECT.REFUSED, TRG_INJECT.ACCEPTED, TRG_LOG_STATUS.OVERFLOW]
  | .acq => [ACQ_CAP_DONE.RECORDS, ACQ_CAP_MISSED.TRIGGERS, ACQ_CAP_OVERWRITTEN.SEGMENTS, ACQ_CAP_DISCARDED.SEGMENTS,
      ACQ_CAP_DROPPED.ITEMS, ACQ_CAP_PRE_LOST.READ_REJECTS, ACQ_CAP_PRE_LOST.RECORDS, ACQ_CAP_IGNORED.ITEMS,
      ACQ_REPLAY_REJECTED.SEGMENTS]
  | .den => [DEN_SPECTRA.COUNT, DEN_DISCARDS.LATE, DEN_DISCARDS.OVERRUN, DEN_IGNORED.COMPLEX, DEN_IGNORED.MISMATCH,
      DEN_SKIPS.WF, DEN_SKIPS.PUB, DEN_REPORT_DROPS.COUNT]
  | .str => [STR_RAW_LO.BYTES, STR_RAW_HI.BYTES, STR_WRITTEN_LO.BYTES, STR_WRITTEN_HI.BYTES, STR_RECORDS.RECORDS,
      STR_REISSUE.LANE_FAULTS, STR_REISSUE.FRAMES]
  | .core => [CORE_EXC_INFO.COUNT, CORE_BUSY_LO.CYCLES, CORE_BUSY_HI.CYCLES, CORE_INBOX_DROPS.ENTRIES, CORE_REC_LOST.NOTICES,
      CORE_DMA_REFUSED.PUSHES, CORE_ECC.UNCORR, CORE_ECC.CORR]
  | .sys => [SYS_REG_STATUS.UNMAPPED_HITS]
  | .pcie => [PCIE_UNCLAIMED.COUNT, PCIE_WIN_MISSES.COUNT, PCIE_FLR.COUNT, PCIE_Q_DONE.COUNT, PCIE_Q_DB_ERR.COUNT,
      PCIE_Q_BYTES_LO.BYTES, PCIE_Q_BYTES_HI.BYTES]
  | .tb => [TB_MARK_ERRORS.COUNT]
  | .cal => [CAL_FG_COUNTS.FAILED, CAL_FG_COUNTS.APPLIED, CAL_BG_STEPS.STEPS, CAL_BG_DEFERS.CAL_FAIL_DEFERS,
      CAL_BG_DEFERS.SHORT_DEFERS, CAL_BG_LAST.STEP_LARGE_COUNT]
  | .bud => [BUD_USED.USED, BUD_PEAK.PEAK, BUD_WAITS.WAITS, BUD_DROPPED_LO.BYTES, BUD_DROPPED_HI.BYTES]
  | .flt => [FLT_SRC_INJECTED.COUNT, FLT_SRC_SEVERE.COUNT, FLT_LOG_STATUS.OVERFLOW]
  | .saf => [SAF_FLOOR_HITS.COUNT]
  | .mgt => [MGT_REQ_STATS.REFUSED_BUSY, MGT_PORT.PEC_ERRORS]
  | .pwr => [PWR_STATE.TRANSITIONS]
  | .dbg => [DBG_JDL_STATS.DROPPED, DBG_JDL_STATS.REFUSED]
  | .meas => [MEAS_RECORDS.COUNT, MEAS_INVALID.COUNT]
  | .cmp => [CMP_LANE_IN_LO.BYTES, CMP_LANE_IN_HI.BYTES, CMP_LANE_OUT_LO.BYTES, CMP_LANE_OUT_HI.BYTES, CMP_LANE_JOBS.JOBS,
      CMP_LANE_STORED.BLOCKS, CMP_LANE_STALL.CYCLES, CMP_SW_STATUS.REFUSED, CMP_RES_STATUS.OVERFLOW]
  | .dcm => [DCM_LANE_OUT_LO.BYTES, DCM_LANE_OUT_HI.BYTES, DCM_LANE_ERRORS.COUNT, DCM_SW_STATUS.REFUSED,
      DCM_RES_STATUS.OVERFLOW]
  | .disp => [DISP_LINK_STATUS.TRAINS, DISP_UNDERRUN.COUNT]
  | .crs => [CRS_STALE.COUNT]
  | .layer => [LAYER_UNMAPPED.COUNT]
  | .nvp => [NVP_IO.ERRORS, NVP_IO.TIMEOUTS, NVP_FRAMES.FRAMES]
  | .clk => []

/-- The captured values of a page. -/
def Kind.captured : Kind → List Fld
  | .sys => [SYS_FEATURES_CTRL.FEATURES_ERR, SYS_GROUP_STATUS.PAGE, SYS_GROUP_STATUS.GROUP, SYS_GROUP_STATUS.STATE]
  | .pcie => [PCIE_Q_STATE.LAST_STATUS]
  | .tb => [TB_ALIGN_STATUS.ALIGN_STALE]
  | .cal => [CAL_FG_STATUS.TIMEOUT_STEP, CAL_FG_STATUS.REASON, CAL_FG_STATUS.LAST_RESULT, CAL_START_LAT.TICKS,
      CAL_LAST_TIME64_LO.TIME, CAL_LAST_TIME64_HI.TIME, CAL_BG_LAST.PHYS_OUT, CAL_BG_LAST.PHYS_IN,
      CAL_BG_LAST_TIME_LO.TIME, CAL_BG_LAST_TIME_HI.TIME, CAL_RESID_LEVEL.SPUR, CAL_RESID_LEVEL.GAIN_ERR,
      CAL_RESID_OFS.OFFSET]
  | .evt => [EVT_IN_LAST_LO.TIME, EVT_IN_LAST_HI.TIME]
  | .mgt => [MGT_SUBST_STATUS.RESULT, MGT_PORT.LATE]
  | .pwr => [PWR_SNAP_TIME_LO.TIME, PWR_SNAP_TIME_HI.TIME]
  | .acq => [ACQ_CAP_LAST_TRIG_LO.TIME, ACQ_CAP_LAST_TRIG_HI.TIME, ACQ_REPLAY_POS.DONE, ACQ_REPLAY_POS.ZERO_LENGTH]
  | .cmp => [CMP_SW_STATUS.LAST_REASON, CMP_SW_STATUS.LAST_REFUSED]
  | .dcm => [DCM_SW_STATUS.LAST_REASON, DCM_SW_STATUS.LAST_REFUSED]
  | .str => [STR_VOL_STATUS.RESULT, STR_RB_STATUS.RESULT, STR_RB_STATUS.DCM_CODE, STR_RB_STATUS.DONE, STR_RB_ERR_SEQ.SEQ]
  | .disp => [DISP_UNDERRUN.LINE, DISP_UNDERRUN_FRAME.FRAME]
  | .cnv => [CNV_START_ACTUAL_LO.ACTUAL, CNV_START_ACTUAL_HI.ACTUAL, CNV_INJECT_STATUS.REFUSE_REASON,
      CNV_INJECT_STATUS.LAST_ZERO_LENGTH, CNV_INJECT_STATUS.LAST_SW_REFUSED, CNV_INJECT_LAT.TICKS, CNV_OVR_LAST_LO.LAST,
      CNV_OVR_LAST_HI.LAST]
  | .chn => [CHN_LAST_INDEX.INDEX]
  | .wte => [WTE_EXP.LAST_EXP, WTE_LAST_TIME_LO.TIME, WTE_LAST_TIME_HI.TIME]
  | .crs => [CRS_START_ACTUAL_LO.ACTUAL, CRS_START_ACTUAL_HI.ACTUAL, CRS_STOP_ACTUAL_LO.ACTUAL, CRS_STOP_ACTUAL_HI.ACTUAL]
  | .trg => [TRG_COND_LAST_LO.TIME, TRG_COND_LAST_HI.TIME, TRG_INJECT.LAST_REASON, TRG_LAT_MAX.TICKS]
  | .den => [DEN_RECT_COUNT.COUNT, DEN_SAT.CELLS]
  | .nvp => [NVP_LAST_ERR.OPCODE, NVP_LAST_ERR.SCT, NVP_LAST_ERR.SC]
  | .core => [CORE_BOOT_STATUS.RESULT]
  | .brk => [BRK_STALE_LAST.SENDER, BRK_STALE_LAST.KIND, BRK_STALE_LAST.MSG_EPOCH, BRK_STALE_LAST.EPOCH,
      BRK_LAST_TIME_LO.TIME, BRK_LAST_TIME_HI.TIME, BRK_SWITCH_LO.B, BRK_SWITCH_HI.B]
  | .clk | .bud | .flt | .saf | .dbg | .meas | .layer => []

/-- The pages whose CTRL has a CNT_CLR bit. -/
def Kind.hasCntClr : Kind → Bool
  | .cnv | .chn | .wte | .brk | .evt | .trg | .acq | .den | .str | .core => true
  | _ => false

/-- CNT_CLR (R124 and the CTRL bits of spec/05 to spec/13). -/
def State.takeCntClr (s : State) (page : Nat) : State := (match pageKind page with
    | some k => if k.hasCntClr then s.onM fun m => k.counters.foldl (fun m f => m.resetField page f) m else s
    | none => s)

/-- The command: a write that does this. -/
def execCntClr (r : Requester) (page : Nat) (s : State) : Host.Outcome State Fault Refusal :=
  .next (s.via (.cntClr r page) r page fun s => s.takeCntClr page)

/-- Every page is routed to its default vector again; a vector whose request rises sends (R477). -/
def Module.defaultRoutes (m : Module) : Module :=
  let moved := (m.reg.route.map Prod.fst).filter m.pageRequests
  moved.foldl (fun m p => m.sendVector (defaultVector p)) { m with reg.route := [] }

/-- What a page keeps of the RW and RM fields (R547). -/
def Module.keeps (m : Module) (p : Nat) (f : Fld) : Bool :=
  (p == pgSaf && f == SAF_WALL.SECONDS)
  || (p == pgMgt && m.rd pgMgt MGT_RESP.STATE == 1
    && [MGT_REQ_OFS.OFFSET, MGT_REQ_DATA.DATA, MGT_REQ_KIND.KIND, MGT_RESP.STATE, MGT_RESP.REASON].contains f)

/-- The RW fields of a page return to reset; RM fields only through the management port. -/
def Module.resetRw (m : Module) (p : Nat) (mgt : Bool) : Module :=
  ((pageRows p).filter fun r => (r.code == .rw || (r.code == .rm && mgt)) && !m.keeps p r.fld).foldl
    (fun m r => m.resetField p r.fld) m

/-- The counters and captured values of a page, and its commit registers, return to reset. -/
def Module.resetRo (m : Module) (p : Nat) : Module :=
  match pageKind p with
  | some k =>
    ((k.counters ++ k.captured).filter (fun f => !(k == .sys && m.reg.group.isSome && f.off == SYS_GROUP_STATUS.STATE.off))
      ++ [CTRL.LIVE_VIEW, COMMIT.GROUP, COMMIT_STATUS.APPLY_COUNT, COMMIT_STATUS.CODE,
      COMMIT_STATUS.SUPERSEDED, COMMIT_STATUS.STATE, ERR_INFO.AUX, ERR_INFO.REASON, ERR_INFO.OFFSET]).foldl
      (fun m f => m.resetField p f) m
  | none => m

/-- What else a SOFT_RESET does on the pages whose RW fields have a home of their own. -/
def Module.resetElse (m : Module) (p : Nat) (mgt : Bool) : Module :=
  if p = pgSys then m.defaultRoutes
  else if p = pgSaf ∧ mgt then { m with net.injectNext := [] }
  else m

/-- The page's fields at reset, its pending commit cancelled, and the commit of the reset values waiting for its commit
point, which R27 does not judge. -/
def Module.softReset (m : Module) (p : Nat) (mgt : Bool) : Module :=
  let m := m.setEnable p false
  let m := ((m.resetElse p mgt).resetRw p mgt).resetRo p
  let m := m.setIrq p 0 0
  let c : PCommit := ⟨m.tick, [], shadowOffsets p, false, false⟩
  { m with
    reg.group := m.reg.group.map fun g =>
      { g with pages := g.pages.erase p, refused := g.refused.filter fun e => e.1 != p }
    reg.shadow := m.reg.shadow.drop (pageLo p) (pageHi p)
    reg.wrote := m.reg.wrote.drop (p * 4096) (p * 4096 + 4096)
    reg.commits := m.reg.commits.set none p (if pageHasShadow p then some c else none) }

/-- A SOFT_RESET of a page (R547). -/
def State.softResetPage (s : State) (p : Nat) (mgt : Bool) : State := (s.onM fun m => m.softReset p mgt).settleCommit p

/-- Who may reset a page: SAF only the management port, the pages of island 57 not the JDL (R439, R520), and DBG those
whose writes take effect there. -/
def Module.mayReset (m : Module) (r : Requester) (p : Nat) : Bool :=
  if p = pgSaf then r == .mgt else if p = pgDbg then m.debugAllows r else !jdlBarred r p

/-- SOFT_RESET (R547). -/
def State.takeSoftReset (s : State) (r : Requester) (page : Nat) : State := (if s.m.mayReset r page then s.softResetPage page (r == .mgt) else s)

/-- The command: a write that does this. -/
def execSoftReset (r : Requester) (page : Nat) (s : State) : Host.Outcome State Fault Refusal :=
  .next (s.via (.softReset r page) r page fun s => s.takeSoftReset r page)

/-! ## The interrupt registers (R24) -/

/-- Who may write the interrupt registers of a page (R439, R520). -/
def mayIrq (r : Requester) (p : Nat) : Bool :=
  (if p = pgSaf then r == .host || r == .mgt else !jdlBarred r p) && match pageKind p with
    | some k => k.hasIrq
    | none => false

/-- The interrupt bits that a page implements: the common two, and the block's from bit 8. -/
def irqMask (bits : Nat) : Nat := bits &&& 0xFFFFFF03

/-- IRQ_FORCE. -/
def State.takeIrqForce (s : State) (r : Requester) (page : Nat) (bits : Word) : State := (if mayIrq r page then s.onM fun m => m.raiseBits page (irqMask bits.toNat) else s)

/-- The command: a write that does this. -/
def execIrqForce (r : Requester) (page : Nat) (bits : Word) (s : State) : Host.Outcome State Fault Refusal :=
  .next (s.via (.irqForce r page bits) r page fun s => s.takeIrqForce r page bits)

/-- IRQ_STATUS_CLEAR: the ones written clear. -/
def State.takeIrqStatusClear (s : State) (r : Requester) (page : Nat) (bits : Word) : State := (if mayIrq r page then
      s.onM fun m => m.setIrq page (m.reg.irqStat.get 0 page &&& (0xFFFFFFFF ^^^ bits.toNat)) (m.reg.irqEn.get 0 page)
    else s)

/-- The command: a write that does this. -/
def execIrqStatusClear (r : Requester) (page : Nat) (bits : Word) (s : State) : Host.Outcome State Fault Refusal :=
  .next (s.via (.irqStatusClear r page bits) r page fun s => s.takeIrqStatusClear r page bits)

/-! ## Features (R496, R497) -/

/-- SYS_DEV_FEATURES of stepping A1 (R494). -/
def devFeatures : Nat := 0x7FF

/-- The pages of the units of a feature. -/
def featurePages (b : Nat) : List Nat :=
  allPages.filter fun p => match pageRow p with
    | some (r, i) => r.kind.needs i == some b
    | none => false

/-- A feature leaves the set in force: the pages of its units take SOFT_RESET, and what R494 states of its absence holds. -/
def State.leaveFeature (s : State) (b : Nat) : State :=
  let s := (featurePages b).foldl (fun s p => s.softResetPage p false) s
  if b = 2 then s.onM fun m => m.defaultRoutes
  else if b = 7 then s.onM fun m => (List.range 20).foldl (fun m c => m.requestHalt c) m
  else s

/-- The driver's set, word by word. -/
def Module.drvFeatures (m : Module) (w : Nat) : Nat := m.rd pgSys (SYS_DRV_FEATURES.FEATURES w)

/-- The driver asks only for what the device offers. -/
def Module.featuresFit (m : Module) : Bool :=
  (m.drvFeatures 0 &&& devFeatures) == m.drvFeatures 0 && [1, 2, 3].all fun w => m.drvFeatures w == 0

/-- The driver's set is accepted. -/
def State.acceptFeatures (s : State) : State :=
  let new := s.m.drvFeatures 0
  let s := ((List.range 11).filter fun b => s.m.feature b && !bit new b).foldl (fun s b => s.leaveFeature b) s
  s.onM fun m =>
    let m := (m.wr pgSys (SYS_FEATURES_IN_FORCE.FEATURES 0) new).wr pgSys SYS_FEATURES_CTRL.FEATURES_OK 1
    (m.wr pgSys SYS_FEATURES_CTRL.FEATURES_ERR 0).wr pgSys SYS_STATUS.FEATURES_OK 1

/-- FEATURES_OK (R496): locked until a function reset once it reads 1. -/
def State.takeFeaturesOk (s : State) : State := (
    if s.m.rd pgSys SYS_FEATURES_CTRL.FEATURES_OK = 1 then s
    else if s.m.featuresFit then s.acceptFeatures
    else s.onM fun m => m.wr pgSys SYS_FEATURES_CTRL.FEATURES_ERR 1)

/-- The command: a write that does this. -/
def execFeaturesOk (r : Requester) (s : State) : Host.Outcome State Fault Refusal :=
  .next (s.via (.featuresOk r) r pgSys fun s => s.takeFeaturesOk)

end Sys2Proof.Machine
end

