-- ==== Sys2Proof/Machine/Epoch.lean ====
section
/-! DEFINITION. The epoch-checked messages of the bricks (R208, R209): EMIT_START, EMIT_STOP, SWITCH_GRANT, REPLAY_DATA. A commit
of the brick whose commit point has come applies before the message is compared. -/

namespace Sys2Proof.Machine

/-- The pending commit of a brick's page applies where it is due (R209, R211). -/
def State.brickDue (s : State) (n : Nat) : State :=
  let p := pgBrk n
  match s.m.reg.commits.get none p with
  | some c => if s.m.commitDue p && !s.m.validating p then s.applySnap p c else s
  | none => s

/-- An epoch-checked message to brick n, from island `src` (R208): the commit first, then the comparison, then what it does. -/
def State.checkEpoch (s : State) (src n course msgEpoch kind : Nat) (act : Module → Module) : State :=
  (s.onM fun m => m.takeArrival src (8 + n / 16)).brickDue n |>.onM fun m => m.epochChecked n course src msgEpoch kind act

/-- EMIT_START (R208, R215) at the head of 24 + d → 8 + c. -/
def execEmitStart (d : Input) (c : Cluster) (s : State) : Host.Outcome State Fault Refusal :=
  .next (match s.m.arrival (24 + d.val) (8 + c.val) with
    | some (.emitStart course n e tick) => s.checkEpoch (24 + d) n course e 1 fun m => m.beginEmission n tick
    | _ => s)

/-- EMIT_STOP (R208, R216) at the head of 24 + d → 8 + c. -/
def execEmitStop (d : Input) (c : Cluster) (s : State) : Host.Outcome State Fault Refusal :=
  .next (match s.m.arrival (24 + d.val) (8 + c.val) with
    | some (.emitStop course n e tick) => s.checkEpoch (24 + d) n course e 2 fun m => m.endEmission n tick
    | _ => s)

/-- SWITCH_GRANT (R208, R221) at the head of 24 + d → 8 + c. -/
def execSwitchGrant (d : Input) (c : Cluster) (s : State) : Host.Outcome State Fault Refusal :=
  .next (match s.m.arrival (24 + d.val) (8 + c.val) with
    | some (.switchGrant course n e b) => s.checkEpoch (24 + d) n course e 3 fun m => m.switchAt n b
    | _ => s)

/-- REPLAY_DATA (R208, R217) at the head of 24 → 8 + c: the boundary before it is the commit point of a pending commit (R211). -/
def execReplayData (c : Cluster) (s : State) : Host.Outcome State Fault Refusal :=
  .next (match s.m.arrival 24 (8 + c.val) with
    | some (.replayData g) => s.checkEpoch 24 g.brick 4 g.epoch 4 fun m => m.takeReplay g
    | _ => s)

end Sys2Proof.Machine
end

