-- ==== Sys2Proof/Machine/Compose.lean ====
section
/-! DEFINITION. VBLANK_START (R325–R329): the commit point of the DISP and LAYER pages, and the next frame. -/

namespace Sys2Proof.Machine

/-- The pages that follow the raster. -/
def rasterPages : List Nat := pgDisp :: (List.range 8).map pgLayer

/-- The layers of whose pages a commit waits for the frame. -/
def Module.layersDue (m : Module) : List Nat := (List.range 8).filter fun l => (m.reg.commits.get none (pgLayer l)).isSome

/-- The pending commits of the DISP and LAYER pages apply. -/
def State.applyRaster (s : State) : State :=
  rasterPages.foldl (fun s p => match s.m.reg.commits.get none p with
    | some c => s.applySnap p c
    | none => s) s

/-- The frame that ends (R325, R328, R329): static unless something changed in it. A new one begins. -/
def Module.endFrame (m : Module) : Module :=
  let m := { m with disp := { m.disp with
    still := if m.disp.changed then 0 else m.disp.still + 1, changed := false, vblank := some m.clk.ticks, sent := 0 } }
  (m.step pgDisp DISP_FRAME.FRAME).raise pgDisp 8

/-- The engine of a layer of a type. -/
def Module.engineOf (m : Module) (type l : Nat) : Option Nat :=
  if m.lv (pgLayer l) LAYER_CFG.TYPE = type then some (m.lv (pgLayer l) LAYER_CFG.ENGINE) else none

/-- The WATERFALL layers whose engines have completed lines since they were last shown. -/
def Module.fallsDue (m : Module) : List Nat :=
  (List.range 8).filter fun l => match m.engineOf 2 l with
    | some e => m.disp.falls.get none l != m.newestFall e
    | none => false

/-- The WATERFALL layers show their engines' newest lines. -/
def Module.showFalls (m : Module) (ls : List Nat) : Module :=
  ls.foldl (fun m l => match m.engineOf 2 l with
    | some e =>
      ({ m with disp := { m.disp with falls := m.disp.falls.set none l (m.newestFall e), changed := true } } : Module).wr
        (pgLayer l) LAYER_SRC_SEQ.SEQUENCE (((m.newestFall e).map FallLine.line).getD 0)
    | none => m) m

/-- A LOCK goes to every engine that a TILE layer shows (R318), charged to the DISP page (R332). -/
def Module.sendLocks (m : Module) : Module :=
  let es := ((List.range 8).filterMap fun l => m.engineOf 1 l).dedup
  es.foldl (fun m e => m.send ⟨30, m.denIsland e, .req, some m.dispAct, 1, [], false, .lock e⟩)
    { m with disp := { m.disp with asked := es } }

/-- The bands of some layers. -/
def Module.bandsOfAll (m : Module) (ls : List Nat) : List Nat := ls.flatMap m.bandsOf

/-- The blanking of the new frame: extended while frames stay static, else nominal (R329). -/
def Module.setBlank (m : Module) : Module :=
  let longer := m.rd pgDisp DISP_LINE.EXTENDED == 1 && m.lv pgDisp DISP_LINK.ADAPTIVE_EN == 1 && !m.disp.changed
    && decide (m.lv pgDisp DISP_REFRESH.STATIC_FRAMES ≤ m.disp.still)
  let m := { m with disp := { m.disp with blank := if longer then m.floorBlank else m.nominalBlank } }
  (m.wr pgDisp DISP_LINE.EXTENDED longer.toNat).wr pgDisp DISP_RATE.MHZ
    (Nat.min 65535 (if longer then m.floorRate else m.nominalRate))

/-- The new frame: what has to be recomposed, the locks, and the blanking. A raster that has just started, a frame after an
aborted one and a commit of the DISP page recompose every band (R325). -/
def Module.startFrame (m before : Module) : Module :=
  let again := before.disp.vblank.isNone || before.disp.aborted || (before.reg.commits.get none pgDisp).isSome
  let ls := before.layersDue
  let falls := m.fallsDue
  let m := if m.safeAt 30 then m else ((m.showFalls falls).sendLocks.addWork 15 1)
  let m := ({ m with disp := { m.disp with aborted := false } } : Module).setBlank
  (m.queueBands (if again then List.range 135
    else (before.bandsOfAll ls ++ m.bandsOfAll (ls ++ if m.safeAt 30 then [] else falls)).dedup)).noteComposed

/-- VBLANK_START (R326): the commit point of the DISP and LAYER pages, once the raster has come to it. -/
def execVblankStart (s : State) : Host.Outcome State Fault Refusal :=
  .next (
    if s.m.rasterRuns = true ∧ s.m.vblankDue = true then
      let s' := (s.onM fun m => m.endFrame).applyRaster
      if s'.m.rasterRuns then s'.onM fun m => m.startFrame s.m else s'
    else s)

end Sys2Proof.Machine
end

