-- ==== Sys2Proof/Machine/Views.lean ====
section
/-! DEFINITION. What registers read: the fields that show the state of their unit (RO fields with no home in the register
file), STATUS, and the words of a page (R4, R5). -/

namespace Sys2Proof.Machine

/-! ## The fields that are computed, by kind of page -/

/-- Words of bytes, little-endian (R3). -/
def dataWords (f : Nat → Fld) (n : Nat) (l : List Byte) : List (Fld × Nat) :=
  (List.range n).map fun w => (f w, leNat ((l.drop (4 * w)).take 4))

/-- Low and high words. -/
def halves (lo hi : Fld) (v : Nat) : List (Fld × Nat) := [(lo, v % 2 ^ 32), (hi, v / 2 ^ 32 % 2 ^ 32)]

/-- The feature negotiation, the part, the selected region and vector (R499). -/
def Module.viewSys (m : Module) (b : Nat) : List (Fld × Nat) :=
  let v := m.rd pgSys SYS_VEC_SEL.VECTOR
  let asking := if v < 64 then [] else m.requesters v
  [(SYS_STATUS.SAFE_STOPPED, m.safeStopped.toNat), (SYS_REG_STATUS.LIVE_MAPPED, m.lv pgSys SYS_REG_CTRL.MAPPED b),
    (SYS_PART.PART, 0x9256), (SYS_PART.STEPPING, 0xA1), (SYS_PART.FAMILY, 1), (SYS_DEV_FEATURES.FEATURES 0, devFeatures),
    (SYS_FEATURES_CTRL.FEATURES_OK, m.rd pgSys SYS_FEATURES_CTRL.FEATURES_OK),
    (SYS_IRQ_ROUTE.VECTOR, m.vectorOf (m.rd pgSys SYS_IRQ_SEL.PAGE)),
    (SYS_VEC_STATUS.COUNT, asking.length), (SYS_VEC_STATUS.FIRST, asking.headD 0)]
  ++ halves SYS_SERIAL_LO.SERIAL SYS_SERIAL_HI.SERIAL Config.serial

def Module.viewPcie (m : Module) (b : Nat) : List (Fld × Nat) := [(PCIE_Q_STATE.STATE, m.queueShown b)]

def Module.viewClk (m : Module) : List (Fld × Nat) :=
  [(CLK_STATUS.REF_VALID, m.refValid.toNat),
    (CLK_STATUS.ALL_LOCKED, ((List.range 10).all fun l => m.loopState l == 1).toNat),
    (CLK_STATUS.ANY_HOLDOVER, ((List.range 10).any fun l => m.loopState l == 2).toNat)]

def Module.viewTb (m : Module) : List (Fld × Nat) := halves TB_NOW_LO.NOW TB_NOW_HI.NOW m.now

/-- One bit per input. -/
def inputBits (f : Nat → Bool) : Nat := (([0, 1, 2, 3].filter f).map fun x => 2 ^ x).sum

/-- The slice of the selected input: its trims, position and age (spec 04). -/
def Module.viewCal (m : Module) : List (Fld × Nat) :=
  let x := m.rd pgCal CAL_SEL.INPUT
  let p := m.rd pgCal CAL_SLICE_SEL.SLICE
  let c := m.slice x p
  [(CAL_STATUS.FG_ACTIVE, inputBits m.calShown), (CAL_STATUS.BG_RUNNING, inputBits m.rotates)]
  ++ if p < 68 then
      [(CAL_SLICE_TRIM.SKEW, ofSigned 12 c.trim.skew), (CAL_SLICE_TRIM.GAIN, ofSigned 10 c.trim.gain),
        (CAL_SLICE_TRIM.OFFSET, ofSigned 10 c.trim.ofs), (CAL_SLICE_INFO.AGE_MS, Nat.min 65535 ((m.clk.ticks - c.calAt) / 2000000)),
        (CAL_SLICE_INFO.POSITION, c.pos)]
    else []

/-- The result window shows the oldest entry of the selected unit (R239). -/
def Module.viewEvt (m : Module) (b : Nat) : List (Fld × Nat) :=
  [(EVT_STATUS.IU_ACTIVE, inputBits fun u => m.rd pgEvt EVT_IU_STATUS.STATE u != 0), (EVT_IU_STATUS.FIFO_LEVEL, (m.iu b).fifo.length)]
  ++ match (m.iu m.iuSel).fifo with
    | [] => []
    | e :: _ =>
      [(EVT_RES_HDR.SEQ, e.seq % 65536), (EVT_RES_HDR.STOPS_TAKEN, e.stops), (EVT_RES_HDR.HOLDOVER, e.holdover.toNat),
        (EVT_RES_HDR.INCOMPLETE, e.incomplete.toNat), (EVT_RES_HDR.TIMEOUT, e.timeout.toNat),
        (EVT_RES_HDR.ABORTED, e.aborted.toNat), (EVT_RES_HDR.DEADTIME, e.dead.toNat), (EVT_RES_HDR.FREQ, e.freq.toNat),
        (EVT_RES_HDR.COINCIDENT_ANY, (e.coinc != 0).toNat), (EVT_RES_HDR.VALID, 1), (EVT_RES_COINC.COINC, e.coinc)]
      ++ halves EVT_RES_START_LO.START EVT_RES_START_HI.START e.start
      ++ (List.range 16).flatMap fun i =>
        halves (EVT_RES_STOP_LO.VALUE i) (EVT_RES_STOP_HI.VALUE i) (e.values.getD i 0)

def Module.viewBud (m : Module) : List (Fld × Nat) :=
  let r := m.rd pgBud BUD_SEL.RESOURCE
  if 78 ≤ r then []
  else [(BUD_CAP.CAP, m.capNow r), (BUD_RESERVE.RESERVE, reserve (m.capNow r)), (BUD_SUM.SUM, m.budSum r),
    (BUD_SUM_SHADOW.SUM, m.budSumShadow r)]

/-- LIVE of a source: the reporter's present condition, where the table names one (R452). -/
def Module.sourceLive (m : Module) (n : Nat) : Bool :=
  if n < 10 then m.loopState n != 1
  else if n = 10 then !m.refValid
  else if 296 ≤ n ∧ n < 300 then m.rd (pgCnv (n - 296)) CNV_LIMITER.ACTIVE == 1
  else if n = 853 then m.rd pgSaf SAF_STATUS.PFW == 1
  else if n = 854 then m.rd pgSaf SAF_STATUS.THERM == 1
  else false

def Module.viewFlt (m : Module) (b : Nat) : List (Fld × Nat) :=
  [(FLT_STATUS.ANY_LATCHED, (!m.latched.isEmpty).toNat), (FLT_STATUS.FAULT_N, m.faultN.isSome.toNat),
    (FLT_STATUS.SAFE_STOPPED, m.safeStopped.toNat), (FLT_SRC_STATE.LIVE, (m.sourceLive b).toNat),
    (FLT_PENDING.RECORDS, m.latched.length), (FLT_FAULTN.SOURCE, m.faultN.getD 0), (FLT_FAULTN.ASSERTED, m.faultN.isSome.toNat),
    (FLT_LOG_STATUS.LEVEL, m.flt.log.length)]
  ++ match m.flt.log with
    | [] => []
    | e :: _ =>
      [(FLT_LOG_HDR.SOURCE, e.source), (FLT_LOG_HDR.SEQ, e.seq % 256), (FLT_LOG_HDR.LEVEL, e.severe.toNat),
        (FLT_LOG_HDR.KIND, (!e.corrected).toNat), (FLT_LOG_HDR.REAL_AND_INJECTED, (e.real && e.injected).toNat),
        (FLT_LOG_HDR.INJECTED, (e.injected && !e.real).toNat), (FLT_LOG_HDR.VALID, 1), (FLT_LOG_SYND.SYNDROME, e.syndrome)]
      ++ halves FLT_LOG_TIME_LO.TIME FLT_LOG_TIME_HI.TIME e.time

/-- What the selected checker has still to inject (R464). -/
def Module.injectLeft (m : Module) : Nat := m.armed (m.rd pgSaf SAF_INJ_SEL.CHECKER) (m.rd pgSaf SAF_INJ_SEL.INSTANCE)

def Module.viewSaf (m : Module) : List (Fld × Nat) :=
  let n := m.rd pgSaf SAF_LEDGER_SEL.ENTRY
  [(SAF_STATUS.SAFE_STOPPED, m.safeStopped.toNat), (SAF_STATUS.INJ_ARMED, (m.net.injectNext != []).toNat),
    (SAF_INJ_COUNT.REMAINING, m.injectLeft), (SAF_LEDGER_COUNT.ENTRIES, m.safety.ledger.length)]
  ++ (match m.safety.ledger[n]? with
    | some e => dataWords SAF_LEDGER_DATA.DATA 8 (e.bytes n)
    | none => dataWords SAF_LEDGER_DATA.DATA 8 (List.replicate 32 0xFF))
  ++ match m.safety.drives.get none (m.rd pgSaf SAF_DRIVE_SEL.RECORD) with
    | some r => dataWords SAF_DRIVE_DATA.DATA 32 r.bytes
    | none => []

def Module.viewMgt : List (Fld × Nat) :=
  [(MGT_PORT.ADDR, 0x58 + Config.maddr % 4), (MGT_PORT.SEL, Config.msel.toNat)]

def Module.viewDbg (m : Module) (b : Nat) : List (Fld × Nat) :=
  [(DBG_STATUS.TAP_ACTIVE, (m.jdl.ir == 2).toNat),
    (DBG_STATUS.ANY_DEBUG_HALTED, ((List.range 20).any fun c => m.coreState c == coreDebug).toNat), (DBG_CORE_PC.PC, (m.cr b).pc)]

/-- Captures in a state other than IDLE; the replay in progress. -/
def Module.anyArmed (m : Module) : Bool := (List.range 32).any fun b => m.rd pgAcq ACQ_CAP_STATUS.STATE b != 0
def Module.replaying (m : Module) : Bool :=
  m.lv pgAcq ACQ_REPLAY_CFG.EN == 1 && m.rd pgAcq ACQ_REPLAY_POS.DONE == 0 && m.rd (pgCrs 4) CRS_STATUS.RUN_STATE == 2

def Module.viewAcq (m : Module) (b : Nat) : List (Fld × Nat) :=
  [(ACQ_STATUS.ANY_ARMED, m.anyArmed.toNat), (ACQ_STATUS.REPLAYING, m.replaying.toNat),
    (ACQ_CAP_STATUS.OPEN, (m.cap.get CapSt.init b).openCount)]

/-- The STATE of a lane (spec 11). -/
def LaneSt.state (l : LaneSt) : Nat :=
  if l.failed then 3 else if l.stalled.isSome then 2 else if l.run.isSome then 1 else 0
def DLaneSt.state (l : DLaneSt) : Nat := if l.failed then 3 else if l.suspended then 2 else if l.run.isSome then 1 else 0

def Module.cmpBusy (m : Module) : Bool := (List.range 32).any fun l => (m.lane l).state == 1 || (m.lane l).state == 2
def Module.dcmBusy (m : Module) : Bool := (List.range 8).any fun l => (m.dlane l).state == 1 || (m.dlane l).state == 2

def Module.viewCmp (m : Module) (b : Nat) : List (Fld × Nat) :=
  let l := m.lane b
  [(CMP_STATUS.ANY_BUSY, m.cmpBusy.toNat), (CMP_STATUS.ANY_FAILED, ((List.range 32).any fun l => (m.lane l).failed).toNat),
    (CMP_LANE_STATUS.PHYS, l.phys), (CMP_LANE_STATUS.GROUP, laneGroup l.phys), (CMP_LANE_STATUS.QUEUED, l.queue.length),
    (CMP_LANE_STATUS.STATE, l.state), (CMP_RES_STATUS.LEVEL, m.codec.results.length),
    (CMP_LANE_STALL.CYCLES, Nat.min 0xFFFFFFFF (m.rd pgCmp CMP_LANE_STALL.CYCLES b
      + (l.stalled.map fun t => (m.clk.ticks - t) / 2).getD 0))]
  ++ halves CMP_LANE_IN_LO.BYTES CMP_LANE_IN_HI.BYTES
      (m.rd64 pgCmp CMP_LANE_IN_LO.BYTES CMP_LANE_IN_HI.BYTES b + (l.run.map LaneRun.used).getD 0)
  ++ halves CMP_LANE_OUT_LO.BYTES CMP_LANE_OUT_HI.BYTES
      (m.rd64 pgCmp CMP_LANE_OUT_LO.BYTES CMP_LANE_OUT_HI.BYTES b + (l.run.map LaneRun.sent).getD 0)
  ++ match m.codec.results with
    | [] => []
    | e :: _ =>
      [(CMP_RES_HDR.SEQ, e.seq % 65536), (CMP_RES_HDR.LANE, e.lane), (CMP_RES_HDR.STATUS, e.status),
        (CMP_RES_HDR.POISONED, e.run.poison.isSome.toNat), (CMP_RES_HDR.UNMAPPED, e.run.unmapped.toNat), (CMP_RES_HDR.VALID, 1),
        (CMP_RES_TAG.TAG, e.run.job.tag), (CMP_RES_IN.BYTES, e.run.job.len), (CMP_RES_OUT.BYTES, e.run.payload.length),
        (CMP_RES_RAW_CRC.CRC, e.run.rawCrc), (CMP_RES_PAY_CRC.CRC, e.run.payCrc), (CMP_RES_BLOCKS.STORED, e.run.stored),
        (CMP_RES_BLOCKS.BLOCKS, e.run.blocks), (CMP_RES_POISON_OFS.OFFSET, e.run.poison.getD 0)]

def Module.viewDcm (m : Module) (b : Nat) : List (Fld × Nat) :=
  let l := m.dlane b
  [(DCM_STATUS.ANY_BUSY, m.dcmBusy.toNat), (DCM_STATUS.ANY_FAILED, ((List.range 8).any fun l => (m.dlane l).failed).toNat),
    (DCM_LANE_STATUS.QUEUED, l.queue.length), (DCM_LANE_STATUS.STATE, l.state), (DCM_RES_STATUS.LEVEL, m.codec.dres.length)]
  ++ halves DCM_LANE_OUT_LO.BYTES DCM_LANE_OUT_HI.BYTES
      (m.rd64 pgDcm DCM_LANE_OUT_LO.BYTES DCM_LANE_OUT_HI.BYTES b + (l.run.map DRun.sent).getD 0)
  ++ match m.codec.dres with
    | [] => []
    | e :: _ =>
      [(DCM_RES_HDR.SEQ, e.seq % 65536), (DCM_RES_HDR.LANE, e.lane), (DCM_RES_HDR.RESULT, e.run.result),
        (DCM_RES_HDR.DETAIL, e.run.detail), (DCM_RES_HDR.SHORT, e.run.short.toNat), (DCM_RES_HDR.VALID, 1),
        (DCM_RES_TAG.TAG, e.run.job.tag), (DCM_RES_OUT_BYTE.BYTES, e.run.output.length), (DCM_RES_TRAILING.BYTES, e.run.trailing)]
      ++ halves DCM_RES_IN_BIT_LO.BIT DCM_RES_IN_BIT_HI.BIT e.run.inBit

def Module.viewStr (m : Module) (b : Nat) : List (Fld × Nat) :=
  [(STR_STATUS.MOUNTED, (m.volState == 2).toNat), (STR_STATUS.DEGRADED, (m.volState == 3).toNat),
    (STR_STATUS.VOLUME_FULL, m.rd pgStr STR_VOL_STATUS.FULL), (STR_STATUS.RB_BUSY, m.rd pgStr STR_RB_STATUS.BUSY),
    (STR_STATUS.PENDING, Nat.min 65535 (m.sm b).records.length)]

def Module.viewDisp (m : Module) : List (Fld × Nat) :=
  [(DISP_STATUS.RASTER_RUN, m.rasterRuns.toNat), (DISP_STATUS.HPD, m.rd pgDisp DISP_LINK_STATUS.HPD),
    (DISP_LINE.IN_BLANK, m.rasterLine.2.toNat), (DISP_LINE.LINE, m.rasterLine.1),
    (DISP_EDID_DATA.DATA, m.disp.edid.get 0 (m.rd pgDisp DISP_EDID_SEL.BYTE))]

/-- The entry in force is settling, and the frames it has still to run. -/
def Module.settling (m : Module) (x : Nat) : Bool :=
  m.runState x == 2 && decide (m.tick < (m.cv x).entryTick + (m.cv x).settle)
def Module.framesLeft (m : Module) (x : Nat) : Nat :=
  if m.runState x = 2 then (m.cv x).frames - ((m.cv x).boundaryNo m.tick - 1) else 0

def Module.viewCnv (m : Module) (x : Nat) : List (Fld × Nat) :=
  let eq := if m.rd (pgCnv x) CNV_EQ_SEL.VIEW_FACTORY = 1 then
      [(CNV_EQ_DATA.COEFF, ofSigned 18 (m.factorySet x (m.rd (pgCnv x) CNV_EQ_SEL.BANK) (m.rd (pgCnv x) CNV_EQ_SEL.TAP)))]
    else []
  eq ++ [(CNV_STATUS.LIMITER_ACTIVE, m.rd (pgCnv x) CNV_LIMITER.ACTIVE),
    (CNV_STATUS.INJECT_ACTIVE, (m.rd (pgCnv x) CNV_INJECT_STATUS.STATE != 0).toNat), (CNV_STATUS.IN_SETTLE, (m.settling x).toNat),
    (CNV_SCAN_STATUS.FRAMES_LEFT, m.framesLeft x), (CNV_SCAN_STATUS.IN_SETTLE, (m.settling x).toNat),
    (CNV_SLICE_STATUS.CAL_SLICE, (m.cv x).calSlice)]

/-- The sub-bands with a route to the selected cluster (spec 05). -/
def Module.routesTo (m : Module) (x c : Nat) : List Nat := (List.range 64).filter fun k => (m.wd x).subs.get 0 (64 * c + k) != 0
def Module.delivering (m : Module) (x : Nat) : Bool := m.rd (pgChn x) CTRL.ENABLE == 1 && !(m.wd x).subs.isEmpty && m.runState x == 2

def Module.viewChn (m : Module) (x : Nat) : List (Fld × Nat) :=
  let l := m.routesTo x (m.rd (pgChn x) CHN_ROUTE_SEL.CLUSTER)
  [(CHN_STATUS.DELIVERING, (m.delivering x).toNat), (CHN_ROUTE_UNITS.ROUTES, l.length), (CHN_ROUTE_UNITS.UNITS, 34 * l.length)]
  ++ halves CHN_ROUTE_LO.SUBBANDS CHN_ROUTE_HI.SUBBANDS (maskOf l)

def Module.computing (m : Module) (x : Nat) : Bool := m.rd (pgWte x) CTRL.ENABLE == 1 && !(m.wd x).grids.isEmpty

def Module.viewWte (m : Module) (x : Nat) : List (Fld × Nat) :=
  [(WTE_STATUS.COMPUTING, (m.computing x).toNat), (WTE_STATUS.HOLDING, (m.wd x).holding.toNat)]

def Module.viewCrs (m : Module) (d : Nat) : List (Fld × Nat) :=
  let l := m.knownMembers d
  let e := (m.crs d).epochs.get 0 (m.rd (pgCrs d) CRS_EPOCH_SEL.BRICK)
  [(CRS_MEMBER_COUNT.COUNT, l.length), (CRS_EPOCH_VIEW.ROLE, e / 256 % 8), (CRS_EPOCH_VIEW.EPOCH, e % 256)]
  ++ (List.range 8).map fun w => (CRS_MEMBERS.MEMBERS w, maskOf ((l.filter fun n => n / 32 == w).map (· % 32)))

def Module.viewTrg (m : Module) (d : Nat) : List (Fld × Nat) :=
  let t := m.tg d
  [(TRG_STATUS.EVALUATING, t.running.toNat), (TRG_STATUS.HOLDING, m.rd (pgTrg d) TRG_SEQ_STATUS.HOLDING),
    (TRG_STATUS.MASK_COPYING, (m.maskCopying d).toNat), (TRG_MASK_STATUS.COPYING, (m.maskCopying d).toNat), (TRG_LOG_STATUS.LEVEL, t.log.length)]
  ++ match t.log with
    | [] => []
    | e :: _ =>
      [(TRG_LOG_HDR.SEQ, e.seq % 65536), (TRG_LOG_HDR.FROM, e.left), (TRG_LOG_HDR.TO, e.entered), (TRG_LOG_HDR.COND, e.cond),
        (TRG_LOG_HDR.TAINT, e.taint.toNat), (TRG_LOG_HDR.HOLDOVER, e.holdover.toNat), (TRG_LOG_HDR.LATE, e.late.toNat),
        (TRG_LOG_HDR.INJ_REQ, e.inj.toNat), (TRG_LOG_HDR.TRIGGER, e.trigger.toNat), (TRG_LOG_HDR.VALID, 1),
        (TRG_LOG_MASK.MASK, e.mask)]
      ++ halves TRG_LOG_TIME_LO.TIME TRG_LOG_TIME_HI.TIME e.time

def Module.viewDen (m : Module) (e : Nat) : List (Fld × Nat) :=
  [(DEN_STATUS.FOLDING, (!(m.dn e).folding.isEmpty).toNat), (DEN_STATUS.PUBLISHING, (m.dn e).pub.isSome.toNat),
    (DEN_STATUS.FORWARDED, (decide (m.denPhys e = 8) && decide (4 ≤ e)).toNat), (DEN_PHYS.ENGINE, m.denPhys e),
    (DEN_WF_LAST.LINE, ((m.newestFall e).map FallLine.line).getD 0), (DEN_WF_LAST.VALID, (m.newestFall e).isSome.toNat)]

/-- Identity words in reported order (spec 12). -/
def Module.identity (m : Module) (n : Nat) : List Byte :=
  match (m.pt n).info with
  | some d => pad 20 d.serial ++ pad 40 d.model ++ pad 16 d.nguid ++ pad 8 d.eui64
  | none => []

/-- A command that writes to the drive. -/
def OutCmd.writes (c : OutCmd) : Bool :=
  match c.cmd with
  | .write _ _ | .zeros _ _ => true
  | _ => false

def Module.viewNvp (m : Module) (n : Nat) : List (Fld × Nat) :=
  let w := m.rd (pgNvp n) NVP_ID_SEL.WORD
  [(NVP_STATUS.LINK_UP, m.rd (pgNvp n) NVP_LINK.UP), (NVP_STATUS.READY, (m.driveState n == 3).toNat),
    (NVP_STATUS.WRITING, ((m.pt n).out.any OutCmd.writes).toNat), (NVP_ID_DATA.DATA, leNat (((m.identity n).drop (4 * w)).take 4)),
    (NVP_IO.OUTSTANDING, Nat.min 255 (m.pt n).out.length)]

def Module.viewCore (m : Module) (c : Nat) : List (Fld × Nat) :=
  let k := m.cr c
  let spare := if isCluster c then (List.range 16).any fun n => (m.cr n).phys == 16
    else [16, 17, 18, 19].any fun n => (m.cr n).phys == 4
  [(CORE_STATUS.LEVEL, k.level), (CORE_PC.PC, k.pc), (CORE_SR.SR, k.sr), (CORE_PHYS.SPARE_LEFT, (!spare).toNat),
    (CORE_PHYS.PHYS, k.phys)]

def Module.viewBrk (m : Module) (n : Nat) : List (Fld × Nat) :=
  [(BRK_STATUS.WARM, (m.brickWarm n).toNat), (BRK_STATUS.EMITTING, (m.brickEmitting n).toNat), (BRK_PHYS.SLOT, (m.bk n).slot)]

/-- The computed fields of a page, for bank b. -/
def Module.views (m : Module) (k : Kind) (i b : Nat) : List (Fld × Nat) :=
  match k with
  | .sys => m.viewSys b
  | .pcie => m.viewPcie b
  | .clk => m.viewClk
  | .tb => m.viewTb
  | .cal => m.viewCal
  | .evt => m.viewEvt b
  | .bud => m.viewBud
  | .flt => m.viewFlt b
  | .saf => m.viewSaf
  | .mgt => Module.viewMgt
  | .dbg => m.viewDbg b
  | .acq => m.viewAcq b
  | .cmp => m.viewCmp b
  | .dcm => m.viewDcm b
  | .str => m.viewStr b
  | .disp => m.viewDisp
  | .cnv => m.viewCnv i
  | .chn => m.viewChn i
  | .wte => m.viewWte i
  | .crs => m.viewCrs i
  | .trg => m.viewTrg i
  | .den => m.viewDen i
  | .nvp => m.viewNvp i
  | .core => m.viewCore i
  | .brk => m.viewBrk i
  | .pwr | .meas | .layer => []

/-! ## STATUS -/

/-- The unit of a page has work in progress (the manual does not say per block what counts: log entry 46). -/
def Module.busy (m : Module) (k : Kind) (i : Nat) : Bool :=
  match k with
  | .pcie => (List.range 64).any fun q => (m.hq q).cur.isSome
  | .tb => m.rd pgTb TB_ALIGN_STATUS.STATE != 0
  | .cal => [0, 1, 2, 3].any m.calBusy || m.storeState != 0
  | .evt => ((List.range 4).any fun u => m.rd pgEvt EVT_IU_STATUS.STATE u != 0) || m.rd pgEvt EVT_STATUS.CD_BUILDING == 1
  | .saf => !m.safety.unsaved.isEmpty
  | .mgt => m.rd pgMgt MGT_RESP.STATE == 1
  | .pwr => m.rd pgPwr PWR_STATE.MOVING == 1
  | .dbg => m.jdl.req.isSome
  | .acq => m.anyArmed || m.replaying
  | .cmp => m.cmpBusy
  | .dcm => m.dcmBusy
  | .str => slots.any (fun j => m.rd pgStr STR_STATUS.STATE j == 1 || m.rd pgStr STR_STATUS.STATE j == 2)
      || m.rd pgStr STR_RB_STATUS.BUSY == 1
  | .disp => m.rasterRuns
  | .cnv => m.runState i != 0
  | .chn => m.delivering i
  | .wte => m.computing i
  | .crs => m.courseState i != 0
  | .trg => (m.tg i).running
  | .den => !(m.dn i).folding.isEmpty || (m.dn i).pub.isSome
  | .layer => m.rasterRuns && m.drawn i
  | .nvp => !(m.pt i).placed.isEmpty || !(m.pt i).out.isEmpty
  | .core => m.coreState i == coreRunning
  | .brk => m.brickEmitting i
  | .sys | .clk | .bud | .flt | .meas => false

/-- The fault sources that name the unit of a page (R452). -/
def Module.sourcesOf (m : Module) (k : Kind) (i : Nat) : List Nat :=
  let upTo (a n : Nat) : List Nat := (List.range n).map (a + ·)
  match k with
  | .sys => [852]
  | .pcie => [719]
  | .clk => upTo 0 11
  | .tb => [11]
  | .evt => [12]
  | .cal => upTo 292 4
  | .bud => [15]
  | .saf => [13, 14, 853, 854]
  | .mgt => [855]
  | .cnv => (288 + i) :: (296 + i) :: upTo (16 + 68 * i) 68
  | .chn | .wte => [300 + i]
  | .brk => [304 + 17 * (i / 16) + (m.bk i).slot]
  | .crs | .trg => if i < 4 then [576 + i] else []
  | .den => [580 + m.denPhys i]
  | .disp => [589, 590]
  | .layer => []
  | .nvp => [720 + i]
  | .cmp => upTo 728 34
  | .dcm => upTo 762 8
  | .core => [if i < 16 then 770 + (m.cr i).phys else 787 + (m.cr i).phys]
  | .flt | .pwr | .dbg | .acq | .meas | .str => []

/-- STATUS.FAULT: an uncleared record names this unit. -/
def Module.faultShown (m : Module) (k : Kind) (i : Nat) : Bool :=
  (m.sourcesOf k i).any fun n => m.rd pgFlt FLT_SRC_STATE.LATCHED n == 1

/-- STATUS [3:0]. -/
def Module.statusLow (m : Module) (p : Nat) (k : Kind) (i : Nat) : Nat :=
  8 * (m.faultShown k i).toNat + 4 * m.rd p STATUS.SPARE_IN_USE + 2 * (m.busy k i).toNat + m.rd p CTRL.ENABLE

/-! ## Words -/

/-- The bank of the register at an offset: none where the selection names nothing. -/
def Module.bankOf (m : Module) (p : Nat) (k : Kind) (off : Nat) : Option Nat :=
  let v := fun (f : Fld) => m.rd p f
  match k.selectors off with
  | [] => some 0
  | [f] =>
    if (k == .clk && decide (10 ≤ v f)) || (k == .dbg && decide (20 ≤ v f)) then none
    else if (k == .pwr && f == PWR_ENERGY_SEL.COUNTER && decide (62 ≤ v f)) then none
    else some (v f)
  | [f, g] =>
    if k == .bud && decide (78 ≤ v f) then none
    else if k == .bud || k == .cnv then some (v f * 64 + v g)
    else some (v f)
  | _ => some 0

/-- What one field of the register file reads: RWS the shadow or, with LIVE_VIEW, the live value; W1S and WO zero. -/
def Module.fieldRead (m : Module) (p : Nat) (views : List (Fld × Nat)) (r : Row) (b : Nat) : Nat :=
  match views.find? fun v => v.1 == r.fld with
  | some v => v.2 % 2 ^ r.fld.width
  | none =>
    match r.code with
    | .rws => if m.rd p CTRL.LIVE_VIEW = 1 then m.lv p r.fld b else m.sh p r.fld b
    | .w1s | .wo => 0
    | .rw | .ro | .w1c | .rm => m.rd p r.fld b

/-- The block fields at an offset, each at its place. -/
def Module.blockWord (m : Module) (p : Nat) (k : Kind) (i off : Nat) : Nat :=
  match m.bankOf p k off with
  | none => 0
  | some b =>
    let views := m.views k i b
    ((k.rows.filter fun r => r.fld.off == off).map fun r => m.fieldRead p views r b * 2 ^ r.fld.lo).sum

/-- The common header (spec 01). -/
def Module.headerWord (m : Module) (p : Nat) (k : Kind) (i off : Nat) : Nat :=
  let activity := if m.rd p CTRL.LIVE_VIEW = 1 then m.lv p ACTIVITY_ID.ACTIVITY else m.sh p ACTIVITY_ID.ACTIVITY
  match off with
  | 0x000 => pageId p
  | 0x004 => pageCaps p
  | 0x008 => 2 * m.rd p CTRL.LIVE_VIEW + m.rd p CTRL.ENABLE
  | 0x00C => m.statusLow p k i
  | 0x014 => if k.hasIrq then m.reg.irqStat.get 0 p else 0
  | 0x018 => if k.hasIrq then m.reg.irqEn.get 0 p else 0
  | 0x020 => 256 * m.rd p COMMIT.GROUP
  | 0x024 =>
    65536 * m.rd p COMMIT_STATUS.APPLY_COUNT + 256 * m.rd p COMMIT_STATUS.CODE + 4 * m.rd p COMMIT_STATUS.SUPERSEDED
      + m.rd p COMMIT_STATUS.STATE
  | 0x028 => 2 ^ 24 * m.rd p ERR_INFO.AUX + 65536 * m.rd p ERR_INFO.REASON + m.rd p ERR_INFO.OFFSET
  | 0x02C =>
    if k = .dbg then 62
    else k.noTraffic.toNat * 2 ^ 31 + (if k.hasShadow then activity else 0)
  | _ => 0

/-- The word at an offset of a page; reserved bits and offsets read 0 (R5). -/
def Module.readWord (m : Module) (p off : Nat) : Nat :=
  match pageRow p with
  | some (r, i) => m.headerWord p r.kind i off + m.blockWord p r.kind i off
  | none => 0

end Sys2Proof.Machine
end

