-- ==== Sys2Proof/Machine/Access.lean ====
section
/-! DEFINITION. Register accesses (R4–R8, R12): the words of pages written and read by each requester, the actions that
writes start, and the accesses of the management port (R439–R442). -/

namespace Sys2Proof.Machine

/-! ## Who may write what (R439, R520; spec 16, DBG page) -/

/-- A requester may write the header fields of a page. -/
def Module.mayHeader (m : Module) (r : Requester) (p : Nat) : Bool :=
  if p = pgSaf then r == .mgt else if p = pgDbg then m.debugAllows r else !jdlBarred r p

/-- A requester may write a block field. -/
def Module.mayField (m : Module) (r : Requester) (p : Nat) (row : Row) : Bool :=
  if row.code = .rm then r == .mgt
  else if p = pgSaf then true
  else if p = pgDbg then m.debugAllows r || row.fld == DBG_CORE_SEL.CORE
  else !jdlBarred r p

/-- The fields of a write that are refused for their value take no effect (R12), and so do those that the chapter bars. -/
def Module.accepts (m : Module) (p : Nat) (f : Fld) (v : Nat) : Bool :=
  let within (lo hi : Nat) : Bool := decide (lo ≤ v) && decide (v ≤ hi)
  if p = pgMgt then f != MGT_REQ_TIMEOUT.MS || v != 0
  else if p = pgPwr then f != PWR_REF_WAIT.MS || within 100 60000
  else if p = pgSaf then f != SAF_THERM.WARN || within 15360 28160
  else if p = pgCal then (f != CAL_STARTUP.MAX_DTEMP && f != CAL_STARTUP.MAX_AGE) || v != 0
  else if p = pgStr then (f != STR_RETIRE.POLL_S || within 1 3600) && (f != STR_RETIRE.PCT || v != 0)
  else if p = pgDbg then (f != DBG_WP_CFG.LOG2_LEN 0 && f != DBG_WP_CFG.LOG2_LEN 1) || decide (v < 20)
  else if p = pgSys then
    !((List.range 4).any fun w => f == SYS_DRV_FEATURES.FEATURES w) || m.rd pgSys SYS_FEATURES_CTRL.FEATURES_OK == 0
  else true

/-! ## The plain fields of a word -/

/-- Write one block field by its access code (R4). -/
def Module.fieldWrite (m : Module) (r : Requester) (p : Nat) (row : Row) (b word : Nat) : Module :=
  let v := word / 2 ^ row.fld.lo % 2 ^ row.fld.width
  if row.own || !m.mayField r p row || !m.accepts p row.fld v then m
  else
    match row.code with
    | .rw | .rm => m.wr p row.fld v b
    | .rws => { m.wsh p row.fld v b with reg.wrote := m.reg.wrote.set 0 (p * 4096 + row.fld.off) 1 }
    | .w1c => m.wr p row.fld (m.rd p row.fld b &&& (v ^^^ (2 ^ row.fld.width - 1))) b
    | .ro | .w1s | .wo => m

/-- USER taps are not written while the page shows the factory table (spec 03). -/
def Module.shut (m : Module) (p : Nat) (k : Kind) (off : Nat) : Bool :=
  k == .cnv && off == CNV_EQ_DATA.COEFF.off && m.rd p CNV_EQ_SEL.VIEW_FACTORY == 1

/-- Write the plain block fields at an offset, in the selected bank. -/
def Module.wordWrite (m : Module) (r : Requester) (p : Nat) (k : Kind) (off word : Nat) : Module :=
  match m.bankOf p k off with
  | none => m
  | some b =>
    if m.shut p k off then m
    else (k.rows.filter fun row => row.fld.off == off).foldl (fun m row => m.fieldWrite r p row b word) m

/-- The activity of a page without traffic is ignored, but the field is written (spec 01). -/
def Module.headerWrite (m : Module) (r : Requester) (p : Nat) (k : Kind) (off word : Nat) : Module :=
  match off with
  | 0x008 => if m.mayHeader r p then (m.wr p CTRL.LIVE_VIEW (word / 2 % 2)).setEnable p (bit word 0) else m
  | 0x018 => if mayIrq r p then m.setIrq p (m.reg.irqStat.get 0 p) (irqMask (word % 2 ^ 32)) else m
  | 0x020 => if m.mayHeader r p && !bit word 0 then m.wr p COMMIT.GROUP (word / 256) else m
  | 0x02C =>
    if k.hasShadow && m.mayHeader r p then
      { m.wsh p ACTIVITY_ID.ACTIVITY word with reg.wrote := m.reg.wrote.set 0 (p * 4096 + 0x02C) 1 }
    else m
  | _ => m

/-- The selection of a table advances after an access with AUTO_INC. -/
def Module.autoInc (m : Module) (p : Nat) (k : Kind) (off : Nat) (read : Bool) : Module :=
  let next (inc sel : Fld) : Module := if m.rd p inc = 1 then m.step p sel else m
  match k with
  | .cnv => if off = CNV_EQ_DATA.COEFF.off then next CNV_EQ_SEL.AUTO_INC CNV_EQ_SEL.TAP else m
  | .wte => if off = WTE_WIN_DATA.COEFF.off then next WTE_WIN_SEL.AUTO_INC WTE_WIN_SEL.ENTRY else m
  | .trg => if off = TRG_MASK_DATA.LOWER.off then next TRG_MASK_SEL.AUTO_INC TRG_MASK_SEL.ENTRY else m
  | .layer => if off = LAYER_PAL_DATA.RGBA.off then next LAYER_PAL_SEL.AUTO_INC LAYER_PAL_SEL.ENTRY else m
  | .disp => if off = DISP_EDID_DATA.DATA.off ∧ read then next DISP_EDID_SEL.AUTO_INC DISP_EDID_SEL.BYTE else m
  | _ => m

/-! ## The actions that a write starts -/

/-- An action bit of a word. -/
def State.when (s : State) (v : Word) (f : Fld) (act : State → State) : State := if bit v.toNat f.lo then act s else s

/-- The actions of CTRL but SOFT_RESET. -/
def State.ctrlActions (s : State) (r : Requester) (p : Nat) (k : Kind) (i : Nat) (v : Word) : State :=
  let clr : Fld := if k = .core then CORE_CTRL.CNT_CLR else CNV_CTRL.CNT_CLR
  let s := if k.hasCntClr then s.when v clr fun s => s.takeCntClr p else s
  match k with
  | .bud => s.when v BUD_CTRL.PEAK_CLR fun s => s.takePeakClr
  | .den => s.when v DEN_CTRL.CLEAR fun s => s.takeDenClear (Fin.ofNat 8 i)
  | .saf =>
    (s.when v SAF_CTRL.SAFE_RELEASE fun s => s.takeSafeRelease r).when v SAF_CTRL.THERMAL_RESTART fun s => s.takeThermalRestart r
  | .core =>
    let c : CoreNo := Fin.ofNat 20 i
    ((s.when v CORE_CTRL.HALT fun s => s.takeHalt c).when v CORE_CTRL.RESUME fun s => s.takeResume c).when v
      CORE_CTRL.RESTART fun s => s.takeRestart c
  | _ => s

/-- The actions of the common header. -/
def State.headerActions (s : State) (r : Requester) (p : Nat) (k : Kind) (i off : Nat) (v : Word) : State :=
  match off with
  | 0x008 => s.ctrlActions r p k i v
  | 0x014 => s.takeIrqStatusClear r p v
  | 0x01C => s.takeIrqForce r p v
  | 0x020 => s.when v COMMIT.GO fun s => s.takeCommitGo r p (Fin.ofNat 16 (v.toNat / 256))
  | _ => s

/-- The management mailbox and substitution registers (R443–R446). A write of MGT_SUBST without GO only stores its fields. -/
def State.mgtActions (s : State) (r : Requester) (off : Nat) (v : Word) : State :=
  let n := v.toNat
  if off = MGT_REQ_GO.GO.off then s.when v MGT_REQ_GO.GO fun s => s.takeMgtReqGo r
  else if off = MGT_RESP.STATE.off then s.takeMgtResp r (Fin.ofNat 8 n) (BitVec.ofNat 8 (n / 256))
  else if off = MGT_ALERT.CAUSE.off then s.takeMgtAlertClear r (BitVec.ofNat 5 n)
  else if off = MGT_SUBST.KIND.off then
    if bit n MGT_SUBST.GO.lo then s.takeMgtSubstGo r (BitVec.ofNat 8 (n / 2 ^ 24)) (BitVec.ofNat 16 n)
    else if r = .mgt then s.onM fun m => (m.wr pgMgt MGT_SUBST.KIND (n / 2 ^ 24)).wr pgMgt MGT_SUBST.LOGICAL n
    else s
  else if off = MGT_PORT.LATE.off ∧ r = .mgt then s.when v MGT_PORT.LATE fun s => s.onM fun m => m.wr pgMgt MGT_PORT.LATE 0
  else s

/-- The volume commands (R380, R381, R393, R372). What the drives answer to a MOUNT begun so comes with the row MOUNT. -/
def State.volumeCommand (s : State) (v : Word) : State :=
  let n := v.toNat
  if n % 8 = 1 then s.takeMount none
  else if n % 8 = 2 then s.takeUnmount
  else if n % 8 = 3 then s.takeFormat
  else if n % 8 = 4 then s.takeAdopt (Fin.ofNat 16 (n / 65536))
  else s

/-- The actions of the block registers of the SYS, FLT, SAF, PWR, DBG, EVT and TRG pages. -/
def State.systemActions (s : State) (r : Requester) (k : Kind) (i off : Nat) (v : Word) : State :=
  let n := v.toNat
  match k with
  | .sys =>
    if off = SYS_FEATURES_CTRL.FEATURES_OK.off then s.when v SYS_FEATURES_CTRL.FEATURES_OK fun s => s.takeFeaturesOk
    else if off = SYS_GROUP_COMMIT.GROUP.off then s.takeSysGroupCommit (Fin.ofNat 16 n)
    else if off = SYS_IRQ_ROUTE.VECTOR.off then s.takeSysIrqRoute (BitVec.ofNat 9 n)
    else if off = SYS_VEC_EOI.VECTOR.off then s.takeSysVecEoi (BitVec.ofNat 9 n)
    else s
  | .flt =>
    if off = FLT_SRC_THRESH.N.off then s.takeFltSrcConfig r true v
    else if off = FLT_SRC_WINDOW.MS.off then s.takeFltSrcConfig r false v
    else if off = FLT_REC_CLR.CLR.off then s.when v FLT_REC_CLR.CLR fun s => s.takeFltRecClr
    else if off = FLT_CLR_ALL.CLR.off then s.when v FLT_CLR_ALL.CLR fun s => s.takeFltClrAll
    else if off = FLT_LOG_POP.POP.off then s.when v FLT_LOG_POP.POP fun s => s.takeFltLogPop
    else if off = FLT_LEG_STATUS.FATAL.off then s.takeFltLegStatusClear (BitVec.ofNat 3 n)
    else s
  | .saf =>
    if off = SAF_WALL.SECONDS.off then s.takeSafWall r v
    else if off = SAF_THERM.WARN.off then s.onM Module.thermPin
    else if off = SAF_INJ_COUNT.COUNT.off then s.takeSafInjCount r (BitVec.ofNat 16 n)
    else s
  | .mgt => s.mgtActions r off v
  | .pwr =>
    if off = PWR_OFF.REQ.off then (s.when v PWR_OFF.REQ fun s => s.takePwrOffReq r).when v PWR_OFF.WAKE fun s => s.takePwrOffWake r
    else if off = PWR_SNAP.SNAP.off then s.when v PWR_SNAP.SNAP fun s => s.takePwrSnap r
    else s
  | .dbg =>
    if off = DBG_CORE_CTRL.HALT.off then
      ((s.when v DBG_CORE_CTRL.HALT fun s => s.takeDbgHalt r).when v DBG_CORE_CTRL.RESUME fun s => s.takeDbgResume r).when v
        DBG_CORE_CTRL.STEP fun s => s.takeDbgStep r
    else if off = DBG_XH_RESUME.GROUP.off then s.takeDbgXhResume r (Fin.ofNat 4 n)
    else s
  | .evt =>
    if off = EVT_IU_SWGATE.OPEN.off then
      (s.when v EVT_IU_SWGATE.OPEN fun s => s.takeSwgateOpen).when v EVT_IU_SWGATE.CLOSE fun s => s.takeSwgateClose
    else if off = EVT_CD_CTRL.REBUILD.off then s.when v EVT_CD_CTRL.REBUILD fun s => s.takeCdRebuild
    else if off = EVT_RES_POP.POP.off then s.when v EVT_RES_POP.POP fun s => s.takeEvtResPop
    else s
  | .trg =>
    if off = TRG_SWTRIG.COND.off then s.takeTrgSwtrig (Fin.ofNat 5 i) (BitVec.ofNat 16 n)
    else if off = TRG_LOG_POP.POP.off then s.when v TRG_LOG_POP.POP fun s => s.takeTrgLogPop (Fin.ofNat 5 i)
    else s
  | _ => s

/-- The actions of the block registers of the other pages. -/
def State.unitActions (s : State) (r : Requester) (k : Kind) (i off : Nat) (v : Word) : State :=
  let n := v.toNat
  match k with
  | .cal => if off = CAL_FG_GO.INPUTS.off then s.takeCalFgGo (BitVec.ofNat 4 n) else s
  | .acq => if off = ACQ_CAP_READ.SEGMENT.off then s.takeAcqCapReadWrite (BitVec.ofNat 20 n) else s
  | .cmp =>
    if off = CMP_SW_SUBMIT.GO.off then s.when v CMP_SW_SUBMIT.GO fun s => s.takeCmpSwSubmit (Fin.ofNat 32 (n / 65536))
    else if off = CMP_RES_POP.POP.off then s.when v CMP_RES_POP.POP fun s => s.takeCmpResPop
    else s
  | .dcm =>
    if off = DCM_SW_SUBMIT.GO.off then s.when v DCM_SW_SUBMIT.GO fun s => s.takeDcmSwSubmit (Fin.ofNat 8 (n / 65536))
    else if off = DCM_RES_POP.POP.off then s.when v DCM_RES_POP.POP fun s => s.takeDcmResPop
    else s
  | .str => if off = STR_VOL_CMD.CMD.off then s.volumeCommand v else s
  | .cnv => if off = CNV_INJECT.GO.off then s.when v CNV_INJECT.GO fun s => s.takeInjectGo (Fin.ofNat 4 i) else s
  | .nvp => if off = NVP_RETIRE.REQ.off then s.when v NVP_RETIRE.REQ fun s => s.takeNvpRetire r (Fin.ofNat 8 i) else s
  | .core =>
    let c : CoreNo := Fin.ofNat 20 i
    if off = CORE_MBOX_IN.DATA.off then s.takeCoreMboxIn c v
    else if off = CORE_MEM_DATA.DATA.off then s.takeCoreMemData r c (some v)
    else if off = CORE_BOOT_CTRL.GO.off then s.when v CORE_BOOT_CTRL.GO fun s => s.takeBootGo c
    else s
  | _ => s.systemActions r k i off v

/-! ## Writes (R4, R8) -/

/-- A 64-bit register of code RW or RWS whose low word stands at the offset. -/
def Kind.wide (k : Kind) (off : Nat) : Bool :=
  k.isLow off && k.rows.any fun row => row.fld.off == off && (row.code == .rw || row.code == .rws)

/-- The high word that a write of the low word applies with it: the held one of this register, or zero (R8). -/
def Module.heldFor (m : Module) (r : Requester) (reg : Nat) : Nat :=
  match m.reg.held.get none (requesterKey r) with
  | some (o, h) => if o = reg then h else 0
  | none => 0

def Module.setHeld (m : Module) (r : Requester) (v : Option (Nat × Nat)) : Module :=
  { m with reg.held := m.reg.held.set none (requesterKey r) v }

/-- The low word of a 64-bit register is written: both words apply together, and a word held for it is used up. -/
def Module.writeBoth (m : Module) (r : Requester) (p : Nat) (k : Kind) (off word : Nat) : Module :=
  let h := m.heldFor r (p * 4096 + off)
  let m := match m.reg.held.get none (requesterKey r) with
    | some (o, _) => if o = p * 4096 + off then m.setHeld r none else m
    | none => m
  (m.wordWrite r p k off word).wordWrite r p k (off + 4) h

/-- A word written at an aligned offset of a claimed page. A write of SOFT_RESET does nothing else (R547). -/
def State.writeWord (s : State) (r : Requester) (p off : Nat) (v : Word) : State :=
  match pageRow p with
  | none => s
  | some (row, i) =>
    let k := row.kind
    if off = 0x008 ∧ bit v.toNat CTRL.SOFT_RESET.lo = true then s.takeSoftReset r p
    else if k.wide off then s.onM fun m => m.writeBoth r p k off v.toNat
    else if 4 ≤ off ∧ k.wide (off - 4) = true then s.onM fun m => m.setHeld r (some (p * 4096 + off - 4, v.toNat))
    else
      let s := s.onM fun m => ((m.headerWrite r p k off v.toNat).wordWrite r p k off v.toNat).autoInc p k off false
      (s.headerActions r p k i off v).unitActions r k i off v

/-- A write of any width and alignment (R6): only an aligned write of four bytes has an effect. -/
def State.takeWrite (s : State) (r : Requester) (off bytes : Nat) (v : Word) : State :=
  if bytes = 4 ∧ off % 4 = 0 then s.writeWord r (off / 4096) (off % 4096) v else s

def State.write (s : State) (c : Instr) (r : Requester) (off bytes : Nat) (v : Word) : State :=
  s.via c r (off / 4096) fun s => s.takeWrite r off bytes v

/-- REGISTER_WRITE (R4–R6, R8, R12). -/
def execRegisterWrite (r : Requester) (off bytes : Nat) (v : Word) (s : State) : Host.Outcome State Fault Refusal :=
  .next (s.write (.registerWrite r off bytes v) r off bytes v)

/-- REG64_HIGH_WRITE (R8). -/
def execReg64HighWrite (r : Requester) (off : Nat) (v : Word) (s : State) : Host.Outcome State Fault Refusal :=
  .next (s.write (.reg64HighWrite r off v) r off 4 v)

/-- REG64_LOW_WRITE (R8). -/
def execReg64LowWrite (r : Requester) (off : Nat) (v : Word) (s : State) : Host.Outcome State Fault Refusal :=
  .next (s.write (.reg64LowWrite r off v) r off 4 v)

/-! ## Reads (R4, R7) -/

def Module.setLatch (m : Module) (r : Requester) (v : Option (Nat × Nat)) : Module :=
  { m with reg.latch := m.reg.latch.set none (requesterKey r) v }

/-- A word read: its value, and what the read does to the latch, the selection or the memory window. -/
def State.readReg (s : State) (r : Requester) (p off : Nat) : Nat × State :=
  match pageRow p with
  | none => (0, s)
  | some (row, i) =>
    let k := row.kind
    let v := s.m.readWord p off
    if k.isLow off then (v, s.onM fun m => m.setLatch r (some (p * 4096 + off, m.readWord p (off + 4))))
    else if 4 ≤ off ∧ k.isLow (off - 4) = true then
      match s.m.reg.latch.get none (requesterKey r) with
      | some (o, h) => if o = p * 4096 + off - 4 then (h, s.onM fun m => m.setLatch r none) else (v, s)
      | none => (v, s)
    else if k = .core ∧ off = CORE_MEM_DATA.DATA.off then (s.m.windowWord i, s.takeCoreMemData r (Fin.ofNat 20 i) none)
    else (v, s.onM fun m => m.autoInc p k off true)

/-- A read of any width and alignment: zero unless it is an aligned read of four bytes (R6). -/
def State.takeRead (s : State) (r : Requester) (off bytes : Nat) : State :=
  if bytes = 4 ∧ off % 4 = 0 then
    let (v, s) := s.readReg r (off / 4096) (off % 4096)
    s.onM fun m => m.setAnswer r v
  else s.onM fun m => m.setAnswer r 0

/-- A read by a requester; outside the map it returns zero (R475). -/
def State.read (s : State) (c : Instr) (r : Requester) (off bytes : Nat) : State :=
  let s := if s.m.reaches r (off / 4096) && !s.m.claimed (off / 4096) then s.onM fun m => m.setAnswer r 0 else s
  s.via c r (off / 4096) (fun s => s.takeRead r off bytes) false

/-- REG64_LOW_READ (R7): the high word is latched for the requester. -/
def execReg64LowRead (r : Requester) (a : BarRead) (s : State) : Host.Outcome State Fault Refusal :=
  .next (s.read (.reg64LowRead r a) r a.off a.bytes)

/-- REG64_HIGH_READ (R7): the latched word of this register, used up, or else the live one. -/
def execReg64HighRead (r : Requester) (a : BarRead) (s : State) : Host.Outcome State Fault Refusal :=
  .next (s.read (.reg64HighRead r a) r a.off a.bytes)

/-! ## The management port (R441, R442) -/

/-- The port answers: the safety partition is up. -/
def Module.portUp (m : Module) : Bool := decide (2 ≤ m.rd pgPwr PWR_START.STEP)

/-- MGT_REGISTER_WRITE: a frame whose check fails is discarded and counted. -/
def execMgtRegisterWrite (off : Nat) (v : Word) (ok : FrameOk) (s : State) : Host.Outcome State Fault Refusal :=
  .next (if !s.m.portUp then s else if ok then s.write (.mgtRegisterWrite off v true) .mgt off 4 v else s.onM fun m => m.pecError)

/-- One byte through CRC-8 with polynomial 0x07, most significant bit first (R441). -/
def crc8Bits : Nat → Nat → Nat
  | 0, c => c
  | k + 1, c => crc8Bits k (if 128 ≤ c then (c * 2 % 256) ^^^ 0x07 else c * 2)

/-- The CRC-8 of bytes, from zero and with nothing inverted (log entry 154). -/
def crc8 (l : List Byte) : Byte := BitVec.ofNat 8 (l.foldl (fun c b => crc8Bits 8 (c ^^^ b.toNat)) 0)

/-- What the port returns to a read: the data and a check byte, complemented where the request was discarded (R441, R442). On MSPI
it is the CRC-8 of the data; what a PEC covers the spec does not say: a free value (log entry 3). -/
def Module.mgtReply (m : Module) (data : List Byte) (good : Bool) : Module :=
  if Config.msel = true then
    { m with hostif.reply := data ++ [if good then crc8 data else ~~~(crc8 data)] }
  else
    let (k, m) := m.draw 1
    { m with hostif.reply := data ++ [BitVec.ofNat 8 (Config.free k)] }

/-- MGT_REGISTER_READ: a discarded read is not performed and returns ones with a wrong check byte; one that has not completed when
its data is due returns ones, sets LATE and keeps its side effects. That is a read whose message activity 63's budget holds, one of a
page without power, or, on MSPI alone, one of another island that is late for the clock. -/
def execMgtRegisterRead (off : Nat) (ok : FrameOk) (late : Bool) (s : State) : Host.Outcome State Fault Refusal :=
  .next (
    let ones := List.replicate 4 (0xFF : Byte)
    if !s.m.portUp then s
    else if !ok then s.onM fun m => m.pecError.mgtReply ones false
    else
      let held := !s.m.reaches .mgt (off / 4096)
        || (s.m.claimed (off / 4096) && !(s.m.chargeAccess .mgt (off / 4096)).1)
      let s := s.read (.mgtRegisterRead off true late) .mgt off 4
      if held || (late && Config.msel && pageIsland (off / 4096) != 57) then
        s.onM fun m => (((m.setAnswer .mgt 0xFFFFFFFF).wr pgMgt MGT_PORT.LATE 1).mgtReply ones true)
      else s.onM fun m => m.mgtReply (leBytes 4 (m.reg.answer.get 0 (requesterKey .mgt))) true)

/-! ## Accesses that have waited (R16, R19) -/

/-- What an access does once it passes. -/
def State.perform (s : State) : Instr → State
  | .registerWrite r off bytes v => s.takeWrite r off bytes v
  | .reg64HighWrite r off v => s.takeWrite r off 4 v
  | .reg64LowWrite r off v => s.takeWrite r off 4 v
  | .reg64LowRead r a => s.takeRead r a.off a.bytes
  | .reg64HighRead r a => s.takeRead r a.off a.bytes
  | .mgtRegisterWrite off v _ => s.takeWrite .mgt off 4 v
  | .mgtRegisterRead off _ _ => s.takeRead .mgt off 4
  | .commitGo r page group => s.takeCommitGo r page group
  | .sysGroupCommit _ group => s.takeSysGroupCommit group
  | .softReset r page => s.takeSoftReset r page
  | .irqForce r page bits => s.takeIrqForce r page bits
  | .irqStatusClear r page bits => s.takeIrqStatusClear r page bits
  | .cntClr _ page => s.takeCntClr page
  | .peakClr _ => s.takePeakClr
  | .cnvEnableWrite _ x enable => s.takeCnvEnableWrite x enable
  | .injectGo _ x => s.takeInjectGo x
  | .calFgGo _ inputs => s.takeCalFgGo inputs
  | .cdRebuild _ => s.takeCdRebuild
  | .swgateOpen _ => s.takeSwgateOpen
  | .swgateClose _ => s.takeSwgateClose
  | .evtResPop _ => s.takeEvtResPop
  | .trgSwtrig _ d conds => s.takeTrgSwtrig d conds
  | .trgLogPop _ d => s.takeTrgLogPop d
  | .acqCapReadWrite _ v => s.takeAcqCapReadWrite v
  | .denClear _ e => s.takeDenClear e
  | .cmpSwSubmit _ lane => s.takeCmpSwSubmit lane
  | .cmpResPop _ => s.takeCmpResPop
  | .dcmSwSubmit _ lane => s.takeDcmSwSubmit lane
  | .dcmResPop _ => s.takeDcmResPop
  | .nvpRetire r n => s.takeNvpRetire r n
  | .mount _ read => s.takeMount (some read)
  | .unmount _ => s.takeUnmount
  | .format _ => s.takeFormat
  | .adopt _ port => s.takeAdopt port
  | .coreMboxIn _ c v => s.takeCoreMboxIn c v
  | .restart _ c => s.takeRestart c
  | .resume _ c => s.takeResume c
  | .halt _ c => s.takeHalt c
  | .coreMemData r c v => s.takeCoreMemData r c v
  | .bootGo _ c => s.takeBootGo c
  | .fltSrcConfig r thresh v => s.takeFltSrcConfig r thresh v
  | .fltRecClr _ => s.takeFltRecClr
  | .fltClrAll _ => s.takeFltClrAll
  | .fltLogPop _ => s.takeFltLogPop
  | .fltLegStatusClear _ bits => s.takeFltLegStatusClear bits
  | .safeRelease r => s.takeSafeRelease r
  | .thermalRestart r => s.takeThermalRestart r
  | .mgtAlertClear r bits => s.takeMgtAlertClear r bits
  | .mgtReqGo r => s.takeMgtReqGo r
  | .mgtResp r state reason => s.takeMgtResp r state reason
  | .mgtSubstGo r kind logical => s.takeMgtSubstGo r kind logical
  | .safWall r v => s.takeSafWall r v
  | .safInjCount r n => s.takeSafInjCount r n
  | .featuresOk _ => s.takeFeaturesOk
  | .sysIrqRoute _ v => s.takeSysIrqRoute v
  | .sysVecEoi _ v => s.takeSysVecEoi v
  | .pwrOffReq r => s.takePwrOffReq r
  | .pwrOffWake r => s.takePwrOffWake r
  | .pwrSnap r => s.takePwrSnap r
  | .dbgHalt r => s.takeDbgHalt r
  | .dbgStep r => s.takeDbgStep r
  | .dbgResume r => s.takeDbgResume r
  | .dbgXhResume r g => s.takeDbgXhResume r g
  | _ => s

/-- The requester and the page of an access, and whether it writes. -/
def accessTarget : Instr → Option (Requester × Nat × Bool)
  | .registerWrite r off _ _ => some (r, off / 4096, true)
  | .reg64HighWrite r off _ => some (r, off / 4096, true)
  | .reg64LowWrite r off _ => some (r, off / 4096, true)
  | .reg64LowRead r a => some (r, a.off / 4096, false)
  | .reg64HighRead r a => some (r, a.off / 4096, false)
  | .commitGo r page _ => some (r, page, true)
  | .sysGroupCommit r _ => some (r, pgSys, true)
  | .softReset r page => some (r, page, true)
  | .irqForce r page _ => some (r, page, true)
  | .irqStatusClear r page _ => some (r, page, true)
  | .cntClr r page => some (r, page, true)
  | .peakClr r => some (r, pgBud, true)
  | .cnvEnableWrite r x _ => some (r, pgCnv x, true)
  | .injectGo r x => some (r, pgCnv x, true)
  | .calFgGo r _ => some (r, pgCal, true)
  | .cdRebuild r => some (r, pgEvt, true)
  | .swgateOpen r => some (r, pgEvt, true)
  | .swgateClose r => some (r, pgEvt, true)
  | .evtResPop r => some (r, pgEvt, true)
  | .trgSwtrig r d _ => some (r, pgTrg d, true)
  | .trgLogPop r d => some (r, pgTrg d, true)
  | .acqCapReadWrite r _ => some (r, pgAcq, true)
  | .denClear r e => some (r, pgDen e, true)
  | .cmpSwSubmit r _ => some (r, pgCmp, true)
  | .cmpResPop r => some (r, pgCmp, true)
  | .dcmSwSubmit r _ => some (r, pgDcm, true)
  | .dcmResPop r => some (r, pgDcm, true)
  | .nvpRetire r n => some (r, pgNvp n, true)
  | .mount r _ => some (r, pgStr, true)
  | .unmount r => some (r, pgStr, true)
  | .format r => some (r, pgStr, true)
  | .adopt r _ => some (r, pgStr, true)
  | .coreMboxIn r c _ => some (r, pgCore c, true)
  | .restart r c => some (r, pgCore c, true)
  | .resume r c => some (r, pgCore c, true)
  | .halt r c => some (r, pgCore c, true)
  | .coreMemData r c v => some (r, pgCore c, v.isSome)
  | .bootGo r c => some (r, pgCore c, true)
  | .fltSrcConfig r _ _ => some (r, pgFlt, true)
  | .fltRecClr r => some (r, pgFlt, true)
  | .fltClrAll r => some (r, pgFlt, true)
  | .fltLogPop r => some (r, pgFlt, true)
  | .fltLegStatusClear r _ => some (r, pgFlt, true)
  | .safeRelease r => some (r, pgSaf, true)
  | .thermalRestart r => some (r, pgSaf, true)
  | .mgtAlertClear r _ => some (r, pgMgt, true)
  | .mgtReqGo r => some (r, pgMgt, true)
  | .mgtResp r _ _ => some (r, pgMgt, true)
  | .mgtSubstGo r _ _ => some (r, pgMgt, true)
  | .safWall r _ => some (r, pgSaf, true)
  | .safInjCount r _ => some (r, pgSaf, true)
  | .featuresOk r => some (r, pgSys, true)
  | .sysIrqRoute r _ => some (r, pgSys, true)
  | .sysVecEoi r _ => some (r, pgSys, true)
  | .pwrOffReq r => some (r, pgPwr, true)
  | .pwrOffWake r => some (r, pgPwr, true)
  | .pwrSnap r => some (r, pgPwr, true)
  | .dbgHalt r => some (r, pgDbg, true)
  | .dbgStep r => some (r, pgDbg, true)
  | .dbgResume r => some (r, pgDbg, true)
  | .dbgXhResume r _ => some (r, pgDbg, true)
  | _ => none

/-- The BAR0 accesses that waited at island 36 are issued in order, each as soon as R19 lets it. -/
def State.issueWaiting : List Instr → State → State
  | [], s => s
  | c :: l, s =>
    match accessTarget c with
    | some (r, p, w) =>
      if s.m.hostWaits r p then s.onM fun m => { m with hostif.waiting := c :: l }
      else State.issueWaiting l (s.via c r p (fun s => s.perform c) w)
    | none => State.issueWaiting l s

def State.issueHost (s : State) : State :=
  State.issueWaiting s.m.hostif.waiting (s.onM fun m => { m with hostif.waiting := [] })

end Sys2Proof.Machine
end

