-- ==== Sys2Proof/Machine/Jdl.lean ====
section
/-! DEFINITION. The TAP and the JTAG debug link (R517–R521): a request is held from Update-DR until it completes, is
refused, or times out. -/

namespace Sys2Proof.Machine

/-- Test-Logic-Reset selects IDCODE and changes nothing else (R517). -/
def execTestLogicReset (s : State) : Host.Outcome State Fault Refusal :=
  .next (s.onM fun m => { m with jdl.ir := 1 })

/-- UPDATE_IR (R517): IDCODE, JDL_ACCESS, and BYPASS for every other code. -/
def execUpdateIr (code : Byte) (s : State) : Host.Outcome State Fault Refusal :=
  .next (s.onM fun m => { m with jdl.ir := if code = 1 then 1 else if code = 2 then 2 else 255 })

/-- A request is issued, or dropped while one is outstanding (R518). -/
def Module.jdlIssue (m : Module) (q : JdlReq) : Module :=
  if m.jdl.ir ≠ 2 then m
  else if m.jdl.req.isSome then m.bump pgDbg DBG_JDL_STATS.DROPPED
  else { m with jdl.req := some q, jdl.issued := m.clk.ticks, jdl.lost := false }

/-- JDL_NOP (R518): nothing is issued; a NOP that meets an outstanding request is dropped and counted like any request. -/
def execJdlNop (s : State) : Host.Outcome State Fault Refusal :=
  .next (s.onM fun m => if m.jdl.ir = 2 ∧ m.jdl.req.isSome then m.bump pgDbg DBG_JDL_STATS.DROPPED else m)

/-- JDL_READ (R518). -/
def execJdlRead (space : Fin 16) (addr : BitVec 40) (s : State) : Host.Outcome State Fault Refusal :=
  .next (s.onM fun m => m.jdlIssue ⟨false, space, addr.toNat, 0⟩)

/-- JDL_WRITE (R518). -/
def execJdlWrite (space : Fin 16) (addr : BitVec 40) (data : Word) (s : State) : Host.Outcome State Fault Refusal :=
  .next (s.onM fun m => m.jdlIssue ⟨true, space, addr.toNat, data.toNat⟩)

/-- What Capture-DR loads (R518). -/
def Jdl.captured (j : Jdl) : Nat :=
  j.data % 2 ^ 32 + j.result % 4 * 2 ^ 32 + flag j.req.isSome 34 + flag j.write 35

/-- JDL_CAPTURE (R518). -/
def execJdlCapture (s : State) : Host.Outcome State Fault Refusal :=
  .next (s.onM fun m => if m.jdl.ir = 2 then { m with jdl.capture := m.jdl.captured } else m)

/-! ## Spaces (R519) -/

/-- The request in flight completes with a RESULT; a READ leaves its data, which is free where it returned none (log entry 47). -/
def Module.jdlEnd (m : Module) (q : JdlReq) (result : Nat) (data : Option Nat) : Module :=
  let m := if result = 1 then m.bump pgDbg DBG_JDL_STATS.REFUSED else m
  let (k, m) := if data.isNone && !q.write then m.draw 1 else (0, m)
  let data := data.getD (Config.free k)
  { m with
    jdl.req := none, jdl.lost := false, jdl.result := result, jdl.write := q.write
    jdl.data := if q.write then m.jdl.data else data % 2 ^ 32 }

/-- 100 µs have passed since the request was issued. -/
def Module.jdlExpired (m : Module) : Bool := decide (m.jdl.issued + 200000 ≤ m.clk.ticks)

/-- The ADDR of a request lies in the range of its space, is aligned, and the space's condition on the core holds. -/
def Module.jdlInRange (m : Module) (q : JdlReq) : Bool :=
  let c := q.addr / 2 ^ 32
  let low := q.addr % 2 ^ 32
  let core := decide (c < 20) && (m.memOpen c || m.coreState c == coreDebug)
  match q.space with
  | 0 => decide (q.addr < 2 ^ 26) && q.addr % 4 == 0
  | 1 => decide (q.addr < 4 * 25769803776) && q.addr % 4 == 0
  | 2 => core && decide (low < 2 ^ 18) && low % 4 == 0
  | 3 => core && decide (low < 2 ^ 25) && low % 4 == 0
  | 4 => core && decide (low < 512) && decide (low % 256 < 53)
  | 5 => core && decide (low < 512) && decide (low % 256 < 12)
  | _ => false

/-- A write through the link that R520 refuses: a word with an RM field, or any field of island 57 but the selection fields
of SAF. -/
def jdlRefuses (p off : Nat) : Bool :=
  match pageRow p with
  | none => false
  | some (row, _) =>
    let fields := row.kind.rows.filter fun x => x.fld.off == off
    fields.any (fun x => x.code == .rm)
      || (pageIsland p == 57 && (decide (off < 0x040) || !fields.all fun x => p == pgSaf && x.code == .rw))

/-- What a request costs (R521): none for a register access, which is charged on its way. -/
def Module.jdlCosts (m : Module) (q : JdlReq) : List (Nat × Nat) :=
  if q.space = 1 then
    let st := q.addr / 25769803776
    [(36 + st, if q.write then 2 else 1), (st, 1)]
  else [(4 + m.coreIsl (q.addr / 2 ^ 32), 1)]

/-- A register access (SPACE 0). -/
def State.jdlPage (s : State) (q : JdlReq) : State :=
  let p := q.addr / 4096
  if q.write then
    let refused := s.m.claimed p && jdlRefuses p (q.addr % 4096)
    let v := BitVec.ofNat 32 q.data
    let s := if refused && jdlBarred .jdl p then s else s.write (.registerWrite .jdl q.addr 4 v) .jdl q.addr 4 v
    s.onM fun m => m.jdlEnd q (if refused then 1 else 0) none
  else (s.read (.reg64LowRead .jdl ⟨q.addr, 4⟩) .jdl q.addr 4).onM fun m => m.jdlEnd q 0 (some (m.reg.answer.get 0 (requesterKey .jdl)))

/-- Four bytes of HBM (SPACE 1). -/
def State.jdlHbm (s : State) (q : JdlReq) : State :=
  if q.write then
    let h := (List.range 4).foldl (fun (h : Hbm) i => h.put (q.addr + i) (BitVec.ofNat 8 (q.data / 256 ^ i))) s.hbm
    ({ s with hbm := h } : State).onM fun m => m.jdlEnd q 0 none
  else
    let (bad, m) := s.m.unitRead (q.addr / 25769803776) (q.addr % 25769803776) .clean
    let v := leNat ((List.range 4).map fun i => s.hbm.byte (q.addr + i))
    { s with m := m.jdlEnd q (if bad || s.hbm.poison.get 0 (q.addr / 32) == 1 then 2 else 0) (some v) }

/-- A core register as the link reads it: BANK of SR shows the bank asked for. -/
def CoreSt.jdlReg (k : CoreSt) (c : Nat) (bank : Bool) (n : Nat) : Nat :=
  if n = 48 then setBits (k.regIn bank 48) srBank (if bank then srBank else 0)
  else if n = 52 then k.pc
  else if n = 50 ∧ isCluster c then 0
  else k.regIn bank n

/-- A core register as the link writes it, within what R409 and R410 give the register. -/
def CoreSt.jdlSetReg (k : CoreSt) (c : Nat) (bank : Bool) (n v : Nat) : CoreSt :=
  if n = 48 then k.setIn bank 48 (setBits (k.regIn bank 48) (srMask c) v)
  else if n = 50 then (if isCluster c then k else k.setIn bank 50 (v % 32))
  else if n = 51 then k.setIn bank 51 (v / 128 * 128)
  else if n = 52 then { k with pc := v, after := none }
  else k.setIn bank n v

/-- A part of an accumulator. -/
def accPart (a part : Nat) : Nat :=
  if part = 0 then a % 2 ^ 32 else if part = 1 then a / 2 ^ 32 % 2 ^ 32 else ofSigned 32 (toSigned 16 (a / 2 ^ 64))

/-- An accumulator with a part replaced. -/
def setAccPart (a part v : Nat) : Nat :=
  if part = 0 then a / 2 ^ 32 * 2 ^ 32 + v
  else if part = 1 then a / 2 ^ 64 * 2 ^ 64 + v * 2 ^ 32 + a % 2 ^ 32
  else v % 65536 * 2 ^ 64 + a % 2 ^ 64

/-- The link's own latched or held high word, where it belongs to an I/O register of core c: those stand behind BAR0 in the
numbering of 64-bit registers (R7, R8). -/
def ioLatch (c : Nat) : Option (Nat × Nat) → Store Nat
  | some (o, h) => if o / 4096 = 2 ^ 14 + c then [(o % 4096, h)] else []
  | none => []

/-- What the link holds after an access of core c's I/O registers that found `given` and left `now`. -/
def ioLatched (c : Nat) (old : Option (Nat × Nat)) (given now : Store Nat) : Option (Nat × Nat) :=
  if now = given then old
  else match now with
    | [(o, h)] => some (2 ^ 26 + c * 4096 + o, h)
    | _ => none

/-- An access of core c's data space by the link: with the latch and the held word of the link, not those of the core. -/
def Module.asLink {α : Type} (m : Module) (c : Nat) (f : Module → α × Module) : α × Module :=
  let k := m.cr c
  let latch := m.reg.latch.get none (requesterKey .jdl)
  let held := m.reg.held.get none (requesterKey .jdl)
  let (x, m) := f (m.setCr c { k with high := ioLatch c latch, held := ioLatch c held })
  let n := m.cr c
  (x, ((m.setCr c { n with high := k.high, held := k.held }).setLatch .jdl (ioLatched c latch (ioLatch c latch) n.high)).setHeld
    .jdl (ioLatched c held (ioLatch c held) n.held))

/-- A request to a core (SPACE 2–5). -/
def Module.jdlCore (m : Module) (q : JdlReq) : Module :=
  let c := q.addr / 2 ^ 32
  let a := q.addr % 2 ^ 32
  let k := m.cr c
  let bank := bit a 8
  match q.space with
  | 2 =>
    if q.write then (m.setCr c { k with imem := k.imem.set 0 a q.data }).jdlEnd q 0 none else m.jdlEnd q 0 (some (k.imem.get 0 a))
  | 3 =>
    if q.write then
      (if dataOk c a 4 then (m.asLink c fun m => ((), m.dataStore c a 4 q.data)).2.jdlEnd q 0 none else m.jdlEnd q 2 none)
    else
      match m.asLink c fun m => m.dataLoad c a 4 .clean with
      | (some v, m) => m.jdlEnd q 0 (some v)
      | (none, m) => m.jdlEnd q 2 none
  | 4 =>
    if q.write then (m.setCr c (k.jdlSetReg c bank (a % 256) q.data)).jdlEnd q 0 none
    else m.jdlEnd q 0 (some (k.jdlReg c bank (a % 256)))
  | _ =>
    let key := accKey bank (a % 4)
    let v := k.seen.get 0 key
    if q.write then
      let v := setAccPart v (a / 4 % 4) q.data
      (m.setCr c { k with acc := k.acc.set 0 key v, seen := k.seen.set 0 key v }).jdlEnd q 0 none
    else m.jdlEnd q 0 (some (accPart v (a / 4 % 4)))

/-- The island that a request goes to. -/
def Module.jdlIsland (m : Module) (q : JdlReq) : Nat :=
  if q.space = 0 then pageIsland (q.addr / 4096)
  else if q.space = 1 then 32 + q.addr / 25769803776
  else m.coreIsl (q.addr / 2 ^ 32)

/-- The request in flight reaches its target, once its charge has passed (R519, R521) and nothing of its pair is before it
(R16). One whose target is not powered, or that a joint has discarded (R23), stays in flight. -/
def State.jdlServe (s : State) (q : JdlReq) : State :=
  let dst := s.m.jdlIsland q
  if !s.m.jdlInRange q then s.onM fun m => m.jdlEnd q 1 none
  else if !s.m.railsUp || s.m.jdl.lost then s
  else if dst != 59 && s.m.pairBusy 59 dst then s
  else if dst != 59 && decide (0 < s.m.armed 2 dst) then s.onM fun m => { m.reportJoint dst false with jdl.lost := true }
  else if q.space = 0 then
    let p := q.addr / 4096
    if s.m.claimed p && !(s.m.chargeAccess .jdl p).1 then s.onM fun m => (m.chargeAccess .jdl p).2 else s.jdlPage q
  else
    match s.m.charge 62 (s.m.jdlCosts q) with
    | (false, m) => { s with m := m }
    | (true, m) => if q.space = 1 then ({ s with m := m } : State).jdlHbm q else { s with m := m.jdlCore q }

/-- JDL_COMPLETION (R519): within 100 µs of its issue the request in flight completes, unless it has to wait. -/
def execJdlCompletion (s : State) : Host.Outcome State Fault Refusal :=
  .next (
    match s.m.jdl.req with
    | some q => if s.m.jdlExpired then s else s.jdlServe q
    | none => s)

/-- JDL_TIMEOUT (R519): no completion has arrived within 100 µs. -/
def execJdlTimeout (s : State) : Host.Outcome State Fault Refusal :=
  .next (s.onM fun m =>
    match m.jdl.req with
    | some q => if m.jdlExpired then m.jdlEnd q 3 none else m
    | none => m)

end Sys2Proof.Machine
end

