-- ==== Sys2Proof/Machine/Mortar.lean ====
section
/-! DEFINITION. The mortar (R16–R23): the next message of a pair at its entry joint, checked, charged, and delivered. What
only enters a unit's store is taken as it is delivered; what a command of its own acts on waits, delivered, for it. -/

namespace Sys2Proof.Machine

/-- What a message costs: units on the ingress of its destination and on the resources it names beside (R37, R38); an HBM
request costs what it moves. -/
def Envelope.costs (e : Envelope) (m : Module) : List (Nat × Nat) :=
  match e.body with
  | .hbm (.hbmAccess q _ _) => hbmCosts q m
  | _ => (4 + e.dst, units e.bytes) :: e.extra.map fun r => (r, units e.bytes)

/-- The spectrum of which a message is a part: its input (4 + n for brick n), SEQUENCE and output (R175). -/
def Body.spectrumId : Body → Option (Nat × Nat × Bool)
  | .specPiece x q c => some (x, q, c)
  | .spectrum s => some (match s.brick with
    | some n => (4 + n, s.seq, false)
    | none => (s.input, s.seq, s.columns))
  | .coreSpectrum _ s => some (4 + s.brick.getD 0, s.seq, false)
  | _ => none

/-- The message that completes a spectrum. -/
def Body.completes : Body → Bool
  | .spectrum _ | .coreSpectrum _ _ => true
  | _ => false

/-- A message of a pair is taken from the mortar. -/
def Module.leave (m : Module) (src dst : Nat) : Module :=
  { m with
    net.transit := m.net.transit.eraseP fun e => e.src == src && e.dst == dst
    net.held := m.net.held.set 0 (src * 64 + dst) 0 }

/-- The consumer of a spectrum one of whose messages was lost discards it (R177): its last message ends nothing. -/
def spoil (src dst : Nat) (i : Nat × Nat × Bool) : List Envelope → List Envelope
  | [] => []
  | e :: l =>
    if e.src = src ∧ e.dst = dst ∧ e.body.completes = true ∧ e.body.spectrumId = some i then
      { e with body := .specPiece i.1 i.2.1 i.2.2 } :: l
    else e :: spoil src dst i l

/-- The rest of a spectrum is discarded with a message that did not fit (R177, R224). -/
def Module.dropRest (m : Module) (src : Nat) (i : Nat × Nat × Bool) : Module :=
  { m with net.transit := m.net.transit.filter fun e => !(e.src == src && e.body.spectrumId == some i) }

/-- A spectrum is lost as a whole, and counted once by its output. -/
def Module.spectrumLost (m : Module) (src : Nat) (b : Body) : Module :=
  match b.spectrumId with
  | some i =>
    let m := m.dropRest src i
    if i.1 < 4 then m.spectrumDropped i.1 i.2.2 else m.brickDropped (i.1 - 4) false
  | none => m

/-- What a real-time writer does besides counting bytes when a message is discarded (R41, R123, R177, R185, R224, R241,
R320). -/
def Module.dropped (m : Module) (e : Envelope) : Module :=
  match e.body with
  | .entryMark _ | .swapMark _ | .calPause _ => m.bump (pgCnv e.src) CNV_DROP_MSGS.DROPS
  | .samples g => (m.bump (pgCnv e.src) CNV_DROP_MSGS.DROPS).feedLost (e.dst - 4) g
  | .rawSamples g =>
    let d := e.dst - 24
    let m := (m.bump (pgCnv e.src) CNV_DROP_MSGS.DROPS).rawAtoms d g true
    m.setCrs d { m.crs d with marks := (m.crs d).marks ++ [.drop ⟨g.first, g.first + g.samples.length - 1⟩] }
  | .subband _ => m.subbandDropped (e.src - 4)
  | .iq g => m.brickDropped g.brick true
  | .coreIq _ g => m.brickDropped g.brick true
  | .notice n => m.noticeDropped n.input (e.dst - 24)
  | .rects r => m.reportDropped r.engine (e.dst - 24)
  | .spectrum s => if e.src = 29 then m.denForwardDropped s else m.spectrumLost e.src e.body
  | .specPiece _ _ _ => m.spectrumLost e.src e.body
  | .coreSpectrum _ _ => m.spectrumLost e.src e.body
  | _ => m

/-! ## The integrity check (R23, R464–R466) -/

/-- A message fails the check at the joint of its destination: it is discarded and reported. -/
def Module.discardMessage (m : Module) (e : Envelope) (corrupt : Bool) : Module :=
  let m := m.leave e.src e.dst
  let m := match e.body.spectrumId with
    | some i => if e.body.completes then m else { m with net.transit := spoil e.src e.dst i m.net.transit }
    | none => m
  let m := match e.body with
    | .payload p => m.payloadAccepted p.tag true
    | _ => m
  m.reportJoint e.dst corrupt

/-! ## Delivery -/

/-- What a unit does with a message as it is delivered; none where a command of its own takes it. -/
def State.deliver (s : State) (e : Envelope) : Option State :=
  match e.body with
  | .samples g => some (s.onM fun m => m.feedSamples (e.dst - 4) g)
  | .subband g => some (s.onM fun m => m.brickFeed (e.dst - 8) g)
  | .forward k => some (s.onM fun m => m.brickMark (e.dst - 8) (e.src - 4) k)
  | .subDone k n on accepted _ index => some (s.onM fun m => m.brickSubDone (e.src - 4) k n on accepted index)
  | .calPause i =>
    some (s.onM fun m =>
      if e.dst < 24 then m.forwardMark (e.dst - 4) (.pause i)
      else m.setCrs (e.dst - 24) { m.crs (e.dst - 24) with marks := (m.crs (e.dst - 24)).marks ++ [.pause i] })
  | .rawRequest on => some (s.onM fun m => m.setCv e.dst { m.cv e.dst with rawOn := on })
  | .substOrder kind unit synd => some (s.takeOrder e.dst kind unit synd)
  | .stopCourse d => some (s.onM fun m => m.stopCourseAt d (nextMultiple (m.tick + 64) 4096))
  | .spectrum sp => if e.dst = 28 ∨ e.dst = 29 then some (s.onM fun m => m.denDeliver e.src e.dst sp) else none
  | .lockDone en b => some (s.onM fun m => m.lockTaken en b)
  | .jobDone lane tag status => some (s.onM fun m => m.strJobDone lane tag status)
  | .djobDone _ tag result => some (s.onM fun m => m.strDjobDone tag result)
  | .frame f => some (s.onM fun m => m.portFrame (e.dst - 37) f)
  | .payload p => if 37 ≤ e.dst ∧ e.dst < 45 then some (s.onM fun m => m.portPayload (e.dst - 37) p) else none
  | .access _ _ c => some (s.perform c)
  | .hbm (.hbmAccess q _ ecc) => some (s.serveHbm q ecc)
  | .verdict p b => some (s.takeVerdict p b)
  | .calStep x k => some (s.onM fun m => m.wr pgCal CAL_FG_STATUS.STEP k x)
  | .readAdvance c v => some (s.readAdvances c v)
  | .driveRecord i r => some (s.onM fun m => { m with safety.drives := m.safety.drives.set none i (some r) })
  | .calRequest _ | .storeDone _ _ | .brickFailed _ _ _ | .specPiece _ _ _ | .bygone => some s
  | _ => none

/-- A message joins what has arrived and waits for its command. -/
def Module.arrive (m : Module) (e : Envelope) : Module := { m with net.arrived := m.net.arrived ++ [e] }

/-- A message passes its joint: it leaves the mortar, and its unit takes it or it waits in order. A payload that has passed is
accepted, and its completion leaves (R339). -/
def State.passJoint (s : State) (e : Envelope) : State :=
  let s := s.onM fun m =>
    let m := m.leave e.src e.dst
    match e.body with
    | .payload p => m.payloadAccepted p.tag false
    | _ => m
  (s.deliver e).getD (s.onM fun m => m.arrive e)

/-- A message that does not fit its budget: a real-time writer's is discarded, any other is held (R41, R42). -/
def Module.overBudget (m : Module) (a : Nat) (e : Envelope) : Module :=
  if e.realTime then ((m.leave e.src e.dst).dropBytes a e.bytes (e.costs m)).dropped e
  else { m with net.held := m.net.held.set 0 (e.src * 64 + e.dst) 1 }

/-- The next message of the pair at its joint, once it has passed the check. -/
def State.charged (s : State) (e : Envelope) : State :=
  match e.act with
  | none => s.passJoint e
  | some a =>
    match s.m.charge a (e.costs s.m) with
    | (true, m) => ({ s with m := m } : State).passJoint e
    | (false, m) => { s with m := m.overBudget a e }

/-- The next message of a pair at its entry joint. A message that its unit takes as it comes waits behind one of its pair that
still waits for a command, so that no message overtakes another. -/
def State.atJoint (s : State) (src dst : Nat) (corrupt : Bool) : State :=
  match s.m.net.transit.find? fun e => e.src == src && e.dst == dst with
  | none => s
  | some e =>
    if (s.m.arrival src dst).isSome && (s.deliver e).isSome then s
    else if corrupt || decide (0 < s.m.armed 2 dst) then s.onM fun m => m.discardMessage e corrupt
    else s.charged e

/-- Accesses that waited for the acceptance of a BAR0 write go on (R19). -/
def State.afterJoint (s : State) : State := if s.m.hostif.waiting = [] then s else s.issueHost

/-- MORTAR_MESSAGE (R16). -/
def execMortarMessage (src dst : Island) (corrupt : Bool) (s : State) : Host.Outcome State Fault Refusal :=
  .next (s.atJoint src dst corrupt).afterJoint

/-! ## Periods (R40, R41) -/

/-- The messages that wait for room on a resource are tried again: they have passed their check. -/
def State.retryHeld (s : State) (res : Nat) : State :=
  ((s.m.net.held.map Prod.fst).foldl (fun s k =>
    match s.m.net.transit.find? fun e => e.src == k / 64 && e.dst == k % 64 with
    | some e => if (e.costs s.m).any (fun c => c.1 == res) then s.charged e else s
    | none => s) s).afterJoint

/-- BUDGET_PERIOD_START (R40, R41): at its instant, the enforcement point of a resource starts a new period, and what its
budgets held is tried again. -/
def execBudgetPeriodStart (res : Fin 78) (s : State) : Host.Outcome State Fault Refusal :=
  .next (if s.m.periodDue res then
    let s := (((s.onM fun m => m.startPeriod res).retryHeld res).retryWrites).retryWindow
    if res.val < 4 then s.onM fun m => m.copyOn res else s
  else s)

end Sys2Proof.Machine
end

