-- ==== Sys2Proof/Machine/Dispatch.lean ====
section
/-! DEFINITION. One arm for each command of the opcode table. -/

namespace Sys2Proof.Machine

/-- The effect of a command on everything but the queue. -/
def exec (i : Instr) (s : State) : Host.Outcome State Fault Refusal :=
  match i with
  | .registerWrite r off bytes v => Sys2Proof.Machine.execRegisterWrite r off bytes v s
  | .reg64LowRead r a => Sys2Proof.Machine.execReg64LowRead r a s
  | .reg64HighRead r a => Sys2Proof.Machine.execReg64HighRead r a s
  | .reg64HighWrite r off v => Sys2Proof.Machine.execReg64HighWrite r off v s
  | .reg64LowWrite r off v => Sys2Proof.Machine.execReg64LowWrite r off v s
  | .commitGo r page group => Sys2Proof.Machine.execCommitGo r page group s
  | .commitApplied page => Sys2Proof.Machine.execCommitApplied page s
  | .sysGroupCommit r group => Sys2Proof.Machine.execSysGroupCommit r group s
  | .softReset r page => Sys2Proof.Machine.execSoftReset r page s
  | .irqForce r page bits => Sys2Proof.Machine.execIrqForce r page bits s
  | .irqStatusClear r page bits => Sys2Proof.Machine.execIrqStatusClear r page bits s
  | .cntClr r page => Sys2Proof.Machine.execCntClr r page s
  | .mortarMessage src dst corrupt => Sys2Proof.Machine.execMortarMessage src dst corrupt s
  | .budgetPeriodStart res => Sys2Proof.Machine.execBudgetPeriodStart res s
  | .peakClr r => Sys2Proof.Machine.execPeakClr r s
  | .regionMapApply => Sys2Proof.Machine.execRegionMapApply s
  | .hbmAccess q act ecc => Sys2Proof.Machine.execHbmAccess q act ecc s
  | .hbmRepairSwitch stack channel => Sys2Proof.Machine.execHbmRepairSwitch stack channel s
  | .pseudoChannelRetire stack channel => Sys2Proof.Machine.execPseudoChannelRetire stack channel s
  | .ledgerAppend ok => Sys2Proof.Machine.execLedgerAppend ok s
  | .refinAbsent onset => Sys2Proof.Machine.execRefinAbsent onset s
  | .refinPresent => Sys2Proof.Machine.execRefinPresent s
  | .refinRangeWindow offset onset => Sys2Proof.Machine.execRefinRangeWindow offset onset s
  | .loopLock l phase word => Sys2Proof.Machine.execLoopLock l phase word s
  | .loopLoss l phase onset meanWord => Sys2Proof.Machine.execLoopLoss l phase onset meanWord s
  | .pullIn l => Sys2Proof.Machine.execPullIn l s
  | .loopStateNotice island => Sys2Proof.Machine.execLoopStateNotice island s
  | .time64Start => Sys2Proof.Machine.execTime64Start s
  | .timeMark island drift => Sys2Proof.Machine.execTimeMark island drift s
  | .time64Wrap => Sys2Proof.Machine.execTime64Wrap s
  | .alignArmed c => Sys2Proof.Machine.execAlignArmed c s
  | .alignArmedCompletion c => Sys2Proof.Machine.execAlignArmedCompletion c s
  | .alignReleased c => Sys2Proof.Machine.execAlignReleased c s
  | .alignOutPulse => Sys2Proof.Machine.execAlignOutPulse s
  | .alignEvent => Sys2Proof.Machine.execAlignEvent s
  | .time64Load => Sys2Proof.Machine.execTime64Load s
  | .clkoutChange k => Sys2Proof.Machine.execClkoutChange k s
  | .limiterEngage x => Sys2Proof.Machine.execLimiterEngage x s
  | .limiterRelease x => Sys2Proof.Machine.execLimiterRelease x s
  | .pwrDetUpdate x power => Sys2Proof.Machine.execPwrDetUpdate x power s
  | .startTickMessage dst => Sys2Proof.Machine.execStartTickMessage dst s
  | .converterStart x => Sys2Proof.Machine.execConverterStart x s
  | .converterStop x => Sys2Proof.Machine.execConverterStop x s
  | .cnvEnableWrite r x enable => Sys2Proof.Machine.execCnvEnableWrite r x enable s
  | .sampleMessage x raw => Sys2Proof.Machine.execSampleMessage x raw s
  | .scanEntryStart x => Sys2Proof.Machine.execScanEntryStart x s
  | .entryMark x => Sys2Proof.Machine.execEntryMark x s
  | .injectGo r x => Sys2Proof.Machine.execInjectGo r x s
  | .injectionRequest x => Sys2Proof.Machine.execInjectionRequest x s
  | .injectedEntryStart x => Sys2Proof.Machine.execInjectedEntryStart x s
  | .injectedEntryEnd x => Sys2Proof.Machine.execInjectedEntryEnd x s
  | .rotationStep x trim rangeLimit => Sys2Proof.Machine.execRotationStep x trim rangeLimit s
  | .shadowMatch x ofs gain skew => Sys2Proof.Machine.execShadowMatch x ofs gain skew s
  | .swapMark x course => Sys2Proof.Machine.execSwapMark x course s
  | .sliceSubstitution x => Sys2Proof.Machine.execSliceSubstitution x s
  | .calFgGo r inputs => Sys2Proof.Machine.execCalFgGo r inputs s
  | .precheckStart x => Sys2Proof.Machine.execPrecheckStart x s
  | .precheckTimeout x => Sys2Proof.Machine.execPrecheckTimeout x s
  | .calPause x => Sys2Proof.Machine.execCalPause x s
  | .calStepDone x res => Sys2Proof.Machine.execCalStepDone x res s
  | .calTimeout x full => Sys2Proof.Machine.execCalTimeout x full s
  | .calStoreRequest x => Sys2Proof.Machine.execCalStoreRequest x s
  | .calStoreVerify x e => Sys2Proof.Machine.execCalStoreVerify x e s
  | .calResume x => Sys2Proof.Machine.execCalResume x s
  | .genNotice x dst => Sys2Proof.Machine.execGenNotice x dst s
  | .wteSpectrum x => Sys2Proof.Machine.execWteSpectrum x s
  | .subbandMessage x c k => Sys2Proof.Machine.execSubbandMessage x c k s
  | .subscribe c x => Sys2Proof.Machine.execSubscribe c x s
  | .unsubscribe c x => Sys2Proof.Machine.execUnsubscribe c x s
  | .roleChange c d => Sys2Proof.Machine.execRoleChange c d s
  | .emitStart d c => Sys2Proof.Machine.execEmitStart d c s
  | .emitStop d c => Sys2Proof.Machine.execEmitStop d c s
  | .staleRole c d => Sys2Proof.Machine.execStaleRole c d s
  | .spareWarm c e => Sys2Proof.Machine.execSpareWarm c e s
  | .switchReq c d => Sys2Proof.Machine.execSwitchReq c d s
  | .switchGrant d c => Sys2Proof.Machine.execSwitchGrant d c s
  | .brickSpectrum n => Sys2Proof.Machine.execBrickSpectrum n s
  | .brickIqMessage n => Sys2Proof.Machine.execBrickIqMessage n s
  | .iqMessageTimeout n => Sys2Proof.Machine.execIqMessageTimeout n s
  | .replayData c => Sys2Proof.Machine.execReplayData c s
  | .replayCredit c => Sys2Proof.Machine.execReplayCredit c s
  | .courseStart d => Sys2Proof.Machine.execCourseStart d s
  | .courseStop d => Sys2Proof.Machine.execCourseStop d s
  | .evtEdge i0 level frac => Sys2Proof.Machine.execEvtEdge i0 level frac s
  | .holdoffEnd i0 level => Sys2Proof.Machine.execHoldoffEnd i0 level s
  | .eventNotice i0 => Sys2Proof.Machine.execEventNotice i0 s
  | .cdRebuild r => Sys2Proof.Machine.execCdRebuild r s
  | .cdBuildDone ok => Sys2Proof.Machine.execCdBuildDone ok s
  | .iuDecision u => Sys2Proof.Machine.execIuDecision u s
  | .swgateOpen r => Sys2Proof.Machine.execSwgateOpen r s
  | .swgateClose r => Sys2Proof.Machine.execSwgateClose r s
  | .swgateExpire u => Sys2Proof.Machine.execSwgateExpire u s
  | .iuTimeout u => Sys2Proof.Machine.execIuTimeout u s
  | .evtResPop r => Sys2Proof.Machine.execEvtResPop r s
  | .courseItemArrival d src => Sys2Proof.Machine.execCourseItemArrival d src s
  | .slotEvaluation d => Sys2Proof.Machine.execSlotEvaluation d s
  | .trgTimeout d => Sys2Proof.Machine.execTrgTimeout d s
  | .trgHoldEnd d => Sys2Proof.Machine.execTrgHoldEnd d s
  | .trgSwtrig r d conds => Sys2Proof.Machine.execTrgSwtrig r d conds s
  | .injectionCompletion x => Sys2Proof.Machine.execInjectionCompletion x s
  | .trgLogPop r d => Sys2Proof.Machine.execTrgLogPop r d s
  | .maskCopyDone d => Sys2Proof.Machine.execMaskCopyDone d s
  | .recordCloseWrite cap => Sys2Proof.Machine.execRecordCloseWrite cap s
  | .recordDone cap => Sys2Proof.Machine.execRecordDone cap s
  | .acqCapReadWrite r v => Sys2Proof.Machine.execAcqCapReadWrite r v s
  | .replaySegment => Sys2Proof.Machine.execReplaySegment s
  | .denSpectrum e src => Sys2Proof.Machine.execDenSpectrum e src s
  | .tileFrameClose e => Sys2Proof.Machine.execTileFrameClose e s
  | .foldDone e => Sys2Proof.Machine.execFoldDone e s
  | .published e => Sys2Proof.Machine.execPublished e s
  | .lock e => Sys2Proof.Machine.execLock e s
  | .denClear r e => Sys2Proof.Machine.execDenClear r e s
  | .densityEngineSwitch e => Sys2Proof.Machine.execDensityEngineSwitch e s
  | .vblankStart => Sys2Proof.Machine.execVblankStart s
  | .adaptiveExtend => Sys2Proof.Machine.execAdaptiveExtend s
  | .underrun line => Sys2Proof.Machine.execUnderrun line s
  | .hpdChange connected edid adaptive => Sys2Proof.Machine.execHpdChange connected edid adaptive s
  | .irqHpd => Sys2Proof.Machine.execIrqHpd s
  | .linkTraining rate lanes => Sys2Proof.Machine.execLinkTraining rate lanes s
  | .compressionJob lane => Sys2Proof.Machine.execCompressionJob lane s
  | .laneResume lane => Sys2Proof.Machine.execLaneResume lane s
  | .jobCompletion lane laneFault => Sys2Proof.Machine.execJobCompletion lane laneFault s
  | .cmpSwSubmit r lane => Sys2Proof.Machine.execCmpSwSubmit r lane s
  | .cmpResPop r => Sys2Proof.Machine.execCmpResPop r s
  | .laneSwitched lane => Sys2Proof.Machine.execLaneSwitched lane s
  | .decompressionJob lane => Sys2Proof.Machine.execDecompressionJob lane s
  | .dcmResume lane => Sys2Proof.Machine.execDcmResume lane s
  | .decompressionCompletion lane => Sys2Proof.Machine.execDecompressionCompletion lane s
  | .dcmSwSubmit r lane => Sys2Proof.Machine.execDcmSwSubmit r lane s
  | .dcmResPop r => Sys2Proof.Machine.execDcmResPop r s
  | .presentChange n present link => Sys2Proof.Machine.execPresentChange n present link s
  | .driveAdmission n d => Sys2Proof.Machine.execDriveAdmission n d s
  | .nvmeCommandCompletion n opcode sct sc => Sys2Proof.Machine.execNvmeCommandCompletion n opcode sct sc s
  | .nvmeCommandTimeout n opcode => Sys2Proof.Machine.execNvmeCommandTimeout n opcode s
  | .healthPoll n pct crit temp => Sys2Proof.Machine.execHealthPoll n pct crit temp s
  | .nvpRetire r n => Sys2Proof.Machine.execNvpRetire r n s
  | .mount r read => Sys2Proof.Machine.execMount r read s
  | .unmount r => Sys2Proof.Machine.execUnmount r s
  | .format r => Sys2Proof.Machine.execFormat r s
  | .adopt r port => Sys2Proof.Machine.execAdopt r port s
  | .recordReady d => Sys2Proof.Machine.execRecordReady d s
  | .chunkAssign stream => Sys2Proof.Machine.execChunkAssign stream s
  | .framePlacement n => Sys2Proof.Machine.execFramePlacement n s
  | .frameDone n => Sys2Proof.Machine.execFrameDone n s
  | .frameFailed n => Sys2Proof.Machine.execFrameFailed n s
  | .checkpoint => Sys2Proof.Machine.execCheckpoint s
  | .streamClosed stream => Sys2Proof.Machine.execStreamClosed stream s
  | .readbackFrame head payload tail ioOk => Sys2Proof.Machine.execReadbackFrame head payload tail ioOk s
  | .rbDone => Sys2Proof.Machine.execRbDone s
  | .nop c => Sys2Proof.Machine.execNop c s
  | .add c rd rs rt sat => Sys2Proof.Machine.execAdd c rd rs rt sat s
  | .sub c rd rs rt sat => Sys2Proof.Machine.execSub c rd rs rt sat s
  | .addi c rd rs imm sat => Sys2Proof.Machine.execAddi c rd rs imm sat s
  | .and c rd rs rt => Sys2Proof.Machine.execAnd c rd rs rt s
  | .or c rd rs rt => Sys2Proof.Machine.execOr c rd rs rt s
  | .xor c rd rs rt => Sys2Proof.Machine.execXor c rd rs rt s
  | .lsl c rd rs n sat => Sys2Proof.Machine.execLsl c rd rs n sat s
  | .lsr c rd rs n => Sys2Proof.Machine.execLsr c rd rs n s
  | .asr c rd rs n => Sys2Proof.Machine.execAsr c rd rs n s
  | .abs c rd rs sat => Sys2Proof.Machine.execAbs c rd rs sat s
  | .neg c rd rs sat => Sys2Proof.Machine.execNeg c rd rs sat s
  | .min c rd rs rt => Sys2Proof.Machine.execMin c rd rs rt s
  | .max c rd rs rt => Sys2Proof.Machine.execMax c rd rs rt s
  | .mull c rd rs rt => Sys2Proof.Machine.execMull c rd rs rt s
  | .mulf c rd rs rt sat => Sys2Proof.Machine.execMulf c rd rs rt sat s
  | .cmp c rd rs rt => Sys2Proof.Machine.execCmp c rd rs rt s
  | .lui c rd imm => Sys2Proof.Machine.execLui c rd imm s
  | .ori c rd rs imm => Sys2Proof.Machine.execOri c rd rs imm s
  | .movx c dst src => Sys2Proof.Machine.execMovx c dst src s
  | .mac c acc rs rt sat => Sys2Proof.Machine.execMac c acc rs rt sat s
  | .msu c acc rs rt sat => Sys2Proof.Machine.execMsu c acc rs rt sat s
  | .mpy c acc rs rt sat => Sys2Proof.Machine.execMpy c acc rs rt sat s
  | .accadd c acc accB sat => Sys2Proof.Machine.execAccadd c acc accB sat s
  | .extr c acc rd sh sat => Sys2Proof.Machine.execExtr c acc rd sh sat s
  | .movaRead c acc rd part => Sys2Proof.Machine.execMovaRead c acc rd part s
  | .movaWrite c acc rs part => Sys2Proof.Machine.execMovaWrite c acc rs part s
  | .ftap c acc i0 j ci cj z sat => Sys2Proof.Machine.execFtap c acc i0 j ci cj z sat s
  | .exp c rd rs => Sys2Proof.Machine.execExp c rd rs s
  | .norm c rd rs => Sys2Proof.Machine.execNorm c rd rs s
  | .bexpMin c rs => Sys2Proof.Machine.execBexpMin c rs s
  | .bexpSet c rs => Sys2Proof.Machine.execBexpSet c rs s
  | .ldW c d m ecc => Sys2Proof.Machine.execLdW c d m ecc s
  | .ldH c d m ecc => Sys2Proof.Machine.execLdH c d m ecc s
  | .ldHu c d m ecc => Sys2Proof.Machine.execLdHu c d m ecc s
  | .stW c d m => Sys2Proof.Machine.execStW c d m s
  | .stH c d m => Sys2Proof.Machine.execStH c d m s
  | .b c cond ofs => Sys2Proof.Machine.execB c cond ofs s
  | .call c ofs => Sys2Proof.Machine.execCall c ofs s
  | .jr c i0 => Sys2Proof.Machine.execJr c i0 s
  | .dbnz c d ofs => Sys2Proof.Machine.execDbnz c d ofs s
  | .rti c => Sys2Proof.Machine.execRti c s
  | .wait c => Sys2Proof.Machine.execWait c s
  | .bkpt c code => Sys2Proof.Machine.execBkpt c code s
  | .interruptLevel1 c => Sys2Proof.Machine.execInterruptLevel1 c s
  | .interruptLevel2 c => Sys2Proof.Machine.execInterruptLevel2 c s
  | .inboxEntry c src => Sys2Proof.Machine.execInboxEntry c src s
  | .recordNotice c d => Sys2Proof.Machine.execRecordNotice c d s
  | .dmaCompletion c ecc => Sys2Proof.Machine.execDmaCompletion c ecc s
  | .ioTimerMatch c => Sys2Proof.Machine.execIoTimerMatch c s
  | .coreMboxIn r c v => Sys2Proof.Machine.execCoreMboxIn r c v s
  | .restart r c => Sys2Proof.Machine.execRestart r c s
  | .resume r c => Sys2Proof.Machine.execResume r c s
  | .halt r c => Sys2Proof.Machine.execHalt r c s
  | .dbgHalt r => Sys2Proof.Machine.execDbgHalt r s
  | .dbgStep r => Sys2Proof.Machine.execDbgStep r s
  | .dbgResume r => Sys2Proof.Machine.execDbgResume r s
  | .dbgXhResume r g => Sys2Proof.Machine.execDbgXhResume r g s
  | .pwrOffReq r => Sys2Proof.Machine.execPwrOffReq r s
  | .pwrOffWake r => Sys2Proof.Machine.execPwrOffWake r s
  | .pwrSnap r => Sys2Proof.Machine.execPwrSnap r s
  | .featuresOk r => Sys2Proof.Machine.execFeaturesOk r s
  | .sysIrqRoute r v => Sys2Proof.Machine.execSysIrqRoute r v s
  | .sysVecEoi r v => Sys2Proof.Machine.execSysVecEoi r v s
  | .bar2Write ofs data => Sys2Proof.Machine.execBar2Write ofs data s
  | .bar2Read ofs len => Sys2Proof.Machine.execBar2Read ofs len s
  | .coreHalted c => Sys2Proof.Machine.execCoreHalted c s
  | .coreMemData r c v => Sys2Proof.Machine.execCoreMemData r c v s
  | .bootGo r c => Sys2Proof.Machine.execBootGo r c s
  | .bootDone c ecc => Sys2Proof.Machine.execBootDone c ecc s
  | .coreSubstitution c => Sys2Proof.Machine.execCoreSubstitution c s
  | .faultEvent src => Sys2Proof.Machine.execFaultEvent src s
  | .safeStop island => Sys2Proof.Machine.execSafeStop island s
  | .bucketLeak src => Sys2Proof.Machine.execBucketLeak src s
  | .fltSrcConfig r thresh v => Sys2Proof.Machine.execFltSrcConfig r thresh v s
  | .fltRecClr r => Sys2Proof.Machine.execFltRecClr r s
  | .fltClrAll r => Sys2Proof.Machine.execFltClrAll r s
  | .fltLogPop r => Sys2Proof.Machine.execFltLogPop r s
  | .fltLegStatusClear r bits => Sys2Proof.Machine.execFltLegStatusClear r bits s
  | .safeRelease r => Sys2Proof.Machine.execSafeRelease r s
  | .thermalShutdown => Sys2Proof.Machine.execThermalShutdown s
  | .thermalRestart r => Sys2Proof.Machine.execThermalRestart r s
  | .monitorUpdate volts power temps => Sys2Proof.Machine.execMonitorUpdate volts power temps s
  | .powerFailWarning => Sys2Proof.Machine.execPowerFailWarning s
  | .restartAfterPfw => Sys2Proof.Machine.execRestartAfterPfw s
  | .mgtRegisterWrite off v ok => Sys2Proof.Machine.execMgtRegisterWrite off v ok s
  | .mgtRegisterRead off ok late => Sys2Proof.Machine.execMgtRegisterRead off ok late s
  | .mgtAlertClear r bits => Sys2Proof.Machine.execMgtAlertClear r bits s
  | .mgtReqGo r => Sys2Proof.Machine.execMgtReqGo r s
  | .mgtResp r state reason => Sys2Proof.Machine.execMgtResp r state reason s
  | .mailboxTimeout => Sys2Proof.Machine.execMailboxTimeout s
  | .mgtSubstGo r kind logical => Sys2Proof.Machine.execMgtSubstGo r kind logical s
  | .safWall r v => Sys2Proof.Machine.execSafWall r v s
  | .safInjCount r n => Sys2Proof.Machine.execSafInjCount r n s
  | .configRequest reg v => Sys2Proof.Machine.execConfigRequest reg v s
  | .pcieConfigLoad => Sys2Proof.Machine.execPcieConfigLoad s
  | .perstNAssert => Sys2Proof.Machine.execPerstNAssert s
  | .functionReset k => Sys2Proof.Machine.execFunctionReset k s
  | .sqTailDoorbell q v => Sys2Proof.Machine.execSqTailDoorbell q v s
  | .cqHeadDoorbell q v => Sys2Proof.Machine.execCqHeadDoorbell q v s
  | .descriptorFetch q d => Sys2Proof.Machine.execDescriptorFetch q d s
  | .completionWrite q hostData hostError => Sys2Proof.Machine.execCompletionWrite q hostData hostError s
  | .queueIrqTimeout q => Sys2Proof.Machine.execQueueIrqTimeout q s
  | .streamRxFlush q => Sys2Proof.Machine.execStreamRxFlush q s
  | .busMasterEnable on => Sys2Proof.Machine.execBusMasterEnable on s
  | .vinApply => Sys2Proof.Machine.execVinApply s
  | .startupStepEnd => Sys2Proof.Machine.execStartupStepEnd s
  | .startupLimit => Sys2Proof.Machine.execStartupLimit s
  | .refWaitExpiry => Sys2Proof.Machine.execRefWaitExpiry s
  | .moveComplete => Sys2Proof.Machine.execMoveComplete s
  | .testLogicReset => Sys2Proof.Machine.execTestLogicReset s
  | .jdlNop => Sys2Proof.Machine.execJdlNop s
  | .jdlRead space addr => Sys2Proof.Machine.execJdlRead space addr s
  | .jdlWrite space addr data => Sys2Proof.Machine.execJdlWrite space addr data s
  | .jdlCapture => Sys2Proof.Machine.execJdlCapture s
  | .jdlCompletion => Sys2Proof.Machine.execJdlCompletion s
  | .jdlTimeout => Sys2Proof.Machine.execJdlTimeout s
  | .debugHalt c cause => Sys2Proof.Machine.execDebugHalt c cause s
  | .crossHalt c => Sys2Proof.Machine.execCrossHalt c s
  | .switchTimeout n => Sys2Proof.Machine.execSwitchTimeout n s
  | .replayPace => Sys2Proof.Machine.execReplayPace s
  | .vinRemoval => Sys2Proof.Machine.execVinRemoval s
  | .linkChange up trained inUse speed flit => Sys2Proof.Machine.execLinkChange up trained inUse speed flit s
  | .msixTableWrite vector w v => Sys2Proof.Machine.execMsixTableWrite vector w v s
  | .streamRxFrame src => Sys2Proof.Machine.execStreamRxFrame src s
  | .updateIr code => Sys2Proof.Machine.execUpdateIr code s

end Sys2Proof.Machine
end

