-- ==== Sys2Proof/WellFormed.lean ====
section
/-! DEFINITION. Commands that the outside can present: operands within the widths and counts that the spec gives them. The
machine gives every command an effect; statements may assume well-formed ones. -/

namespace Sys2Proof

/-- An access of 1 to 8 bytes within BAR0 (R475). -/
def barAccess (off bytes : Nat) : Bool := decide (1 ≤ bytes) && decide (bytes ≤ 8) && decide (off + bytes ≤ 2 ^ 26)

/-- A page index of BAR0: 64 MiB in pages of 4 KiB. -/
def barPage (p : Nat) : Bool := decide (p < 16384)

/-- A signed number of w bits. -/
def fitsSigned (w : Nat) (i : Int) : Bool := decide (-(2 ^ (w - 1) : Int) ≤ i) && decide (i < 2 ^ (w - 1))

/-- Format M: OFS only in mode 0, within 17 signed bits (R423). -/
def MemOp.wf (o : MemOp) : Bool := fitsSigned 17 o.ofs && (o.am.val == 0 || o.ofs == 0)

/-- The entries of an extent table are 64 bytes long (R375). -/
def MountRead.wf (a : MountRead) : Bool := a.table.all fun e => e.length == 64

/-- The well-formed commands. -/
def Instr.wf : Instr → Bool
  | .registerWrite _ off bytes _ => barAccess off bytes
  | .reg64LowRead _ a => barAccess a.off a.bytes
  | .reg64HighRead _ a => barAccess a.off a.bytes
  | .reg64HighWrite _ off _ => barAccess off 4
  | .reg64LowWrite _ off _ => barAccess off 4
  | .commitGo _ page _ => barPage page
  | .commitApplied page => barPage page
  | .softReset _ page => barPage page
  | .irqForce _ page _ => barPage page
  | .irqStatusClear _ page _ => barPage page
  | .cntClr _ page => barPage page
  | .mgtRegisterWrite off _ _ => barAccess off 4
  | .mgtRegisterRead off _ _ => barAccess off 4
  | .hbmAccess q _ _ =>
    match q.write with
    | some d => !d.isEmpty && d.length == q.len
    | none => decide (0 < q.len)
  | .sampleMessage _ raw => raw.length == 1118
  | .monitorUpdate _ _ temps => temps.length == 8 && temps.all (fitsSigned 16)
  | .pwrDetUpdate _ power => fitsSigned 16 power
  | .hpdChange _ edid _ => edid.length % 128 == 0 && decide (edid.length ≤ 1024)
  | .mount _ read => read.wf
  | .bar2Write ofs data => !data.isEmpty && decide (data.length ≤ 512) && decide (ofs % 4096 + data.length ≤ 4096)
  | .bar2Read ofs len => decide (1 ≤ len) && decide (ofs % 4096 + len ≤ 4096)
  | .linkChange up trained inUse speed _ => !up || (([1, 2, 4, 8, 16] : List Nat).contains trained
    && ([1, 2, 4, 8, 16] : List Nat).contains inUse && decide (inUse ≤ trained) && decide (1 ≤ speed.val) && decide (speed.val ≤ 6))
  | .descriptorFetch _ (some d) => d.length == 32
  | .ldW _ _ o _ => o.wf
  | .ldH _ _ o _ => o.wf
  | .ldHu _ _ o _ => o.wf
  | .stW _ _ o => o.wf
  | .stH _ _ o => o.wf
  | .b _ _ ofs => fitsSigned 22 ofs
  | .call _ ofs => fitsSigned 22 ofs
  | .dbnz _ _ ofs => fitsSigned 22 ofs
  | _ => true

end Sys2Proof
end

