-- ==== Sys2Proof/Safety.lean ====
section
/-! DEFINITION. What counts as a safe run: memory and every store of the block in canonical form, so that equal contents are
equal data, and no step that stops. -/

namespace Sys2Proof.Machine

/-- The access of a requester to a page arrives: its BAR or port is open, the page is claimed, and the charge passes
(R41, R475). -/
def State.arrives (s : State) (r : Requester) (p : Nat) : Bool :=
  s.m.reaches r p && s.m.claimed p && (s.m.chargeAccess r p).1

/-- The state that an access has been charged in. -/
def State.admitted (s : State) (r : Requester) (p : Nat) : State := { s with m := (s.m.chargeAccess r p).2 }

/-- Every register field outside the list reads as before, whatever it reads at reset. -/
def KeepsRegs (s t : State) (keys : List Nat) : Prop :=
  ∀ k, k ∉ keys → ∀ d, Store.get d t.m.reg.regs k = Store.get d s.m.reg.regs k

/-- No register, shadow or live value outside the list of fields changes, and neither does the HBM or the queue. -/
def KeepsRest (s t : State) (keys : List Nat) : Prop :=
  KeepsRegs s t keys ∧ t.m.reg.shadow = s.m.reg.shadow ∧ t.m.reg.live = s.m.reg.live ∧ t.hbm = s.hbm ∧ t.pending = s.pending

/-- The page of a register field's number. -/
def keyPage (k : Nat) : Nat := k / (4096 * 32 * 65536)

/-- No register of a page outside the list changes, no shadow or live value changes, and neither does the HBM or the queue. -/
def OtherPages (s t : State) (pages : List Nat) : Prop :=
  (∀ k, keyPage k ∉ pages → ∀ d, Store.get d t.m.reg.regs k = Store.get d s.m.reg.regs k)
    ∧ t.m.reg.shadow = s.m.reg.shadow ∧ t.m.reg.live = s.m.reg.live ∧ t.hbm = s.hbm ∧ t.pending = s.pending

/-- No register of a page outside the list changes, and no shadow or live value, nor the queue. -/
def KeepsPages (s t : State) (pages : List Nat) : Prop :=
  (∀ k, keyPage k ∉ pages → ∀ d, Store.get d t.m.reg.regs k = Store.get d s.m.reg.regs k)
    ∧ t.m.reg.shadow = s.m.reg.shadow ∧ t.m.reg.live = s.m.reg.live ∧ t.pending = s.pending

/-- Every byte of the HBM outside offsets lo … hi − 1 of a region reads as before. -/
def KeepsOutside (s t : State) (g : Region) (lo hi : Nat) : Prop :=
  ∀ a, (∀ o, lo ≤ o → o < hi → g.address o ≠ a) → t.hbm.byte a = s.hbm.byte a

/-- A region lies inside its stacks of 24 GiB. -/
def Region.inside (g : Region) : Bool := decide (g.base + g.size ≤ 12288)

/-- An event of a fault source is on its way to the fault collector (R451). -/
def Module.reporting (m : Module) (source : Nat) : Prop :=
  ∃ e ∈ m.net.transit, e.dst = 58 ∧ ∃ f, e.body = .fault f ∧ f.source = source

/-- Bit b of IRQ_STATUS of a page is set (R24). -/
def Module.irqBit (m : Module) (p b : Nat) : Bool := bit (m.reg.irqStat.get 0 p) b

/-- A message from src to dst is under way. -/
def Module.underWay (m : Module) (src dst : Nat) (b : Body) : Prop :=
  ∃ e ∈ m.net.transit, e.src = src ∧ e.dst = dst ∧ e.body = b

/-- A payload for a lane or a port (R337): what becomes of it is stated with the lanes. -/
def Body.isPayload : Body → Bool
  | .payload _ => true
  | _ => false

/-- Nothing of the volume is under way: no checkpoint and no volume command. -/
abbrev VolumeQuiet (m : Module) : Prop := m.volume.ckpt = none ∧ m.volume.job = none

/-- A command answers a next state that satisfies `P`. -/
def Completes (c : Instr) (s : State) (P : State → Prop) : Prop := ∃ t, exec c s = .next t ∧ P t

/-- A step answers a next state that satisfies `P`. -/
def Steps (s : State) (P : State → Prop) : Prop := ∃ t, step s = .next t ∧ P t

/-! ## Measurement cores -/

/-- A core issues its next instruction now, from instruction memory, and not in the slot of an RTI. -/
def State.ready (s : State) (c : Nat) : Bool :=
  s.m.canIssue c && decide ((s.m.cr c).pc % 4 = 0) && decide ((s.m.cr c).pc < 0x40000)
    && (match (s.m.cr c).after with
      | some (.rti _) => false
      | _ => true)

/-- Core c issues its next instruction now; the word at its address is w, and ECC finds nothing wrong with it. -/
def State.issues (s : State) (c : Issue) (w : Nat) : Prop :=
  s.ready c.core = true ∧ (s.m.cr c.core).imem.get 0 (s.m.cr c.core).pc = w ∧ c.fetch = .clean

/-- Where the core issues the instruction i, which the word w spells, the instruction completes and `P` holds. -/
def Runs (c : Issue) (w : Nat) (i : Instr) (s : State) (P : State → Prop) : Prop := s.issues c w → Completes i s P

/-- Where the program goes after an instruction that is no branch: on, or to the target of the branch before it (R420). -/
def CoreSt.follow (k : CoreSt) : Nat :=
  match k.after with
  | some (.jump t) => t % 2 ^ 32
  | _ => (k.pc + 4) % 2 ^ 32

/-- The registers and the instruction memory of a core but for the listed registers of the bank in use and the listed bits of SR:
as they stood once the writes pending before the instruction had completed (R420). -/
def CoreKeeps (k k' : CoreSt) (regs flags : List Nat) : Prop :=
  (∀ b n, n ∉ regs → n ≠ 48 → k'.regIn b n = k.settle.regIn b n)
    ∧ (∀ n, shadowed n = true → k'.regIn (!k.bank) n = k.settle.regIn (!k.bank) n)
    ∧ (∀ b, b ∉ flags → bit k'.sr b = bit k.settle.sr b)
    ∧ k'.bank = k.bank ∧ k'.seen = k.acc ∧ k'.imem = k.imem

/-- The queues of a core, what it has latched, and what waits for its boundary stand. -/
def CoreQueues (k k' : CoreSt) : Prop :=
  k'.recs = k.recs ∧ k'.dma = k.dma ∧ k'.done = k.done ∧ k'.latched = k.latched ∧ k'.haltReq = k.haltReq
    ∧ k'.severe = k.severe

/-- Data memory and the accumulators stand. -/
def CoreData (k k' : CoreSt) : Prop := k'.dmem = k.dmem ∧ k'.acc = k.acc

/-- An instruction of core c has issued (R419): one cycle more is counted, and no other core or register changes but those
of the list. -/
def Issued (s t : State) (c state : Nat) (keys : List Nat) : Prop :=
  t.m.coreState c = state
    ∧ t.m.rd64 (pgCore c) CORE_BUSY_LO.CYCLES CORE_BUSY_HI.CYCLES
      = (s.m.rd64 (pgCore c) CORE_BUSY_LO.CYCLES CORE_BUSY_HI.CYCLES + 1) % 2 ^ 64
    ∧ (∀ j, j ≠ c → t.m.cr j = s.m.cr j)
    ∧ KeepsRest s t (keys ++ [fieldKey (pgCore c) CORE_STATUS.STATE 0, fieldKey (pgCore c) CORE_BUSY_LO.CYCLES 0,
        fieldKey (pgCore c) CORE_BUSY_HI.CYCLES 0])

/-- The program goes on: no branch, no exception and no load pending. -/
def Flows (k k' : CoreSt) : Prop :=
  k'.pc = k.follow ∧ k'.after = none ∧ k'.exc = k.exc ∧ k'.load = none ∧ CoreQueues k k'

/-- An instruction without memory access or accumulator write: what it leaves as it was. -/
def Plain (s t : State) (c : Nat) (regs flags : List Nat) : Prop :=
  CoreKeeps (s.m.cr c) (t.m.cr c) regs flags ∧ CoreData (s.m.cr c) (t.m.cr c) ∧ Flows (s.m.cr c) (t.m.cr c)
    ∧ Issued s t c coreRunning []

/-- Z and N describe a result (R418). -/
def Signs (k' : CoreSt) (v : Nat) : Prop := bit k'.sr 0 = (v == 0) ∧ bit k'.sr 1 = bit v 31

/-- An exact result lies in the 32-bit signed range. -/
def fits32 (x : Int) : Bool := decide (-2147483648 ≤ x) && decide (x ≤ 2147483647)

/-- The value that a register takes from an exact result (R415). -/
def delivered (sat : Bool) (x : Int) : Nat :=
  if !fits32 x && sat then (if 0 ≤ x then 0x7FFFFFFF else 0x80000000) else (x % 4294967296).toNat

/-- V, Z, N and the sticky SOV of an exact result (R415, R418). -/
def Overflows (k k' : CoreSt) (sat : Bool) (x : Int) : Prop :=
  bit k'.sr 3 = !fits32 x ∧ bit k'.sr 4 = (bit k.settle.sr 4 || (!fits32 x && sat)) ∧ Signs k' (delivered sat x)

/-- An exact result lies in the range of an accumulator. -/
def fits80 (x : Int) : Bool := decide (-604462909807314587353088 ≤ x) && decide (x < 604462909807314587353088)

/-- An accumulator takes an exact result (R416); AOV sets with it, and both show as R420 states. -/
def Accumulates (k k' : CoreSt) (i : Nat) (sat : Bool) (x : Int) : Prop :=
  k'.acc.get 0 (accKey k.bank i) = (if !fits80 x && sat then (if 0 ≤ x then 2 ^ 79 - 1 else 2 ^ 79)
      else (x % 1208925819614629174706176).toNat)
    ∧ (∀ j, j ≠ accKey k.bank i → k'.acc.get 0 j = k.acc.get 0 j)
    ∧ bit k'.settle.sr 5 = (bit k'.sr 5 || !fits80 x)

/-- Bytes lo … hi − 1 of data memory aside, data memory stands. -/
def DataOutside (k k' : CoreSt) (lo hi : Nat) : Prop := ∀ a, a < lo ∨ hi ≤ a → Store.get 0 k'.dmem a = Store.get 0 k.dmem a

/-- The post-modify of a memory operand (R411, R414): a_i, and ZLEN where it was skipped. -/
def Modified (k k' : CoreSt) (am i : Nat) : Prop :=
  k'.reg (aReg i) = ((k.postModify am i).1.map fun v => v % 2 ^ 32).getD (k.settle.reg (aReg i))
    ∧ bit k'.sr 6 = (bit k.settle.sr 6 || (k.postModify am i).2)

/-- What a message makes of an inbox entry of core c alone (R401): KIND, BRICK, EPOCH, INFO and the item. -/
def inboxItem (c : Nat) : Body → Option (Nat × Nat × Nat × Nat × List Byte)
  | .coreSpectrum k sp => if k = c then some (1, sp.brick.getD 0, sp.epoch, 0, sp.whole) else none
  | .coreIq k g => if k = c then some (2, g.brick, g.epoch, 0, g.whole) else none
  | .coreRole cores brick epoch role course => if cores = [c] then some (3, brick, epoch, role + 16 * course, []) else none
  | _ => none

/-- An instruction raises exception e and has no effect of its own (R427, R432): below LEVEL 2 the core goes on to the entry;
at LEVEL 2 it halts. -/
def Traps (s t : State) (c e : Nat) : Prop :=
  t.m.rd (pgCore c) CORE_EXC_PC.PC = (s.m.cr c).pc ∧ t.m.rd (pgCore c) CORE_EXC_INFO.SOURCE = e
    ∧ t.m.rd (pgCore c) CORE_EXC_INFO.COUNT
      = Nat.min (s.m.rd (pgCore c) CORE_EXC_INFO.COUNT + 1) (2 ^ CORE_EXC_INFO.COUNT.width - 1)
    ∧ (t.m.cr c).pc = (s.m.cr c).follow ∧ (∀ j, j ≠ c → t.m.cr j = s.m.cr j)
    ∧ KeepsRest s t [fieldKey (pgCore c) CORE_STATUS.STATE 0, fieldKey (pgCore c) CORE_BUSY_LO.CYCLES 0,
        fieldKey (pgCore c) CORE_BUSY_HI.CYCLES 0, fieldKey (pgCore c) CORE_EXC_PC.PC 0,
        fieldKey (pgCore c) CORE_EXC_INFO.SOURCE 0, fieldKey (pgCore c) CORE_EXC_INFO.COUNT 0,
        fieldKey (pgCore c) CORE_EXC_INFO.DOUBLE 0, fieldKey (pgCore c) CORE_EXC_ADDR.ADDR 0]
    ∧ CoreKeeps (s.m.cr c) (t.m.cr c) [] [] ∧ CoreData (s.m.cr c) (t.m.cr c) ∧ CoreQueues (s.m.cr c) (t.m.cr c)
    ∧ (if (s.m.cr c).level = 2 then
        t.m.coreState c = coreFault ∧ t.m.rd (pgCore c) CORE_EXC_INFO.DOUBLE = 1 ∧ t.m.irqBit (pgCore c) 9 = true
          ∧ t.m.reporting (s.m.coreSource c)
      else t.m.coreState c = coreRunning ∧ (t.m.cr c).exc = some ((s.m.cr c).exc.getD e))

end Sys2Proof.Machine
end

