-- ==== Sys2Proof/Certificates/Slice0/Obligations.lean ====
section
/-! DEFINITION. The statements for the provers, from the numbered rules of the spec. A completion says what the command's next
state holds, under conditions on the state and the operands alone. -/

open Sys2Proof Sys2Proof.Machine

/-! ## Reference, loops and time base (spec/02) -/

/-- R56: REFIN declared absent drops PRESENT and IN_RANGE, raises REF_LOST, reports the REFIN source, and puts loop 0 into
HOLDOVER unless it is there; the first edge after absence sets PRESENT; a whole window in range sets IN_RANGE with
REF_BACK, and one out of range is a loss. -/
def Obligations.ReferenceDeclarations : Prop :=
  ∀ s : State,
    (∀ onset, s.m.rd pgClk CLK_REF_STATUS.PRESENT = 1 → Completes (.refinAbsent onset) s fun t =>
      t.m.rd pgClk CLK_REF_STATUS.PRESENT = 0 ∧ t.m.rd pgClk CLK_REF_STATUS.IN_RANGE = 0 ∧ t.m.irqBit pgClk 10 = true
        ∧ t.m.reporting 10 ∧ t.m.loopState 0 = 2 ∧ OtherPages s t [pgClk] ∧ s.m.clk.time = t.m.clk.time)
    ∧ (s.m.rd pgClk CLK_REF_STATUS.PRESENT = 0 → Completes .refinPresent s fun t =>
      t.m.rd pgClk CLK_REF_STATUS.PRESENT = 1 ∧ KeepsRest s t [fieldKey pgClk CLK_REF_STATUS.PRESENT 0]
        ∧ t.m.net = s.m.net ∧ t.m.reg.irqStat = s.m.reg.irqStat)
    ∧ (∀ ofs onset, s.m.rd pgClk CLK_REF_STATUS.PRESENT = 1 → s.m.rd pgClk CLK_REF_STATUS.IN_RANGE = 0 →
      s.m.clk.partWindow = false → -2500 ≤ ofs → ofs ≤ 2500 → Completes (.refinRangeWindow ofs onset) s fun t =>
        t.m.rd pgClk CLK_REF_STATUS.IN_RANGE = 1 ∧ toSigned 16 (t.m.rd pgClk CLK_REF_STATUS.OFFSET) = ofs
          ∧ t.m.irqBit pgClk 11 = true
          ∧ KeepsRest s t [fieldKey pgClk CLK_REF_STATUS.IN_RANGE 0, fieldKey pgClk CLK_REF_STATUS.OFFSET 0])
    ∧ (∀ ofs onset, s.m.rd pgClk CLK_REF_STATUS.PRESENT = 1 → 2500 < ofs.natAbs →
      Completes (.refinRangeWindow ofs onset) s fun t =>
        t.m.rd pgClk CLK_REF_STATUS.IN_RANGE = 0 ∧ t.m.irqBit pgClk 10 = true ∧ t.m.reporting 10 ∧ t.m.loopState 0 = 2
          ∧ OtherPages s t [pgClk])

/-- R59, R60, R65, R69: a phase error within WINDOW locks an acquiring loop; one outside it puts a LOCKED loop into
HOLDOVER with its onset; a loop leaves HOLDOVER for PULL_IN; and an island learns a state from the message it receives. -/
def Obligations.LoopTransitions : Prop :=
  ∀ (s : State) (l : Fin 10),
    (∀ phase word, s.m.loopState l = 0 ∨ s.m.loopState l = 3 → phase.natAbs ≤ s.m.lv pgClk CLK_LOOP_LOCK.WINDOW l →
      Completes (.loopLock l phase word) s fun t =>
        t.m.loopState l = 1 ∧ t.m.rd pgClk CLK_LOOP_STATUS.EVER_LOCKED l = 1 ∧ t.m.rd pgClk CLK_LOOP_STATUS.FREE_RUN l = 0
          ∧ t.m.rd pgClk CLK_LOOP_WORD.WORD l = word.toNat ∧ t.m.irqBit pgClk 9 = true
          ∧ (∀ i : Island, t.m.underWay 56 i (.loopState l 1)) ∧ OtherPages s t [pgClk]
          ∧ ∀ k : Fin 10, k ≠ l → t.m.loopState k = s.m.loopState k)
    ∧ (∀ phase onset word, s.m.loopState l = 1 → s.m.lv pgClk CLK_LOOP_LOCK.WINDOW l < phase.natAbs →
      Completes (.loopLoss l phase onset word) s fun t =>
        t.m.loopState l = 2 ∧ t.m.rd64 pgClk CLK_LOOP_ONSET_LO.ONSET CLK_LOOP_ONSET_HI.ONSET l = onset.toNat
          ∧ t.m.rd64 pgClk CLK_LOOP_DECLARED_LO.DECLARED CLK_LOOP_DECLARED_HI.DECLARED l = s.m.now
          ∧ (s.m.rd pgClk CLK_LOOP_STATUS.EVER_LOCKED l = 1 → t.m.rd pgClk CLK_LOOP_WORD.WORD l = word.toNat)
          ∧ t.m.irqBit pgClk 8 = true ∧ t.m.reporting l ∧ (∀ i : Island, t.m.underWay 56 i (.loopState l 2))
          ∧ OtherPages s t [pgClk])
    ∧ (s.m.loopState l = 2 → s.m.lv pgClk CLK_LOOP_LOSS.FORCE_HOLDOVER l = 0 → (l.val = 0 → s.m.refValid = true) →
      Completes (.pullIn l) s fun t =>
        t.m.loopState l = 3 ∧ (∀ i : Island, t.m.underWay 56 i (.loopState l 3))
          ∧ (l.val = 0 ∨ l.val = 5 → t.m.rd pgTb TB_ALIGN_STATUS.ALIGN_STALE = 1 ∧ t.m.irqBit pgTb 11 = true)
          ∧ KeepsRest s t [fieldKey pgClk CLK_LOOP_STATUS.STATE l, fieldKey pgTb TB_ALIGN_STATUS.ALIGN_STALE 0])
    ∧ (∀ (i : Island) (st : Nat), s.m.arrival 56 i = some (.loopState l st) → Completes (.loopStateNotice i) s fun t =>
        t.m.loopSeen i l = st ∧ t.m.reg = s.m.reg ∧ t.hbm = s.hbm ∧ t.m.clk.time = s.m.clk.time
          ∧ ∀ n, n ≠ i.val * 16 + l → t.m.clk.view.get 0 n = s.m.clk.view.get 0 n)

/-- R72, R73, R74, R78: TIME64 starts at the first lock or free-run holdover of loop 5, and every budget period ends; a mark returns
a drifted copy to the count and counts the error, outside a converter island whose loop is not LOCKED; the wrap and the load write
TIME64. -/
def Obligations.TimeBase : Prop :=
  ∀ s : State,
    (s.m.clk.counting = false → s.m.rd pgClk CLK_LOOP_STATUS.EVER_LOCKED 5 = 1 ∨ s.m.rd pgClk CLK_LOOP_STATUS.FREE_RUN 5 = 1 →
      Completes .time64Start s fun t =>
        t.m.clk.counting = true ∧ t.m.clk.time = s.m.clk.time ∧ OtherPages s t [pgBud])
    ∧ (∀ (i : Island) (drift : Int) (k : Nat), s.m.arrival 54 i = some (.timeMark k) →
        (i.val < 4 → s.m.loopState (i.val + 1) = 1) → s.m.clk.skew.get 0 i + drift ≠ 0 → Completes (.timeMark i drift) s fun t =>
        t.m.clk.skew.get 0 i = 0
          ∧ t.m.rd pgTb TB_MARK_ERRORS.COUNT = Nat.min (s.m.rd pgTb TB_MARK_ERRORS.COUNT + 1) (2 ^ TB_MARK_ERRORS.COUNT.width - 1)
          ∧ t.m.reporting 11 ∧ KeepsRest s t [fieldKey pgTb TB_MARK_ERRORS.COUNT 0] ∧ t.m.clk.time = s.m.clk.time)
    ∧ (s.m.clk.counting = true → s.m.power.vin = true → s.m.rawTick + 1 = 2 ^ 56 → Completes .time64Wrap s fun t =>
        t.m.now = 0 ∧ t.m.clk.wraps = s.m.clk.wraps + 1 ∧ t.m.clk.ticks = s.m.clk.ticks + 1
          ∧ t.m.rd pgTb TB_WRAP.WRAP_COUNT = Nat.min (s.m.rd pgTb TB_WRAP.WRAP_COUNT + 1) (2 ^ TB_WRAP.WRAP_COUNT.width - 1)
          ∧ t.m.irqBit pgTb 10 = true)
    ∧ (s.m.rd pgTb TB_ALIGN_STATUS.STATE = 1 →
        s.m.lv pgTb TB_ALIGN_CTRL.MODE = 3 ∨ (s.m.lv pgTb TB_ALIGN_CTRL.MODE ≠ 0 ∧ s.m.clk.alignE0 = true) →
        Completes .time64Load s fun t =>
          t.m.now = s.m.lv64 pgTb TB_LOAD_LO.LOAD TB_LOAD_HI.LOAD % 2 ^ 64 ∧ t.m.rd pgTb TB_ALIGN_STATUS.STATE = 2
            ∧ t.m.rd64 pgTb TB_PRELOAD_LO.PRELOAD TB_PRELOAD_HI.PRELOAD = s.m.now ∧ t.m.rd pgTb TB_WRAP.WRAP_COUNT = 0
            ∧ t.m.irqBit pgTb 8 = true ∧ t.hbm = s.hbm)

/-- R76, R77, R80, R85: arming and its completions, the pulse and the event of an alignment, the release, and an output's
change to its live configuration. -/
def Obligations.Aligning : Prop :=
  ∀ (s : State) (c : Input),
    (s.m.arrival 54 (24 + c.val) = some .alignArmed → Completes (.alignArmed c) s fun t =>
      t.m.clk.alignHold.get 0 (24 + c.val) = 1 ∧ t.m.underWay (24 + c.val) 54 .alignDone ∧ t.m.reg = s.m.reg ∧ t.hbm = s.hbm)
    ∧ (s.m.arrival (24 + c.val) 54 = some .alignDone → s.m.clk.alignWait = [24 + c.val] →
      s.m.lv pgTb TB_ALIGN_CTRL.MODE = 1 ∨ s.m.lv pgTb TB_ALIGN_CTRL.MODE = 2 →
      Completes (.alignArmedCompletion c) s fun t =>
        t.m.rd pgTb TB_ALIGN_STATUS.STATE = 1 ∧ t.m.clk.alignWait = []
          ∧ KeepsRest s t [fieldKey pgTb TB_ALIGN_STATUS.STATE 0])
    ∧ (s.m.lv pgTb TB_ALIGN_CTRL.MODE = 2 → s.m.rd pgTb TB_ALIGN_STATUS.STATE = 1 → s.m.refValid = true →
      s.m.clk.alignPulse = false → Completes .alignOutPulse s fun t =>
        t.m.clk.alignOut = (if s.m.lv pgClk CLK_REF_CFG.FREQ_SEL = 1 then 40 else 400) ∧ t.m.clk.alignPulse = true
          ∧ t.m.reg = s.m.reg ∧ t.hbm = s.hbm ∧ t.m.net = s.m.net)
    ∧ (s.m.lv pgTb TB_ALIGN_CTRL.MODE = 1 ∨ s.m.lv pgTb TB_ALIGN_CTRL.MODE = 2 → s.m.rd pgTb TB_ALIGN_STATUS.STATE = 1 →
      s.m.refValid = true → Completes .alignEvent s fun t =>
        t = { s with m := { s.m with clk := { s.m.clk with alignE0 := true } } })
    ∧ (s.m.arrival 54 (24 + c.val) = some .alignReleased → Completes (.alignReleased c) s fun t =>
        t.m.clk.alignHold.get 0 (24 + c.val) = 0 ∧ t.m.clk.time = s.m.clk.time ∧ t.hbm = s.hbm)
    ∧ Completes (.clkoutChange c) s fun t =>
        t.m.clk.outs.get OutCfg.init c = ⟨s.m.lv pgClk (CLK_OUT_CFG.EN c), s.m.lv pgClk (CLK_OUT_CFG.SOURCE c),
            s.m.lv pgClk (CLK_OUT_DIV.DIV c), s.m.lv pgClk (CLK_OUT_CFG.FORMAT c), s.m.lv pgClk (CLK_OUT_CFG.LEVEL c), s.m.now⟩
          ∧ (∀ k, k ≠ c.val → t.m.clk.outs.get OutCfg.init k = s.m.clk.outs.get OutCfg.init k)
          ∧ KeepsRest s t [fieldKey pgClk CLK_OUT_STATUS.RUNNING 0]

/-! ## Inputs and conversion (spec/03) -/

/-- R89, R90, R101: the limiter engages and releases, and a reading of the power detector saturates at its range. -/
def Obligations.FrontEnd : Prop :=
  ∀ (s : State) (x : Input),
    (s.m.rd (pgCnv x) CNV_LIMITER.ACTIVE = 0 → Completes (.limiterEngage x) s fun t =>
      t.m.rd (pgCnv x) CNV_LIMITER.ACTIVE = 1
        ∧ t.m.rd (pgCnv x) CNV_LIMITER.ENGAGED
          = Nat.min (s.m.rd (pgCnv x) CNV_LIMITER.ENGAGED + 1) (2 ^ CNV_LIMITER.ENGAGED.width - 1)
        ∧ t.m.irqBit (pgCnv x) 9 = true ∧ t.m.reporting (296 + x)
        ∧ KeepsRest s t [fieldKey (pgCnv x) CNV_LIMITER.ACTIVE 0, fieldKey (pgCnv x) CNV_LIMITER.ENGAGED 0])
    ∧ (s.m.rd (pgCnv x) CNV_LIMITER.ACTIVE = 1 → Completes (.limiterRelease x) s fun t =>
      t.m.rd (pgCnv x) CNV_LIMITER.ACTIVE = 0 ∧ (t.m.cv x).limFrom = none
        ∧ (t.m.cv x).flagged = (s.m.cv x).flagged ++ [⟨(s.m.cv x).limFrom.getD (s.m.tick * 16), s.m.tick * 16 + 320⟩]
        ∧ KeepsRest s t [fieldKey (pgCnv x) CNV_LIMITER.ACTIVE 0] ∧ t.m.net = s.m.net)
    ∧ (∀ power, Completes (.pwrDetUpdate x power) s fun t =>
      t.m.rd (pgCnv x) CNV_PWR_DET.VALID = 1
        ∧ toSigned 16 (t.m.rd (pgCnv x) CNV_PWR_DET.POWER) = max (-10240) (min 5120 power)
        ∧ t.m.rd (pgCnv x) CNV_PWR_DET.UNDER = (decide (power < -10240)).toNat
        ∧ t.m.rd (pgCnv x) CNV_PWR_DET.OVER = (decide (5120 < power)).toNat
        ∧ KeepsRest s t [fieldKey (pgCnv x) CNV_PWR_DET.VALID 0, fieldKey (pgCnv x) CNV_PWR_DET.POWER 0,
            fieldKey (pgCnv x) CNV_PWR_DET.UNDER 0, fieldKey (pgCnv x) CNV_PWR_DET.OVER 0]
        ∧ ((s.m.cv x).step = 0 → t.m.conv = s.m.conv))

/-- R94, R97, R100, R122: while the converter runs, the slice outputs of a message and of the 94 samples around it become corrected
samples in range, sent to the channeliser island; over-range samples are counted. -/
def Obligations.SampleMessages : Prop :=
  ∀ (s : State) (x : Input) (raw : List RawSample), s.m.runState x = 2 → 95 ≤ raw.length →
    Completes (.sampleMessage x raw) s fun t => ∃ msg : SampleMsg,
      t.m.underWay x (4 + x.val) (.samples msg) ∧ msg.first = (s.m.cv x).nextIndex ∧ msg.seq = (s.m.cv x).msgSeq
        ∧ msg.samples.length = raw.length - 94 ∧ (∀ c ∈ msg.samples, -2048 ≤ c.value ∧ c.value ≤ 2047)
        ∧ (t.m.cv x).nextIndex = (s.m.cv x).nextIndex + (raw.length - 94) ∧ (t.m.cv x).msgSeq = (s.m.cv x).msgSeq + 1
        ∧ t.m.rd64 (pgCnv x) CNV_OVR_COUNT_LO.COUNT CNV_OVR_COUNT_HI.COUNT
          = (s.m.rd64 (pgCnv x) CNV_OVR_COUNT_LO.COUNT CNV_OVR_COUNT_HI.COUNT + msg.samples.countP (·.ovr)) % 2 ^ 64
        ∧ OtherPages s t [pgCnv x]

/-- R107–R110: a start tick reaches an armed converter that waits for it; the start and the stop of delivery; and a write of
CTRL.ENABLE. -/
def Obligations.ConverterRuns : Prop :=
  ∀ (s : State) (x : Input),
    (∀ ev tick, s.m.arrival 55 x = some (.startTick ev tick) → s.m.runState x = 1 →
      s.m.lv (pgCnv x) CNV_RUN.START_SRC = 1 → s.m.lv (pgCnv x) CNV_RUN.START_EVT = ev → (s.m.cv x).startTick = none →
      s.m.tick ≤ tick → Completes (.startTickMessage (x.castLE (by decide))) s fun t =>
        (t.m.cv x).startTick = some tick ∧ t.m.reg = s.m.reg ∧ t.hbm = s.hbm)
    ∧ (∀ tick, s.m.runState x = 1 → (s.m.cv x).startTick = some tick → Completes (.converterStart x) s fun t =>
        t.m.runState x = 2 ∧ (t.m.cv x).nextIndex = tick * 16 ∧ (t.m.cv x).startTick = none
          ∧ t.m.rd64 (pgCnv x) CNV_START_ACTUAL_LO.ACTUAL CNV_START_ACTUAL_HI.ACTUAL = tick64 tick
          ∧ t.m.irqBit (pgCnv x) 10 = true ∧ t.m.reg.live = s.m.reg.live ∧ t.hbm = s.hbm)
    ∧ (s.m.runState x = 2 → (s.m.cv x).stopping = true → Completes (.converterStop x) s fun t =>
        t.m.runState x = 0 ∧ t.m.lv (pgCnv x) CNV_RUN.RUN = 0 ∧ t.m.sh (pgCnv x) CNV_RUN.RUN = 0
          ∧ (t.m.cv x).stopping = false ∧ (t.m.cv x).powered = (s.m.rd (pgCnv x) CTRL.ENABLE == 1) ∧ t.hbm = s.hbm)
    ∧ (∀ r, s.arrives r (pgCnv x) = true → s.m.gated (pgCnv x) = false → s.m.safeAt x = false →
      Completes (.cnvEnableWrite r x true) s fun t =>
        t.m.rd (pgCnv x) CTRL.ENABLE = 1 ∧ (t.m.cv x).powered = true
          ∧ KeepsRest s t [fieldKey (pgCnv x) CTRL.ENABLE 0])
    ∧ (∀ r, s.arrives r (pgCnv x) = true → s.m.runState x = 2 → Completes (.cnvEnableWrite r x false) s fun t =>
        t.m.rd (pgCnv x) CTRL.ENABLE = 0 ∧ t.m.runState x = 2 ∧ (t.m.cv x).stopping = true
          ∧ KeepsRest s t [fieldKey (pgCnv x) CTRL.ENABLE 0])

/-- R112, R113, R115, R117–R119: the next table entry comes into force at the end of the present one, and its mark leaves; an
accepted injected entry is pending, pre-empts the table, and ends; a refused request is counted. -/
def Obligations.ScanAndInjection : Prop :=
  ∀ (s : State) (x : Input),
    (s.m.runState x = 2 → (s.m.cv x).injected = false → (s.m.cv x).inj = none → (s.m.cv x).stopping = false →
      s.m.rd (pgCnv x) CNV_SCAN_STATUS.ENTRY + 1 < s.m.lv (pgCnv x) CNV_SCAN_CTRL.LENGTH →
      s.m.lv (pgCnv x) CNV_SCAN_TIME.REPEAT (s.m.rd (pgCnv x) CNV_SCAN_STATUS.ENTRY + 1) ≠ 0 →
      Completes (.scanEntryStart x) s fun t =>
        let n := s.m.rd (pgCnv x) CNV_SCAN_STATUS.ENTRY + 1
        t.m.rd (pgCnv x) CNV_SCAN_STATUS.ENTRY = n % 2 ^ CNV_SCAN_STATUS.ENTRY.width
          ∧ (t.m.cv x).entryTick = (s.m.cv x).endTick ∧ (t.m.cv x).source = s.m.lv (pgCnv x) CNV_SCAN_CFG.SOURCE n
          ∧ (t.m.cv x).frames = s.m.lv (pgCnv x) CNV_SCAN_TIME.REPEAT n
          ∧ (t.m.cv x).atten = Nat.max (s.m.lv (pgCnv x) CNV_SCAN_CFG.ATTEN n) (s.m.floorOf x)
          ∧ (∃ i, t.m.underWay x (24 + x.val) (.entryMark i) ∧ i.index = (s.m.cv x).endTick * 16 ∧ i.entry = n)
          ∧ OtherPages s t [pgCnv x, pgSaf])
    ∧ (∀ i, s.m.arrival x (24 + x.val) = some (.entryMark i) → Completes (.entryMark x) s fun t =>
        (t.m.course.get CourseSt.init x).marks = (s.m.course.get CourseSt.init x).marks ++ [.entry i]
          ∧ t.m.reg = s.m.reg ∧ t.hbm = s.hbm)
    ∧ (∀ r, s.arrives r (pgCnv x) = true → s.m.rd (pgCnv x) CNV_INJ_SW_CFG.SOURCE < 5 →
      s.m.rd (pgCnv x) CNV_INJ_SW_TIME.SETTLE ≠ 0 → s.m.rd (pgCnv x) CNV_INJ_SW_TIME.REPEAT ≠ 0 → s.m.injectRefusal x = 0 →
      Completes (.injectGo r x) s fun t =>
        t.m.rd (pgCnv x) CNV_INJECT_STATUS.STATE = 1 ∧ t.m.rd (pgCnv x) CNV_INJECT_STATUS.LAST_SW_REFUSED = 0
          ∧ (t.m.cv x).inj = some ⟨false, s.m.rd (pgCnv x) CNV_INJ_SW_CFG.SOURCE, s.m.rd (pgCnv x) CNV_INJ_SW_CFG.ATTEN,
              s.m.rd (pgCnv x) CNV_INJ_SW_TIME.SETTLE, s.m.rd (pgCnv x) CNV_INJ_SW_TIME.REPEAT, s.m.tick⟩
          ∧ OtherPages s t [pgCnv x])
    ∧ (∀ r, s.arrives r (pgCnv x) = true →
      5 ≤ s.m.rd (pgCnv x) CNV_INJ_SW_CFG.SOURCE ∨ s.m.rd (pgCnv x) CNV_INJ_SW_TIME.SETTLE = 0 →
      Completes (.injectGo r x) s fun t =>
        t.m.rd (pgCnv x) CNV_INJECT_STATUS.REFUSE_REASON = 4 ∧ t.m.rd (pgCnv x) CNV_INJECT_STATUS.LAST_SW_REFUSED = 1
          ∧ t.m.irqBit (pgCnv x) 13 = true ∧ t.m.conv = s.m.conv ∧ OtherPages s t [pgCnv x])
    ∧ (∀ y, s.m.arrival (24 + x.val) x = some (.injectReq y) → s.m.injectRefusal x = 0 →
      s.m.lv (pgCnv x) CNV_INJ_TRG_TIME.REPEAT ≠ 0 → Completes (.injectionRequest x) s fun t =>
        t.m.rd (pgCnv x) CNV_INJECT_STATUS.STATE = 1 ∧ t.m.underWay x (24 + x.val) (.injectDone x 0)
          ∧ (t.m.cv x).inj = some ⟨true, s.m.lv (pgCnv x) CNV_INJ_TRG_CFG.SOURCE, s.m.lv (pgCnv x) CNV_INJ_TRG_CFG.ATTEN,
              s.m.lv (pgCnv x) CNV_INJ_TRG_TIME.SETTLE, s.m.lv (pgCnv x) CNV_INJ_TRG_TIME.REPEAT, s.m.tick⟩
          ∧ OtherPages s t [pgCnv x])
    ∧ (∀ i, (s.m.cv x).inj = some i → s.m.runState x = 2 → (s.m.cv x).injected = false → (s.m.cv x).stopping = false →
      Completes (.injectedEntryStart x) s fun t =>
        t.m.rd (pgCnv x) CNV_INJECT_STATUS.STATE = 2 ∧ (t.m.cv x).injected = true ∧ (t.m.cv x).inj = none
          ∧ (t.m.cv x).source = i.source ∧ (t.m.cv x).frames = i.rep
          ∧ t.m.rd (pgCnv x) CNV_SCAN_STATUS.INJECTED = 1 ∧ OtherPages s t [pgCnv x, pgSaf])
    ∧ (s.m.runState x = 2 → (s.m.cv x).injected = true → (s.m.cv x).stopping = false →
      Completes (.injectedEntryEnd x) s fun t =>
        t.m.rd (pgCnv x) CNV_INJECT_STATUS.STATE = 0 ∧ (t.m.cv x).injected = false ∧ t.m.irqBit (pgCnv x) 12 = true
          ∧ t.m.rd (pgCnv x) CNV_INJECT_DONE.DONE
            = Nat.min (s.m.rd (pgCnv x) CNV_INJECT_DONE.DONE + 1) (2 ^ CNV_INJECT_DONE.DONE.width - 1)
          ∧ t.m.runState x = 2 ∧ OtherPages s t [pgCnv x, pgSaf])

/-! ## Calibration (spec/04) -/

/-- R92, R93, R131–R134, R137, R156: a step of the rotation under the settings of its step tick, a deferred one, the match of the
shadow, the swap mark at its two islands, and the substitution of a severe slice by a spare. -/
def Obligations.Rotation : Prop :=
  ∀ (s : State) (x : Input),
    (∀ trim tick, s.m.stepTick x = some tick → (s.m.takeBg x tick).rotates x = true →
      ((s.m.takeBg x tick).cv x).readyTick ≤ tick →
      Completes (.rotationStep x trim false) s (fun t =>
        (t.m.cv x).position = s.m.nextPosition x ∧ (t.m.cv x).calSlice = (s.m.sliceAt x (s.m.nextPosition x)).getD 0
          ∧ (t.m.cv x).readyTick = tick + 9900000 ∧ (t.m.cv x).matched = none
          ∧ t.m.rd pgCal CAL_BG_STEPS.STEPS x
            = Nat.min (s.m.rd pgCal CAL_BG_STEPS.STEPS x + 1) (2 ^ CAL_BG_STEPS.STEPS.width - 1)
          ∧ t.m.rd pgCal CAL_BG_LAST.PHYS_IN x = (s.m.cv x).calSlice % 2 ^ CAL_BG_LAST.PHYS_IN.width
          ∧ t.m.rd pgCal CAL_BG_LAST.POSITION x = s.m.nextPosition x % 2 ^ CAL_BG_LAST.POSITION.width
          ∧ OtherPages s t [pgCal])
      ∧ Completes (.rotationStep x trim true) s (fun t =>
        t.m.rd pgCal CAL_BG_DEFERS.CAL_FAIL_DEFERS x
            = Nat.min (s.m.rd pgCal CAL_BG_DEFERS.CAL_FAIL_DEFERS x + 1) (2 ^ CAL_BG_DEFERS.CAL_FAIL_DEFERS.width - 1)
          ∧ t.m.irqBit pgCal 13 = true ∧ t.m.reporting (292 + x) ∧ (t.m.cv x).calSlice = (s.m.cv x).calSlice
          ∧ KeepsRest s t [fieldKey pgCal CAL_BG_DEFERS.CAL_FAIL_DEFERS x]))
    ∧ (∀ ofs gain skew, s.m.rotates x = true → s.m.nextPosition x < 64 → Completes (.shadowMatch x ofs gain skew) s fun t =>
        (t.m.cv x).matched = some (ofs, gain, skew, (s.m.cv x).bg.large ofs gain skew)
          ∧ ((s.m.cv x).bg.large ofs gain skew = true → t.m.irqBit pgCal 10 = true ∧ t.m.reporting (292 + x))
          ∧ KeepsRest s t [fieldKey pgCal CAL_BG_LAST.STEP_LARGE_COUNT x])
    ∧ (∀ i, s.m.arrival x (24 + x.val) = some (.swapMark i) → Completes (.swapMark x true) s fun t =>
        (t.m.course.get CourseSt.init x).marks = (s.m.course.get CourseSt.init x).marks ++ [.swap i]
          ∧ t.m.reg = s.m.reg ∧ t.hbm = s.hbm)
    ∧ (∀ i, s.m.arrival x (4 + x.val) = some (.swapMark i) → Completes (.swapMark x false) s fun t =>
        (t.m.wd x).feed.swaps = (s.m.wd x).feed.swaps ++ [i] ∧ t.m.reg = s.m.reg ∧ t.hbm = s.hbm)
    ∧ (∀ p synd rest, (s.m.cv x).substDue = (p, synd) :: rest → s.m.stepTick x ≠ some s.m.tick →
      s.m.rd (pgCnv x) CNV_SLICE_STATUS.ROTATION_STOPPED = 0 → 0 < s.m.rd (pgCnv x) CNV_SLICE_STATUS.SPARES_LEFT →
      Completes (.sliceSubstitution x) s fun t =>
        t.m.rd (pgCnv x) CNV_SLICE_STATUS.SPARES_LEFT
            = (s.m.rd (pgCnv x) CNV_SLICE_STATUS.SPARES_LEFT - 1) % 2 ^ CNV_SLICE_STATUS.SPARES_LEFT.width
          ∧ t.m.rd (pgCnv x) STATUS.SPARE_IN_USE = 1 ∧ t.m.irqBit (pgCnv x) 15 = true ∧ (t.m.cv x).substDue = rest
          ∧ t.m.safety.unsaved.length = s.m.safety.unsaved.length + 1
          ∧ OtherPages s t [pgCnv x, pgMgt, pgFlt])

/-- R138–R146: a foreground calibration from its request to its resumption: QUEUED or refused, PRECHECK and its failure, the pause,
the steps with the checks of RESIDUAL, a timeout, and the resumption with a result or without one; each step is reported over
X → 56. -/
def Obligations.ForegroundCalibration : Prop :=
  ∀ (s : State) (x : Input),
    let c := s.m.cv x
    let inTime := c.ended = false ∧ c.stepOver s.m.clk.ticks = false ∧ c.runOver s.m.clk.ticks = false
    let why := fun (res : CalResult) => residualReason res c (toSigned 16 (s.m.rd pgSaf SAF_TEMP.NOW x))
    (∀ r inputs, s.arrives r pgCal = true → bit (BitVec.toNat inputs) x = true → s.m.rd pgCal CAL_FG_STATUS.STEP x = 0 →
      s.m.rd (pgCnv x) CTRL.ENABLE ≠ 0 → c.failed = false → Completes (.calFgGo r inputs) s fun t =>
        t.m.rd pgCal CAL_FG_STATUS.STEP x = 1 ∧ (t.m.cv x).step = 1 ∧ t.m.underWay 56 x (.calRequest x)
          ∧ OtherPages s t [pgCal])
    ∧ (∀ r inputs, s.arrives r pgCal = true → bit (BitVec.toNat inputs) x = true → s.m.rd pgCal CAL_FG_STATUS.STEP x ≠ 0 →
      Completes (.calFgGo r inputs) s fun t =>
        t.m.rd pgCal CAL_FG_STATUS.LAST_RESULT x = 6 ∧ t.m.rd pgCal CAL_FG_STATUS.REASON x = 1
          ∧ t.m.rd pgCal CAL_FG_STATUS.STEP x = s.m.rd pgCal CAL_FG_STATUS.STEP x ∧ OtherPages s t [pgCal])
    ∧ (c.step = 1 → s.m.calAsked x = false → s.m.rd (pgCnv x) CNV_INJECT_STATUS.STATE = 0 →
      Completes (.precheckStart x) s fun t =>
        (t.m.cv x).step = 2 ∧ t.m.underWay x 56 (.calStep x 2)
          ∧ t.m.rd pgCal CAL_START_LAT.TICKS x = (s.m.clk.ticks - c.fgTick) % 2 ^ CAL_START_LAT.TICKS.width
          ∧ KeepsRest s t [fieldKey pgCal CAL_START_LAT.TICKS x])
    ∧ (c.step = 2 → c.passed = false → c.stepOver s.m.clk.ticks = true → s.m.runState x ≠ 3 →
      Completes (.precheckTimeout x) s fun t =>
        (t.m.cv x).step = 0 ∧ t.m.underWay x 56 (.calStep x 0) ∧ t.m.rd pgCal CAL_FG_STATUS.LAST_RESULT x = 2
          ∧ t.m.rd pgCal CAL_FG_STATUS.REASON x
            = (if c.quiet < 16 then 1 else if s.m.rd (pgCnv x) CNV_LIMITER.ACTIVE = 1 then 2 else 3)
          ∧ t.m.irqBit pgCal 9 = true ∧ t.m.reporting (292 + x) ∧ OtherPages s t [pgCal])
    ∧ (c.step = 2 → c.passed = true → Completes (.calPause x) s fun t =>
        t.m.runState x = 3 ∧ (t.m.cv x).step = 3 ∧ t.m.underWay x 56 (.calStep x 3) ∧ (t.m.cv x).before = s.m.runState x
          ∧ t.m.underWay x (4 + x.val) (.calPause c.nextIndex)
          ∧ t.m.underWay x (24 + x.val) (.calPause c.nextIndex) ∧ OtherPages s t [pgCnv x, pgWte x])
    ∧ (∀ res, 3 ≤ c.step → c.step ≤ 5 → inTime → Completes (.calStepDone x res) s fun t =>
        (t.m.cv x).step = c.step + 1 ∧ t.m.underWay x 56 (.calStep x (c.step + 1)) ∧ KeepsRest s t [])
    ∧ (∀ res, c.step = 6 → inTime → why res = 0 → Completes (.calStepDone x res) s fun t =>
        (t.m.cv x).step = 7 ∧ t.m.underWay x 56 (.calStep x 7) ∧ t.m.underWay x 57 (.storeRequest x) ∧ OtherPages s t [pgCal])
    ∧ (∀ res, c.step = 6 → inTime → why res ≠ 0 → s.m.runState x = 3 → Completes (.calStepDone x res) s fun t =>
        (t.m.cv x).ended = true ∧ (t.m.cv x).resumeAt = nextMultiple (s.m.tick + 4096) 4096
          ∧ t.m.rd pgCal CAL_FG_STATUS.LAST_RESULT x = 3 ∧ t.m.rd pgCal CAL_FG_STATUS.REASON x = why res
          ∧ t.m.irqBit pgCal 9 = true ∧ t.m.reporting (292 + x) ∧ OtherPages s t [pgCal])
    ∧ (∀ full, (if full = true then c.runOver s.m.clk.ticks else c.stepOver s.m.clk.ticks) = true → 3 ≤ c.step →
      c.stored = false → c.ended = false → s.m.headerBegun x = false → s.m.runState x = 3 → Completes (.calTimeout x full) s fun t =>
        (t.m.cv x).ended = true ∧ t.m.rd pgCal CAL_FG_STATUS.TIMEOUT_STEP x = c.step % 2 ^ CAL_FG_STATUS.TIMEOUT_STEP.width
          ∧ t.m.rd pgCal CAL_FG_STATUS.LAST_RESULT x = 4 ∧ t.m.irqBit pgCal 9 = true ∧ t.m.reporting (292 + x)
          ∧ OtherPages s t [pgCal])
    ∧ (s.m.runState x = 3 → c.stored = true → c.before = 2 → c.cutStop = false → Completes (.calResume x) s fun t =>
        t.m.runState x = 2 ∧ (t.m.cv x).step = 0 ∧ t.m.underWay x 56 (.calStep x 0)
          ∧ t.m.rd pgCal CAL_FG_STATUS.LAST_RESULT x = 1 ∧ t.m.rd pgCal CAL_INPUT_GEN.GEN x = c.storedGen % 2 ^ 32
          ∧ (t.m.cv x).nextIndex = c.resumeAt * 16 ∧ t.m.irqBit pgCal 8 = true ∧ t.hbm = s.hbm)
    ∧ (s.m.runState x = 3 → c.stored = false → c.ended = true → c.before = 2 → c.cutStop = false →
      Completes (.calResume x) s fun t =>
        t.m.runState x = 2 ∧ (t.m.cv x).step = 0 ∧ t.m.underWay x 56 (.calStep x 0)
          ∧ t.m.rd pgCal CAL_INPUT_GEN.GEN x = s.m.rd pgCal CAL_INPUT_GEN.GEN x
          ∧ (t.m.cv x).nextIndex = c.resumeAt * 16 ∧ t.hbm = s.hbm)

/-- R147–R152: a store request waits its turn; the erase, the body and the header follow in their order; a slot that reads back comes
into force with the next GENERATION, of which the course and density islands hear; a mismatch and a flash error end the run with
CAL_STORE_FAILED. -/
def Obligations.CalibrationStore : Prop :=
  ∀ (s : State) (x : Input),
    let k := s.m.targetSlot
    let fails := fun (why : Nat) (t : State) =>
      t.m.rd pgCal CAL_STORE_STATUS.STORE_FAILS
          = Nat.min (s.m.rd pgCal CAL_STORE_STATUS.STORE_FAILS + 1) (2 ^ CAL_STORE_STATUS.STORE_FAILS.width - 1)
        ∧ t.m.rd pgCal CAL_FG_STATUS.LAST_RESULT x = 5 ∧ t.m.rd pgCal CAL_FG_STATUS.REASON x = why
        ∧ t.m.irqBit pgCal 11 = true ∧ t.m.underWay 57 x (.storeDone x false)
        ∧ t.m.rd pgCal CAL_GENERATION.GEN = s.m.rd pgCal CAL_GENERATION.GEN ∧ OtherPages s t [pgCal]
    (∀ y, s.m.arrival x 57 = some (.storeRequest y) → (s.m.cv x).storing = true → Completes (.calStoreRequest x) s fun t =>
      t.m.safety.stores = s.m.safety.stores ++ [x.val]
        ∧ (s.m.safety.stores = [] → t.m.rd pgCal CAL_STORE_STATUS.STORE_STATE = 1) ∧ OtherPages s t [pgCal])
    ∧ (∀ y, s.m.arrival x 57 = some (.storeRequest y) → (s.m.cv x).storing = false → Completes (.calStoreRequest x) s fun t =>
      t.m.safety.stores = s.m.safety.stores ∧ t.m.underWay 57 x (.storeDone x false) ∧ KeepsRest s t [])
    ∧ (s.m.safety.stores.head? = some x.val → s.m.storeState = 1 → Completes (.calStoreVerify x .erased) s fun t =>
      t.m.storeState = 2 ∧ t.m.slot k = { CalSlot.blank with opened := true }
        ∧ KeepsRest s t [fieldKey pgCal CAL_STORE_STATUS.STORE_STATE 0])
    ∧ (s.m.safety.stores.head? = some x.val → s.m.storeState = 2 → Completes (.calStoreVerify x .body) s fun t =>
      t.m.storeState = 3 ∧ (t.m.slot k).body.length = 4 ∧ (t.m.slot k).head = (s.m.slot k).head
        ∧ KeepsRest s t [fieldKey pgCal CAL_STORE_STATUS.STORE_STATE 0])
    ∧ (s.m.safety.stores.head? = some x.val → s.m.storeState = 3 → Completes (.calStoreVerify x .header) s fun t =>
      t.m.storeState = 4 ∧ (t.m.slot k).gen = s.m.nextGen ∧ (t.m.slot k).count = s.m.nextCount
        ∧ (t.m.slot k).body = (s.m.slot k).body ∧ KeepsRest s t [fieldKey pgCal CAL_STORE_STATUS.STORE_STATE 0])
    ∧ (s.m.safety.stores.head? = some x.val → s.m.storeState = 4 → (s.m.slot k).valid = true →
      Completes (.calStoreVerify x (.readBack true)) s fun t =>
        t.m.rd pgCal CAL_GENERATION.GEN = (s.m.rd pgCal CAL_GENERATION.GEN + 1) % 2 ^ 32
          ∧ t.m.rd pgCal CAL_STORE_STATUS.ACTIVE_SLOT = k % 2 ^ CAL_STORE_STATUS.ACTIVE_SLOT.width
          ∧ (t.m.cv x).stored = true ∧ t.m.safety.stores = s.m.safety.stores.drop 1
          ∧ t.m.underWay 57 x (.storeDone x true) ∧ OtherPages s t [pgCal])
    ∧ (s.m.safety.stores.head? = some x.val → s.m.storeState = 4 →
      Completes (.calStoreVerify x (.readBack false)) s (fails 1))
    ∧ (s.m.safety.stores.head? = some x.val → Completes (.calStoreVerify x .flashError) s (fails 2))

/-! ## The wideband transform and the bricks (spec/05, spec/06) -/

/-- R162, R168, R173: when all samples of the next frame have been received it is transformed; with bins on and routed to the
course, the spectrum that leaves carries the frame's time, the sequence and the bins selected. -/
def Obligations.WidebandFrames : Prop :=
  ∀ (s : State) (x : Input) (g : Grid) (rest : List Grid), (s.m.wd x).grids = g :: rest → g.open_ = true →
    inRun (s.m.wd x).feed.got ⟨g.start, g.start + g.cfg.size - 1⟩ = true →
    Completes (.wteSpectrum x) s fun t =>
      (t.m.wd x).grids = g.next ++ rest ∧ (t.m.wd x).seq = (s.m.wd x).seq + 1
        ∧ t.m.rd (pgWte x) WTE_SEQ.SEQUENCE = (s.m.wd x).seq % 2 ^ 32
        ∧ (g.cfg.binOn = true → bit g.cfg.binDest 0 = true → ∃ sp, t.m.underWay (4 + x.val) (24 + x.val) (.spectrum sp)
            ∧ sp.columns = false ∧ sp.time = 16 * g.start % 2 ^ 64 ∧ sp.seq = (s.m.wd x).seq % 2 ^ 32
            ∧ sp.first = g.cfg.binFirst ∧ sp.count = g.cfg.binCount ∧ sp.log2n = g.cfg.log2n)
        ∧ OtherPages s t [pgWte x]

/-- R184, R187: a sub-band message leaves for its cluster while its route is delivered; a subscription and an unsubscription
are counted and answered, the count staying within 17, and an unsubscription without a subscription is refused. -/
def Obligations.Subbands : Prop :=
  ∀ (s : State) (x : Input) (c : Cluster),
    (∀ (k : Fin 64) f l, (s.m.wd x).nextMsg (routeKey c k) = some (f, l) → s.m.routeOpen x (routeKey c k) = true →
      Completes (.subbandMessage x c k) s fun t =>
        (∃ msg, t.m.underWay (4 + x.val) (8 + c.val) (.subband msg) ∧ msg.subband = k.val
          ∧ msg.stamp = 16 * (f / 16384 * 16384) % 2 ^ 64 ∧ msg.first = f % 16384 / 64 ∧ msg.count = (stampRange f l).length)
        ∧ OtherPages s t [pgChn x])
    ∧ (∀ k b, s.m.arrival (8 + c.val) (4 + x.val) = some (.subscribe k b) → Completes (.subscribe c x) s fun t =>
        (t.m.wd x).subs.get 0 (routeKey c k) = Nat.min 17 ((s.m.wd x).subs.get 0 (routeKey c k) + 1)
          ∧ (∃ i, t.m.underWay (4 + x.val) (8 + c.val) (.subDone k b true true (!s.m.chnDelivers x) i))
          ∧ OtherPages s t [pgChn x])
    ∧ (∀ k b, s.m.arrival (8 + c.val) (4 + x.val) = some (.unsubscribe k b) →
        (s.m.wd x).subs.get 0 (routeKey c k) ≠ 0 → Completes (.unsubscribe c x) s fun t =>
          (t.m.wd x).subs.get 0 (routeKey c k) = (s.m.wd x).subs.get 0 (routeKey c k) - 1
            ∧ (∃ i, t.m.underWay (4 + x.val) (8 + c.val) (.subDone k b false true (!s.m.chnDelivers x) i))
            ∧ OtherPages s t [pgChn x])
    ∧ (∀ k b, s.m.arrival (8 + c.val) (4 + x.val) = some (.unsubscribe k b) →
        (s.m.wd x).subs.get 0 (routeKey c k) = 0 → Completes (.unsubscribe c x) s fun t =>
          t.m.wide = s.m.wide ∧ t.m.underWay (4 + x.val) (8 + c.val) (.subDone k b false false false 0)
            ∧ t.m.irqBit (pgChn x) 9 = true ∧ KeepsRest s t [fieldKey (pgChn x) CHN_SUBS.REFUSED 0])

/-- R201–R204, R211: a brick's next frame, and its IQ message that is complete or timed out, take a sequence number and leave for
their course; a stretch of frames that has no more is over. -/
def Obligations.BrickOutputs : Prop :=
  ∀ (s : State) (n : Brick), s.m.rd (pgBrk n) BRK_STATUS.FAILED = 0 →
    (∀ g rest a lo, (s.m.bk n).grids = g :: rest → g.holds g.next = true → g.ready (s.m.bk n).got = some (a, lo) →
      g.holds a = true → Completes (.brickSpectrum n) s fun t =>
        let seq := if g.fresh then 0 else (s.m.bk n).specSeq
        (t.m.bk n).specSeq = seq + 1 ∧ (t.m.bk n).grids = g.past (a + 1) lo :: rest
          ∧ t.m.rd (pgBrk n) BRK_SPEC_SEQ.SEQUENCE = seq % 2 ^ 32
          ∧ t.m.rd64 (pgBrk n) BRK_LAST_TIME_LO.TIME BRK_LAST_TIME_HI.TIME = g.cfg.stamp a % 2 ^ 64
          ∧ (bit g.cfg.specDest 0 = true → ∃ sp, t.m.underWay (8 + n.val / 16) g.cfg.island (.spectrum sp)
            ∧ sp.brick = some n.val ∧ sp.time = g.cfg.stamp a % 2 ^ 64 ∧ sp.seq = seq % 2 ^ 32 ∧ sp.count = g.cfg.count
            ∧ sp.epoch = s.m.rd (pgBrk n) BRK_EPOCH.EPOCH)
          ∧ OtherPages s t [pgBrk n])
    ∧ (∀ g rest, (s.m.bk n).grids = g :: rest → g.holds g.next = false → Completes (.brickSpectrum n) s fun t =>
        (t.m.bk n).grids = rest ∧ t.m.reg = s.m.reg ∧ t.m.net = s.m.net ∧ t.hbm = s.hbm)
    ∧ (∀ g a k lo whole, (s.m.bk n).openIq = some (g, a, k, lo, whole) →
      let seq := if g.fresh then 0 else (s.m.bk n).iqSeq
      let sent := fun (t : State) => (t.m.bk n).iqSeq = seq + 1 ∧ t.m.rd (pgBrk n) BRK_IQ_SEQ.SEQUENCE = seq % 2 ^ 32
        ∧ (bit g.cfg.iqDest 0 = true → ∃ msg, t.m.underWay (8 + n.val / 16) g.cfg.island (.iq msg) ∧ msg.brick = n.val
            ∧ msg.seq = seq % 2 ^ 32 ∧ msg.first = (a - g.origin) % 256 ∧ msg.count = k)
        ∧ OtherPages s t [pgBrk n]
      (whole = true → Completes (.brickIqMessage n) s sent)
      ∧ (∀ since, (s.m.bk n).iqSince = some since → since + 2097152 ≤ s.m.clk.ticks →
        Completes (.iqMessageTimeout n) s sent))

/-- R208, R210, R216: with no commit of the brick pending, a message with the current epoch starts or stops a brick's output; one
with another epoch is answered STALE_ROLE, which its course counts, and changes no brick. -/
def Obligations.EpochChecks : Prop :=
  ∀ (s : State) (d : Input) (c : Cluster) (course n e tick : Nat), s.m.reg.commits.get none (pgBrk n) = none →
    (s.m.arrival (24 + d.val) (8 + c.val) = some (.emitStart course n e tick) → e = s.m.rd (pgBrk n) BRK_EPOCH.EPOCH →
      s.m.rd (pgBrk n) BRK_STATUS.FAILED ≠ 1 → Completes (.emitStart d c) s fun t =>
        (t.m.bk n).emitFrom = some (tick64 tick) ∧ (t.m.bk n).emitTo = none ∧ (t.m.bk n).gate = none
          ∧ t.m.reg = s.m.reg ∧ t.hbm = s.hbm)
    ∧ (s.m.arrival (24 + d.val) (8 + c.val) = some (.emitStart course n e tick) → e ≠ s.m.rd (pgBrk n) BRK_EPOCH.EPOCH →
      Completes (.emitStart d c) s fun t =>
        t.m.rd (pgBrk n) BRK_STALE.COUNT = Nat.min (s.m.rd (pgBrk n) BRK_STALE.COUNT + 1) (2 ^ BRK_STALE.COUNT.width - 1)
          ∧ t.m.underWay (8 + n / 16) (24 + d.val) (.staleRole course n e (s.m.rd (pgBrk n) BRK_EPOCH.EPOCH) 1)
          ∧ t.m.irqBit (pgBrk n) 8 = true ∧ t.m.brick = s.m.brick ∧ t.hbm = s.hbm)
    ∧ (s.m.arrival (24 + d.val) (8 + c.val) = some (.emitStop course n e tick) → e = s.m.rd (pgBrk n) BRK_EPOCH.EPOCH →
      s.m.rd (pgBrk n) BRK_STATUS.FAILED ≠ 1 → Completes (.emitStop d c) s fun t =>
        (t.m.bk n).emitTo = some (tick64 tick) ∧ (t.m.bk n).emitFrom = (s.m.bk n).emitFrom ∧ t.m.reg = s.m.reg ∧ t.hbm = s.hbm)
    ∧ (∀ a b k, s.m.arrival (8 + c.val) (24 + d.val) = some (.staleRole course n a b k) → Completes (.staleRole c d) s fun t =>
        t.m.rd (pgCrs course) CRS_STALE.COUNT
            = Nat.min (s.m.rd (pgCrs course) CRS_STALE.COUNT + 1) (2 ^ CRS_STALE.COUNT.width - 1)
          ∧ t.m.irqBit (pgCrs course) 12 = true ∧ t.m.brick = s.m.brick ∧ t.m.course = s.m.course
          ∧ KeepsRest s t [fieldKey (pgCrs course) CRS_STALE.COUNT 0])
    ∧ (∀ epoch role, s.m.arrival (8 + c.val) (24 + d.val) = some (.roleChange n epoch role course) →
      Completes (.roleChange c d) s fun t =>
        (t.m.crs d).epochs.get 0 n = epochEntry epoch role course
          ∧ (∀ k, k ≠ n → (t.m.crs d).epochs.get 0 k = (s.m.crs d).epochs.get 0 k) ∧ t.hbm = s.hbm)

/-- R219–R221: a warm spare of an idle brick takes its place at once; of an emitting one it asks the course, which answers with
the first interval start at or after the present when no open segment holds the brick, or after the timeout; and the grant
makes the spare serve. -/
def Obligations.SpareBricks : Prop :=
  ∀ (s : State) (d : Input) (c : Cluster),
    (∀ n e, (clusterBricks c).find? (fun n => (s.m.bk n).switching.isSome) = some n → (s.m.brickCfg n).role = 0 →
      Completes (.spareWarm c e) s fun t =>
        (t.m.bk n).slot = 16 ∧ (t.m.bk n).switching = none ∧ t.m.rd (pgBrk n) STATUS.SPARE_IN_USE = 1
          ∧ t.m.rd (pgBrk n) BRK_STATUS.SWITCH_PENDING = 0 ∧ t.m.irqBit (pgBrk n) 10 = true ∧ t.hbm = s.hbm)
    ∧ (∀ n e, (clusterBricks c).find? (fun n => (s.m.bk n).switching.isSome) = some n → (s.m.brickCfg n).role ≠ 0 →
      s.m.rd (pgCrs (s.m.brickCfg n).course) CRS_STATUS.RUN_STATE ≠ 0 → Completes (.spareWarm c e) s fun t =>
        t.m.underWay (8 + c.val) (s.m.brickCfg n).island (.switchReq (s.m.brickCfg n).course n e.toNat)
          ∧ t.m.brick = s.m.brick ∧ t.m.reg = s.m.reg)
    ∧ (∀ course n e, s.m.arrival (8 + c.val) (24 + d.val) = some (.switchReq course n e) → (s.m.crs course).waiting = [] →
      s.m.segmentHolds course n = false → Completes (.switchReq c d) s fun t =>
        t.m.underWay (courseIsland course) (8 + n / 16) (.switchGrant course n ((s.m.crs course).epochs.get 0 n % 256)
            (s.m.intervalAt course n (Nat.max e s.m.now)))
          ∧ (t.m.crs course).waiting = [] ∧ t.m.reg = s.m.reg ∧ t.hbm = s.hbm)
    ∧ (∀ (n : Brick) e since, (s.m.crs (s.m.brickCfg n).course).waiting = [(n.val, e, since)] →
      since + s.m.lv (pgCrs (s.m.brickCfg n).course) CRS_SWITCH_TIMEOUT.MS * 2000000 ≤ s.m.clk.ticks →
      Completes (.switchTimeout n) s fun t =>
        (t.m.crs (s.m.brickCfg n).course).waiting = []
          ∧ t.m.underWay (courseIsland (s.m.brickCfg n).course) (8 + n.val / 16) (.switchGrant (s.m.brickCfg n).course n
              ((s.m.crs (s.m.brickCfg n).course).epochs.get 0 n % 256)
              (s.m.intervalAt (s.m.brickCfg n).course n (Nat.max e s.m.now)))
          ∧ t.m.reg = s.m.reg ∧ t.hbm = s.hbm)
    ∧ (∀ course n b, s.m.arrival (24 + d.val) (8 + c.val) = some (.switchGrant course n (s.m.rd (pgBrk n) BRK_EPOCH.EPOCH) b) →
      s.m.reg.commits.get none (pgBrk n) = none → s.m.rd (pgBrk n) BRK_STATUS.FAILED ≠ 1 →
      Completes (.switchGrant d c) s fun t =>
        (t.m.bk n).slot = 16 ∧ t.m.rd64 (pgBrk n) BRK_SWITCH_LO.B BRK_SWITCH_HI.B = b % 2 ^ 64
          ∧ t.m.rd (pgBrk n) STATUS.SPARE_IN_USE = 1 ∧ t.m.irqBit (pgBrk n) 10 = true ∧ t.hbm = s.hbm)

/-- R214–R216, R276: a course enters RUNNING at its start tick and STOPPED at its stop tick; a generation notice becomes a
mark of its course. -/
def Obligations.CourseRuns : Prop :=
  ∀ (s : State) (d : Course),
    (∀ tick, s.m.courseState d = 1 → (s.m.crs d).startTick = some tick → tick ≤ s.m.tick → Completes (.courseStart d) s fun t =>
      t.m.courseState d = 2 ∧ (t.m.crs d).startTick = none
        ∧ t.m.rd64 (pgCrs d) CRS_START_ACTUAL_LO.ACTUAL CRS_START_ACTUAL_HI.ACTUAL = tick64 tick
        ∧ t.m.irqBit (pgCrs d) 8 = true)
    ∧ (∀ tick, (s.m.crs d).stopTick = some tick → tick ≤ s.m.tick → Completes (.courseStop d) s fun t =>
      t.m.courseState d = 0 ∧ (t.m.crs d).stopTick = none
        ∧ t.m.rd64 (pgCrs d) CRS_STOP_ACTUAL_LO.ACTUAL CRS_STOP_ACTUAL_HI.ACTUAL = tick64 tick
        ∧ t.m.irqBit (pgCrs d) 10 = true ∧ t.hbm = s.hbm)
    ∧ (∀ (x : Input) gen tick, s.m.arrival 56 (24 + x.val) = some (.genNotice x gen tick) →
      Completes (.genNotice x (Fin.ofNat 60 (24 + x.val))) s fun t =>
        (t.m.crs x).marks = (s.m.crs x).marks ++ [.genChange tick gen] ∧ t.m.reg = s.m.reg ∧ t.hbm = s.hbm)

/-- R217, R218, R302: with no commit of its brick pending, replay data with the current epoch enters the brick and gives one credit
back; a credit lets the next message leave with PACE FREE, and its time with PACE REAL_TIME, each with the epoch that the course
believes current; a segment is read once its charges pass; and a replay of no segments is done. -/
def Obligations.Replay : Prop :=
  ∀ (s : State) (c : Cluster),
    let leaving := fun (n : Nat) (g : IqMsg) => Body.replayData { g with epoch := (s.m.crs 4).epochs.get 0 n % 256 }
    let idle := s.m.rd (pgCrs 4) CRS_STATUS.RUN_STATE = 2 ∧ s.m.lv pgAcq ACQ_REPLAY_CFG.EN ≠ 0
      ∧ s.m.rd pgAcq ACQ_REPLAY_POS.DONE ≠ 1 ∧ (s.m.members 4).all (fun k => s.m.play.queue.get [] k == []) = true
    let region := s.m.lv pgAcq ACQ_REPLAY_CFG.REGION
    let seg := s.m.lv pgAcq ACQ_REPLAY_FIRST.SEGMENT + s.m.play.next
    let base := seg * s.m.replaySegBytes region
    let head := replayHead base (readBytes s.hbm (s.m.region region) base 128)
    (∀ g, s.m.arrival 24 (8 + c.val) = some (.replayData g) → g.epoch = s.m.rd (pgBrk g.brick) BRK_EPOCH.EPOCH →
      s.m.reg.commits.get none (pgBrk g.brick) = none → s.m.rd (pgBrk g.brick) BRK_STATUS.FAILED ≠ 1 →
      Completes (.replayData c) s fun t =>
        (∃ since, t.m.bk g.brick = { (s.m.bk g.brick).feedReplay (s.m.brickCfg g.brick).j g
            (s.m.holdover (8 + g.brick / 16) [0, 5]) with iqSince := since })
          ∧ t.m.underWay (8 + g.brick / 16) 24 (.replayCredit g.brick) ∧ t.m.reg = s.m.reg ∧ t.hbm = s.hbm)
    ∧ (∀ n g, s.m.arrival (8 + c.val) 24 = some (.replayCredit n) → s.m.lv (pgCrs 4) CRS_REPLAY.PACE = 0 →
      s.m.play.out.get 0 n = 4 → s.m.play.queue.get [] n = [g] → Completes (.replayCredit c) s fun t =>
        t.m.underWay 24 (8 + n / 16) (leaving n g) ∧ t.m.play.out.get 0 n = 4 ∧ t.m.play.queue.get [] n = []
          ∧ t.m.reg = s.m.reg ∧ t.hbm = s.hbm)
    ∧ (∀ (n : Brick) g, s.m.lv (pgCrs 4) CRS_REPLAY.PACE = 1 → s.m.members 4 = [n.val] → s.m.play.out.get 0 n = 0 →
      s.m.play.queue.get [] n = [g] → s.m.play.first = some g.stamp → Completes .replayPace s fun t =>
        t.m.underWay 24 (8 + n.val / 16) (leaving n g) ∧ t.m.play.queue.get [] n = [] ∧ t.m.reg = s.m.reg)
    ∧ (idle → s.m.play.next < s.m.lv pgAcq ACQ_REPLAY_COUNT.SEGMENTS →
      (s.m.letThrough replayUnit (s.m.lv pgAcq ACTIVITY_ID.ACTIVITY) ((s.m.region region).readMsgs 24 base 128
        ++ (if head.1 then head.2 else []).flatMap fun o => (s.m.region region).readMsgs 24 o 1104)).1 = true →
      Completes .replaySegment s fun t =>
        t.m.play.next = s.m.play.next + 1 ∧ t.m.rd pgAcq ACQ_REPLAY_POS.SEGMENT = seg % 2 ^ ACQ_REPLAY_POS.SEGMENT.width
          ∧ t.hbm.cells = s.hbm.cells)
    ∧ (idle → s.m.lv pgAcq ACQ_REPLAY_COUNT.SEGMENTS = 0 → Completes .replaySegment s fun t =>
        t.m.rd pgAcq ACQ_REPLAY_POS.DONE = 1 ∧ t.m.rd pgAcq ACQ_REPLAY_POS.ZERO_LENGTH = 1 ∧ t.m.irqBit pgAcq 15 = true
          ∧ KeepsRest s t [fieldKey pgAcq ACQ_REPLAY_POS.DONE 0, fieldKey pgAcq ACQ_REPLAY_POS.ZERO_LENGTH 0])

/-! ## Event inputs and interval timing (spec/07) -/

/-- R228–R233, R240: an edge that passes hold-off, edge select and prescaler is stamped and counted; one inside the hold-off or
the dead time is counted and lost, and one of an input that is off is not taken; the end of the hold-off; once its 64-tick block
has ended a notice carries the stamps of the block to the courses that its input names; and a build of the code-density tables
starts and, 10 ms later, ends. -/
def Obligations.EventInputs : Prop :=
  ∀ (s : State) (i : Fin 8),
    (∀ level frac, s.m.lv pgEvt EVT_IN_CFG.EN i = 1 → (s.m.ev i).holdEnd = none → s.m.lv pgEvt EVT_IN_HOLDOFF.HOLDOFF_EN i = 0 →
      s.m.lv pgEvt EVT_IN_CFG.EDGE i = 2 → (s.m.ev i).count % 2 ^ s.m.lv pgEvt EVT_IN_CFG.PRESCALE i = 0 →
      (s.m.ev i).last = none → Completes (.evtEdge i level frac) s fun t =>
        let instant := s.m.tick * 256 + frac.toNat
        let stamp := ((instant : Int) + toSigned 16 (s.m.lv pgEvt EVT_IN_DELAY.DELAY i)).toNat
        (t.m.ev i).last = some instant ∧ (t.m.ev i).stamps = (s.m.ev i).stamps ++ [(stamp, s.m.holdover 55 [0, 5])]
          ∧ (t.m.ev i).count = (s.m.ev i).count + 1
          ∧ t.m.rd64 pgEvt EVT_IN_EDGES_LO.EDGES EVT_IN_EDGES_HI.EDGES i
            = (s.m.rd64 pgEvt EVT_IN_EDGES_LO.EDGES EVT_IN_EDGES_HI.EDGES i + 1) % 2 ^ 64
          ∧ t.m.rd64 pgEvt EVT_IN_LAST_LO.TIME EVT_IN_LAST_HI.TIME i = stamp % 2 ^ 64
          ∧ t.m.rd pgEvt EVT_IN_STATUS.LEVEL i = level.toNat ∧ OtherPages s t [pgEvt])
    ∧ (∀ level frac, s.m.lv pgEvt EVT_IN_CFG.EN i = 0 → (s.m.ev i).holdEnd = none → Completes (.evtEdge i level frac) s fun t =>
        (t.m.ev i).level = level ∧ (t.m.ev i).passed = level ∧ (t.m.ev i).stamps = (s.m.ev i).stamps
          ∧ t.m.unit = s.m.unit ∧ t.m.net = s.m.net ∧ KeepsRest s t [fieldKey pgEvt EVT_IN_STATUS.LEVEL i])
    ∧ (∀ level frac e, s.m.lv pgEvt EVT_IN_CFG.EN i = 1 → (s.m.ev i).holdEnd = some e → s.m.tick * 256 + frac.toNat < e →
      Completes (.evtEdge i level frac) s fun t =>
        t.m.rd pgEvt EVT_IN_HELD.HELD i = Nat.min (s.m.rd pgEvt EVT_IN_HELD.HELD i + 1) (2 ^ EVT_IN_HELD.HELD.width - 1)
          ∧ (t.m.ev i).stamps = (s.m.ev i).stamps ∧ (t.m.ev i).count = (s.m.ev i).count ∧ t.m.unit = s.m.unit
          ∧ t.m.net = s.m.net ∧ KeepsRest s t [fieldKey pgEvt EVT_IN_STATUS.LEVEL i, fieldKey pgEvt EVT_IN_HELD.HELD i])
    ∧ (∀ level frac l, s.m.lv pgEvt EVT_IN_CFG.EN i = 1 → (s.m.ev i).holdEnd = none →
      s.m.lv pgEvt EVT_IN_HOLDOFF.HOLDOFF_EN i = 0 → s.m.lv pgEvt EVT_IN_CFG.EDGE i = 2 →
      (s.m.ev i).count % 2 ^ s.m.lv pgEvt EVT_IN_CFG.PRESCALE i = 0 → (s.m.ev i).last = some l →
      s.m.tick * 256 + frac.toNat < l + 512 → Completes (.evtEdge i level frac) s fun t =>
        t.m.rd pgEvt EVT_IN_DEADTIME.LOST i
            = Nat.min (s.m.rd pgEvt EVT_IN_DEADTIME.LOST i + 1) (2 ^ EVT_IN_DEADTIME.LOST.width - 1)
          ∧ t.m.irqBit pgEvt 11 = true ∧ (t.m.ev i).stamps = (s.m.ev i).stamps ∧ (t.m.ev i).last = some l
          ∧ KeepsRest s t [fieldKey pgEvt EVT_IN_STATUS.LEVEL i, fieldKey pgEvt EVT_IN_DEADTIME.LOST i])
    ∧ (∀ (k : Fin 2) level e, (s.m.ev k).holdEnd = some e → e / 256 ≤ s.m.tick → (s.m.ev k).passed = level →
      Completes (.holdoffEnd k level) s fun t =>
        (t.m.ev k).holdEnd = none ∧ (t.m.ev k).stamps = (s.m.ev k).stamps
          ∧ KeepsRest s t [fieldKey pgEvt EVT_IN_STATUS.LEVEL k])
    ∧ (∀ (k : Fin 2) level e, (s.m.ev k).holdEnd = some e → e / 256 ≤ s.m.tick → (s.m.ev k).passed ≠ level →
      s.m.lv pgEvt EVT_IN_HOLDOFF.HOLDOFF_EN k = 1 → Completes (.holdoffEnd k level) s fun t =>
        (t.m.ev k).holdEnd = some (e + 256 * s.m.lv pgEvt EVT_IN_HOLDOFF.TICKS k) ∧ (t.m.ev k).passed = level
          ∧ OtherPages s t [pgEvt])
    ∧ (∀ first held rest, (s.m.ev i).stamps = (first, held) :: rest → (first / 16384 + 1) * 64 ≤ s.m.tick →
      Completes (.eventNotice i) s fun t =>
        (∀ x : Input, bit (s.m.lv pgEvt EVT_IN_CFG.COURSES i) x = true → ∃ n, t.m.underWay 55 (24 + x.val) (.notice n)
          ∧ n.block = first / 16384 * 16384 % 2 ^ 64 ∧ n.input = i.val
          ∧ n.stamps = (first :: rest.map Prod.fst).filter fun z => z / 16384 == first / 16384)
          ∧ (t.m.ev i).stamps = rest.filter (fun z => z.1 / 16384 != first / 16384) ∧ t.m.reg = s.m.reg ∧ t.hbm = s.hbm)
    ∧ (∀ r, s.arrives r pgEvt = true → s.m.rd pgEvt EVT_STATUS.CD_BUILDING = 0 → Completes (.cdRebuild r) s fun t =>
        t.m.rd pgEvt EVT_STATUS.CD_BUILDING = 1 ∧ t.m.clk.cdStart = s.m.clk.ticks ∧ t.m.evtIn = s.m.evtIn
          ∧ KeepsRest s t [fieldKey pgEvt EVT_STATUS.CD_BUILDING 0])
    ∧ (s.m.rd pgEvt EVT_STATUS.CD_BUILDING = 1 → s.m.clk.cdStart + 20000000 ≤ s.m.clk.ticks → Completes (.cdBuildDone true) s fun t =>
        t.m.rd pgEvt EVT_STATUS.CD_BUILDING = 0 ∧ t.m.rd pgEvt EVT_STATUS.CD_VALID = 1
          ∧ t.m.rd pgEvt EVT_CD_STATUS.VALID = 1
          ∧ t.m.rd pgEvt EVT_CD_STATUS.BUILDS
            = Nat.min (s.m.rd pgEvt EVT_CD_STATUS.BUILDS + 1) (2 ^ EVT_CD_STATUS.BUILDS.width - 1)
          ∧ t.m.irqBit pgEvt 12 = true ∧ OtherPages s t [pgEvt])
    ∧ (s.m.rd pgEvt EVT_STATUS.CD_BUILDING = 1 → s.m.clk.cdStart + 20000000 ≤ s.m.clk.ticks → Completes (.cdBuildDone false) s fun t =>
        t.m.rd pgEvt EVT_STATUS.CD_BUILDING = 0 ∧ t.m.clk = s.m.clk
          ∧ KeepsRest s t [fieldKey pgEvt EVT_STATUS.CD_BUILDING 0])

/-- R235–R239: 8 ticks after its arrival an edge is decided: a start edge inside the gate begins a measurement, its last stop
completes a result, and an edge of the software gate arms the unit or ends its measurement; the software gate opens and closes by
command, and closes at its time; a measurement whose timeout has expired yields a result marked TIMEOUT; and a pop removes the
oldest result. -/
def Obligations.IntervalUnits : Prop :=
  ∀ (s : State) (u : Fin 4),
    (∀ e, s.m.lv pgEvt EVT_IU_CFG.MODE u = 1 → (s.m.iu u).gate = true → s.m.iuState u = 2 → e.arrived + 8 ≤ s.m.clk.ticks →
      (s.m.iu u).edges = [e] → e.dead = false → s.m.edgeRank u e = 1 → (s.m.iu u).after = none →
      Completes (.iuDecision u) s fun t =>
        t.m.iuState u = 3 ∧ (t.m.iu u).start = some e.stamp ∧ (t.m.iu u).stops = [] ∧ (t.m.iu u).edges = []
          ∧ (t.m.iu u).hold = e.hold
          ∧ (t.m.iu u).fifo = (s.m.iu u).fifo ∧ KeepsRest s t [fieldKey pgEvt EVT_IU_STATUS.STATE u])
    ∧ (∀ e a, s.m.lv pgEvt EVT_IU_CFG.MODE u = 1 → (s.m.iu u).gate = true → s.m.iuState u = 3 → e.arrived + 8 ≤ s.m.clk.ticks →
      (s.m.iu u).edges = [e] → e.dead = false → s.m.edgeRank u e ≠ 0 → e.input = s.m.lv pgEvt EVT_IU_CFG.STOP_EVT u →
      (s.m.iu u).start = some a → a + 1 < e.stamp → s.m.lv pgEvt EVT_IU_CFG.STOPS u ≤ (s.m.iu u).stops.length + 1 →
      (s.m.iu u).fifo.length < 64 → s.m.lv pgEvt EVT_IU_CFG.REPEAT u = 0 → Completes (.iuDecision u) s fun t =>
        (∃ r, (t.m.iu u).fifo = (s.m.iu u).fifo ++ [r] ∧ r.start = a ∧ r.stops = (s.m.iu u).stops.length + 1
          ∧ r.values = (s.m.iu u).stops.map Prod.fst ++ [e.stamp - a] ∧ r.timeout = false ∧ r.incomplete = false)
          ∧ t.m.iuState u = 1 ∧ t.m.irqBit pgEvt 8 = true
          ∧ t.m.rd pgEvt EVT_IU_RESULTS.RESULTS u
            = Nat.min (s.m.rd pgEvt EVT_IU_RESULTS.RESULTS u + 1) (2 ^ EVT_IU_RESULTS.RESULTS.width - 1)
          ∧ KeepsRest s t [fieldKey pgEvt EVT_IU_STATUS.STATE u, fieldKey pgEvt EVT_IU_RESULTS.RESULTS u])
    ∧ (∀ e, s.m.lv pgEvt EVT_IU_CFG.MODE u = 1 → (s.m.iu u).gate = false → s.m.iuState u = 1 → e.arrived + 8 ≤ s.m.clk.ticks →
      (s.m.iu u).edges = [e] → e.dead = false → e.input = 8 → e.rise = true → Completes (.iuDecision u) s fun t =>
        t.m.iuState u = 2 ∧ (t.m.iu u).gate = true ∧ (t.m.iu u).edges = [] ∧ (t.m.iu u).fifo = (s.m.iu u).fifo
          ∧ KeepsRest s t [fieldKey pgEvt EVT_IU_STATUS.STATE u])
    ∧ (∀ e, s.m.lv pgEvt EVT_IU_CFG.MODE u = 1 → (s.m.iu u).gate = true → s.m.iuState u = 3 → e.arrived + 8 ≤ s.m.clk.ticks →
      (s.m.iu u).edges = [e] → e.dead = false → e.input = 8 → e.rise = false → (s.m.iu u).fifo.length < 64 →
      Completes (.iuDecision u) s fun t =>
        t.m.iuState u = 1 ∧ (t.m.iu u).gate = false ∧ (t.m.iu u).edges = []
          ∧ (∃ r, (t.m.iu u).fifo = (s.m.iu u).fifo ++ [r] ∧ r.incomplete = true ∧ r.values = (s.m.iu u).stops.map Prod.fst)
          ∧ t.m.irqBit pgEvt 8 = true
          ∧ KeepsRest s t [fieldKey pgEvt EVT_IU_STATUS.STATE u, fieldKey pgEvt EVT_IU_RESULTS.RESULTS u])
    ∧ (∀ r, s.arrives r pgEvt = true → s.m.iuSel = u.val → s.m.lv pgEvt EVT_IU_CFG.GATE_SRC u = 1 →
      s.m.rd pgEvt EVT_IU_STATUS.GATE_OPEN u = 0 → s.m.lv pgEvt EVT_IU_CFG.MODE u ≠ 0 → Completes (.swgateOpen r) s fun t =>
        t.m.rd pgEvt EVT_IU_STATUS.GATE_OPEN u = 1
          ∧ (t.m.iu u).edges = (s.m.iu u).edges ++ [⟨s.m.tick * 256, 8, true, false, false, s.m.clk.ticks⟩]
          ∧ (t.m.iu u).swEnd = some (s.m.tick + s.m.lv pgEvt EVT_IU_GATE_TICKS.TICKS u)
          ∧ KeepsRest s t [fieldKey pgEvt EVT_IU_STATUS.GATE_OPEN u])
    ∧ (∀ r, s.arrives r pgEvt = true → s.m.iuSel = u.val → s.m.lv pgEvt EVT_IU_CFG.GATE_SRC u = 1 →
      s.m.rd pgEvt EVT_IU_STATUS.GATE_OPEN u = 1 → Completes (.swgateClose r) s fun t =>
        t.m.rd pgEvt EVT_IU_STATUS.GATE_OPEN u = 0 ∧ (t.m.iu u).swEnd = none
          ∧ (t.m.iu u).edges = (s.m.iu u).edges ++ [⟨s.m.tick * 256, 8, false, false, false, s.m.clk.ticks⟩]
          ∧ (t.m.iu u).fifo = (s.m.iu u).fifo ∧ KeepsRest s t [fieldKey pgEvt EVT_IU_STATUS.GATE_OPEN u])
    ∧ (∀ e, (s.m.iu u).swEnd = some e → e ≤ s.m.tick → Completes (.swgateExpire u) s fun t =>
        t.m.rd pgEvt EVT_IU_STATUS.GATE_OPEN u = 0 ∧ (t.m.iu u).swEnd = none
          ∧ (t.m.iu u).edges = (s.m.iu u).edges ++ [⟨e * 256, 8, false, false, false, s.m.clk.ticks⟩]
          ∧ (t.m.iu u).fifo = (s.m.iu u).fifo ∧ KeepsRest s t [fieldKey pgEvt EVT_IU_STATUS.GATE_OPEN u])
    ∧ (∀ a, s.m.lv pgEvt EVT_IU_CFG.MODE u = 1 → s.m.iuState u = 3 → (s.m.iu u).start = some a → (s.m.iu u).edges = [] →
      (a + 256 * s.m.lv pgEvt EVT_IU_TIMEOUT.TICKS u) / 256 + 8 ≤ s.m.tick → (s.m.iu u).fifo.length < 64 →
      Completes (.iuTimeout u) s fun t =>
        t.m.iuState u = (if s.m.lv pgEvt EVT_IU_CFG.REPEAT u = 1 then 2 else 1)
          ∧ (∃ r, (t.m.iu u).fifo = (s.m.iu u).fifo ++ [r] ∧ r.timeout = true ∧ r.start = a)
          ∧ t.m.irqBit pgEvt 8 = true
          ∧ KeepsRest s t [fieldKey pgEvt EVT_IU_STATUS.STATE u, fieldKey pgEvt EVT_IU_RESULTS.RESULTS u])
    ∧ (∀ r, s.arrives r pgEvt = true → Completes (.evtResPop r) s fun t =>
        (t.m.iu s.m.iuSel).fifo = (s.m.iu s.m.iuSel).fifo.drop 1
          ∧ (∀ v, v ≠ s.m.iuSel → t.m.iu v = s.m.iu v) ∧ t.m.reg = s.m.reg ∧ t.hbm = s.hbm)

/-! ## Triggering and acquisition (spec/08, spec/09) -/

/-- R244, R245, R258, R263, R265–R269, R274: items join the timeline of an engine that wants them; the evaluation of a slot
closes it; the one true condition of a slot that completes the count of a TRIGGER state fires; a state times out; a hold ends;
the answer to an injection request is counted; the log gives up its oldest entry. -/
def Obligations.TriggerEngine : Prop :=
  ∀ (s : State) (d : Course),
    (∀ src n z, d.val < 4 → s.m.arrival src.val (courseIsland d) = some (.notice n) → n.stamps = [z] →
      s.m.takesItems d = true →
      (s.m.tg d).running = false ∨ (s.m.tg d).start.getD 0 ≤ s.m.unwrap z / 256 → Completes (.courseItemArrival d src) s fun t =>
        (t.m.tg d).atoms = (s.m.tg d).atoms
            ++ [⟨s.m.unwrap z / 256, s.m.unwrap z, s.m.tick, false, n.holdover, false, false, .event n.input⟩]
          ∧ t.m.cap = s.m.cap ∧ KeepsRest s t [])
    ∧ (s.m.mayEvaluate d = true → (s.m.tg d).hold = none → (s.m.tg d).atoms = [] →
      (∀ i, i < 16 → s.m.cnd d i TRG_COND_CFG.TYPE ≠ 7) → s.m.timeoutDue d = false → Completes (.slotEvaluation d) s fun t =>
        (t.m.tg d).nextSlot = (s.m.tg d).nextSlot + 1 ∧ (t.m.tg d).log = (s.m.tg d).log ∧ t.m.seqState d = s.m.seqState d
          ∧ t.m.rd64 (pgTrg d) TRG_SLOT_LO.TIME TRG_SLOT_HI.TIME = tick64 (s.m.tg d).nextSlot
          ∧ KeepsRest s t [fieldKey (pgTrg d) TRG_SLOT_LO.TIME 0, fieldKey (pgTrg d) TRG_SLOT_HI.TIME 0])
    ∧ (∀ (i : Fin 16) mask ready, s.m.mayEvaluate d = true → ready ≤ s.m.tick → (s.m.tg d).hold = none → (s.m.tg d).log.length < 256 →
      (s.m.tg d).atoms
          = [⟨(s.m.tg d).nextSlot, (s.m.tg d).nextSlot * 256, ready, false, false, false, false, .soft mask⟩] →
      (∀ j : Fin 16, s.m.cnd d j TRG_COND_CFG.TYPE ≠ 7 ∧ (s.m.cnd d j TRG_COND_CFG.TYPE = 6 ∧ bit mask j = true ↔ j = i)) →
      bit (s.m.lv (pgTrg d) TRG_ST_MASKS.GO_MASK (s.m.seqState d)) i = true →
      bit (s.m.lv (pgTrg d) TRG_ST_MASKS.RESET_MASK (s.m.seqState d)) i = false →
      s.m.lv (pgTrg d) TRG_ST_COUNT.COUNT (s.m.seqState d) ≤ s.m.rd (pgTrg d) TRG_SEQ_STATUS.COUNT_NOW + 1 →
      s.m.lv (pgTrg d) TRG_ST_CTRL.TRIGGER (s.m.seqState d) = 1 → s.m.lv (pgTrg d) TRG_ST_CTRL.INJECT (s.m.seqState d) = 0 →
      s.m.lv (pgTrg d) TRG_ST_CTRL.CROSS (s.m.seqState d) = 0 → s.m.capsOf d = [] → Completes (.slotEvaluation d) s fun t =>
        t.m.seqState d = s.m.lv (pgTrg d) TRG_ST_CTRL.NEXT (s.m.seqState d) % 2 ^ TRG_SEQ_STATUS.STATE.width
          ∧ t.m.rd (pgTrg d) TRG_SEQ_STATUS.HOLDING = 1 ∧ t.m.rd (pgTrg d) TRG_SEQ_STATUS.COUNT_NOW = 0
          ∧ t.m.rd (pgTrg d) TRG_TRIGGERS.COUNT
            = Nat.min (s.m.rd (pgTrg d) TRG_TRIGGERS.COUNT + 1) (2 ^ TRG_TRIGGERS.COUNT.width - 1)
          ∧ t.m.irqBit (pgTrg d) 8 = true ∧ (t.m.tg d).log.length = (s.m.tg d).log.length + 1
          ∧ (t.m.tg d).hold = some ((s.m.tg d).nextSlot, 0) ∧ OtherPages s t [pgTrg d])
    ∧ (s.m.timeoutDue d = true → (s.m.tg d).atoms = [] → (∀ i, i < 16 → s.m.cnd d i TRG_COND_CFG.TYPE ≠ 7) →
      Completes (.trgTimeout d) s fun t =>
        t.m.seqState d = s.m.lv (pgTrg d) TRG_ST_CTRL.TIMEOUT_TO (s.m.seqState d) % 2 ^ TRG_SEQ_STATUS.STATE.width
          ∧ t.m.rd (pgTrg d) TRG_SEQ_STATUS.COUNT_NOW = 0 ∧ (t.m.tg d).entrySlot = (s.m.tg d).nextSlot
          ∧ t.m.irqBit (pgTrg d) 13 = true ∧ OtherPages s t [pgTrg d])
    ∧ (s.m.mayEvaluate d = true → s.m.holdOver d (s.m.tg d).nextSlot = true → Completes (.trgHoldEnd d) s fun t =>
        t.m.rd (pgTrg d) TRG_SEQ_STATUS.HOLDING = 0 ∧ (t.m.tg d).hold = none ∧ (t.m.tg d).entrySlot = (s.m.tg d).nextSlot
          ∧ (t.m.tg d).log = (s.m.tg d).log ∧ KeepsRest s t [fieldKey (pgTrg d) TRG_SEQ_STATUS.HOLDING 0])
    ∧ (∀ r conds slot, s.arrives r (pgTrg d) = true → slot = (if d.val = 4 then (s.m.tg d).nextSlot else s.m.tick) →
      s.m.takesItems d = true → d.val = 4 ∨ (s.m.tg d).running = false ∨ (s.m.tg d).start.getD 0 ≤ slot → Completes (.trgSwtrig r d conds) s fun t =>
        (t.m.tg d).atoms = (s.m.tg d).atoms ++ [⟨slot, slot * 256, s.m.tick, false, false, false, false, .soft conds.toNat⟩]
          ∧ KeepsRest s t [])
    ∧ (∀ (x : Input) y, s.m.arrival x (24 + x.val) = some (.injectDone y 0) → Completes (.injectionCompletion x) s fun t =>
        t.m.rd (pgTrg x) TRG_INJECT.ACCEPTED
            = Nat.min (s.m.rd (pgTrg x) TRG_INJECT.ACCEPTED + 1) (2 ^ TRG_INJECT.ACCEPTED.width - 1)
          ∧ KeepsRest s t [fieldKey (pgTrg x) TRG_INJECT.ACCEPTED 0] ∧ t.m.trg = s.m.trg)
    ∧ (∀ (x : Input) y why, s.m.arrival x (24 + x.val) = some (.injectDone y why) → why ≠ 0 →
      Completes (.injectionCompletion x) s fun t =>
        t.m.rd (pgTrg x) TRG_INJECT.REFUSED
            = Nat.min (s.m.rd (pgTrg x) TRG_INJECT.REFUSED + 1) (2 ^ TRG_INJECT.REFUSED.width - 1)
          ∧ t.m.rd (pgTrg x) TRG_INJECT.LAST_REASON = why % 2 ^ TRG_INJECT.LAST_REASON.width ∧ t.m.irqBit (pgTrg x) 11 = true
          ∧ KeepsRest s t [fieldKey (pgTrg x) TRG_INJECT.REFUSED 0, fieldKey (pgTrg x) TRG_INJECT.LAST_REASON 0])
    ∧ (∀ r, s.arrives r (pgTrg d) = true → Completes (.trgLogPop r d) s fun t =>
        (t.m.tg d).log = (s.m.tg d).log.drop 1 ∧ t.m.reg = s.m.reg ∧ t.hbm = s.hbm)
    ∧ Completes (.maskCopyDone d) s fun t =>
        t.m.rd (pgTrg d) TRG_MASK_STATUS.COPYING = 0 ∧ t.m.trg = s.m.trg
          ∧ KeepsRest s t [fieldKey (pgTrg d) TRG_MASK_STATUS.COPYING 0]

/-- R288, R289, R292, R294: 256 ticks after its close the oldest closed record is formed, and its directory, marks and measurements
are written between its header and its items; once no earlier write of the island is held, its header, with a CRC-32C, is
written, and when it has completed, WRITE, USED and the count of records advance; a release of segments that are closed advances
READ, and any other is rejected. -/
def Obligations.Records : Prop :=
  ∀ (s : State) (b : Fin 32),
    (∀ g, (s.m.cpt b).segs.find? (fun g => g.close.isSome && g.filed.isNone) = some g → g.closedAt + 256 ≤ s.m.clk.ticks →
      Completes (.recordCloseWrite b) s fun t =>
      let r := s.m.region (s.m.cap_ b ACQ_CAP_REGION.REGION)
      let base := s.m.segOfs b g.index
      (∃ h ∈ (t.m.cpt b).segs, h.index = g.index ∧ ∃ body, h.filed = some body ∧ body.length = 124
        ∧ (s.m.enforcing = false → s.m.net.writes = [] → r.inside = true → r.holds (base + 64) 64 = true →
            readBytes t.hbm r (base + 64) 64 = body.drop 60))
      ∧ KeepsOutside s t r (base + 64) (base + s.m.capOfs b) ∧ KeepsPages s t [pgAcq, pgMeas, pgBud, pgSys])
    ∧ (∀ g rest body, (s.m.cpt b).segs = g :: rest → g.filed = some body → body.length = 124 →
      s.m.capState b < 2 → (s.m.cpt b).stall = [] → s.m.rd pgAcq ACQ_CAP_STATUS.LEN_PENDING b ≠ 1 →
      s.m.writesHeld (s.m.capIsland b) = false → g.headed = true ∨ s.m.enforcing = false → Completes (.recordDone b) s fun t =>
        let r := s.m.region (s.m.cap_ b ACQ_CAP_REGION.REGION)
        let base := s.m.segOfs b g.index
        t.m.rd pgAcq ACQ_CAP_WRITE.SEGMENT b
            = (if s.m.rd pgAcq ACQ_CAP_LEN.LEN b ≤ g.index + 1 then 0 else g.index + 1) % 2 ^ ACQ_CAP_WRITE.SEGMENT.width
          ∧ t.m.rd pgAcq ACQ_CAP_USED.SEGMENTS b
            = (s.m.rd pgAcq ACQ_CAP_USED.SEGMENTS b + 1) % 2 ^ ACQ_CAP_USED.SEGMENTS.width
          ∧ t.m.rd pgAcq ACQ_CAP_DONE.RECORDS b = (s.m.rd pgAcq ACQ_CAP_DONE.RECORDS b + 1) % 2 ^ ACQ_CAP_DONE.RECORDS.width
          ∧ t.m.irqBit pgAcq 8 = true ∧ (t.m.cpt b).segs = rest.filter (fun h => h.index != g.index)
          ∧ (g.headed = false → r.inside = true → r.holds base 64 = true →
            readBytes t.hbm r base 64 = body.take 60 ++ leBytes 4 (crc32c body))
          ∧ (g.headed = true → t.hbm = s.hbm)
          ∧ KeepsOutside s t r base (base + 64) ∧ KeepsPages s t [pgAcq, pgBud, pgSys])
    ∧ (∀ rq (v : BitVec 20) n, s.arrives rq pgAcq = true → s.m.rd pgAcq ACQ_CAP_SEL.CAPTURE = b.val → s.m.streaming b = false →
      s.m.released b v.toNat = some n → s.m.capState b < 2 → (s.m.cpt b).stall = [] → Completes (.acqCapReadWrite rq v) s fun t =>
        t.m.rd pgAcq ACQ_CAP_READ.SEGMENT b = v.toNat % 2 ^ ACQ_CAP_READ.SEGMENT.width
          ∧ t.m.rd pgAcq ACQ_CAP_USED.SEGMENTS b
            = (s.m.rd pgAcq ACQ_CAP_USED.SEGMENTS b - n) % 2 ^ ACQ_CAP_USED.SEGMENTS.width
          ∧ t.m.cap = s.m.cap ∧ KeepsRest s t [fieldKey pgAcq ACQ_CAP_READ.SEGMENT b, fieldKey pgAcq ACQ_CAP_USED.SEGMENTS b])
    ∧ (∀ rq (v : BitVec 20), s.arrives rq pgAcq = true → s.m.rd pgAcq ACQ_CAP_SEL.CAPTURE = b.val → s.m.streaming b = false →
      s.m.released b v.toNat = none → Completes (.acqCapReadWrite rq v) s fun t =>
        t.m.rd pgAcq ACQ_CAP_PRE_LOST.READ_REJECTS b
            = Nat.min (s.m.rd pgAcq ACQ_CAP_PRE_LOST.READ_REJECTS b + 1) (2 ^ ACQ_CAP_PRE_LOST.READ_REJECTS.width - 1)
          ∧ t.m.cap = s.m.cap ∧ KeepsRest s t [fieldKey pgAcq ACQ_CAP_PRE_LOST.READ_REJECTS b])

/-! ## Density and display (spec/10) -/

/-- R306–R312, R315, R318: a COMPLEX spectrum is ignored and a real one is drawn into the frame that holds its time; the oldest
frame closes CLOSE ticks after its end; the fold, once it has taken its ticks, adds its hits to the decayed counts, and its
rectangle counts go to the registers and the courses; LOCK pins the newest complete buffer; CLEAR empties the tile before the
next fold. -/
def Obligations.DensityFrames : Prop :=
  ∀ (s : State) (e : Fin 8),
    (∀ (src : Island) sp rest, (s.m.dn e).inbox = (src.val, sp) :: rest →
      s.m.unwrap sp.time / 256 < ((s.m.framesAt e (s.m.unwrap sp.time / 256)).dn e).next → sp.complex = true →
      Completes (.denSpectrum e src) s fun t =>
        t.m.rd (pgDen e) DEN_IGNORED.COMPLEX
            = Nat.min (s.m.rd (pgDen e) DEN_IGNORED.COMPLEX + 1) (2 ^ DEN_IGNORED.COMPLEX.width - 1)
          ∧ (t.m.dn e).inbox = rest ∧ (t.m.dn e).frames = ((s.m.framesAt e (s.m.unwrap sp.time / 256)).dn e).frames
          ∧ (t.m.dn e).tile = (s.m.dn e).tile ∧ KeepsRest s t [fieldKey (pgDen e) DEN_IGNORED.COMPLEX 0])
    ∧ (∀ (src : Island) sp rest f, (s.m.dn e).inbox = (src.val, sp) :: rest →
      s.m.unwrap sp.time / 256 < ((s.m.framesAt e (s.m.unwrap sp.time / 256)).dn e).next → sp.complex = false →
      (s.m.dn e).first ≤ s.m.unwrap sp.time / 256 →
      ((s.m.framesAt e (s.m.unwrap sp.time / 256)).dn e).frames.find? (fun f => f.has (s.m.unwrap sp.time / 256)) = some f →
      f.cfg.takes sp = true → f.cfg.valFirst + f.cfg.valCount ≤ sp.count → (s.m.dn e).drawing = [] →
      Completes (.denSpectrum e src) s fun t =>
        let tick := s.m.unwrap sp.time / 256
        (t.m.dn e).frames = ((s.m.framesAt e tick).dn e).frames.map (fun g => if g.has tick then g.draw sp else g)
          ∧ (t.m.dn e).inbox = rest ∧ (t.m.dn e).tile = (s.m.dn e).tile
          ∧ t.m.rd (pgDen e) DEN_SPECTRA.COUNT
            = Nat.min (s.m.rd (pgDen e) DEN_SPECTRA.COUNT + 1) (2 ^ DEN_SPECTRA.COUNT.width - 1)
          ∧ KeepsRest s t [fieldKey (pgDen e) DEN_SPECTRA.COUNT 0])
    ∧ (∀ f l, (s.m.dn e).on = true → (s.m.dn e).frames = f :: l → f.stop + f.cfg.close ≤ s.m.tick →
      Completes (.tileFrameClose e) s fun t =>
        (t.m.dn e).frames = l
          ∧ (∃ g, (t.m.dn e).folding = (s.m.dn e).folding ++ [g] ∧ g.diff = f.diff ∧ g.seq = f.seq
            ∧ g.late = (s.m.dn e).late ∧ g.clears = (f.clears || (s.m.dn e).clearing))
          ∧ (t.m.dn e).late = 0 ∧ (t.m.dn e).clearing = false ∧ (t.m.dn e).tile = (s.m.dn e).tile
          ∧ t.m.reg = s.m.reg ∧ t.hbm = s.hbm)
    ∧ (∀ f rest, (s.m.dn e).folding = f :: rest → f.foldEnd ≤ s.m.clk.ticks → (s.m.dn e).pub = none → f.cfg.pub = false →
      f.cfg.wf = false → Completes (.foldDone e) s fun t =>
        (t.m.dn e).tile = f.fold (s.m.dn e).tile ∧ (t.m.dn e).folding = rest
          ∧ t.m.rd (pgDen e) DEN_SEQ.SEQUENCE = f.seq % 2 ^ DEN_SEQ.SEQUENCE.width
          ∧ (∀ (j : Fin 16), bit f.cfg.rectEn j = true →
            t.m.rd (pgDen e) DEN_RECT_COUNT.COUNT j = ((f.cfg.rects[j.val]?).map f.rectCount).getD 0)
          ∧ (∀ x : Input, bit f.cfg.courses x = true → ∃ r, t.m.underWay (s.m.denIsland e) (24 + x.val) (.rects r)
            ∧ r.seq = f.seq ∧ r.spectra = f.spectra ∧ r.stop = tick64 f.stop)
          ∧ t.m.irqBit (pgDen e) 8 = true ∧ OtherPages s t [pgDen e])
    ∧ (s.m.arrival 30 (s.m.denIsland e) = some (.lock e) → Completes (.lock e) s fun t =>
        (t.m.dn e).locked = (s.m.dn e).newest.map Publication.buffer
          ∧ t.m.underWay (s.m.denIsland e) 30 (.lockDone e ((s.m.dn e).newest.map fun b => (b.region, b.ofs, b.seq)))
          ∧ t.m.reg = s.m.reg ∧ t.hbm = s.hbm)
    ∧ (∀ r, s.arrives r (pgDen e) = true → Completes (.denClear r e) s fun t =>
        (t.m.dn e).clearing = true ∧ (t.m.dn e).tile = (s.m.dn e).tile ∧ t.m.reg = s.m.reg ∧ t.hbm = s.hbm)

/-- R316, R319: a publication is complete when its header is written, and DEN_PUB_LAST names its buffer; the spare engine takes
over at the frame boundary, from zero counts, and the ledger gains an entry. -/
def Obligations.PublicationAndSpare : Prop :=
  ∀ (s : State) (e : Fin 8),
    (∀ b, (s.m.dn e).pub = some b → b.headed = false → s.m.net.writes = [] → s.m.enforcing = false → b.header.length = 64 →
      Completes (.published e) s fun t =>
      let r := s.m.region b.region
      t.m.rd (pgDen e) DEN_PUB_LAST.BUF = b.buffer % 2 ^ DEN_PUB_LAST.BUF.width ∧ t.m.rd (pgDen e) DEN_PUB_LAST.VALID = 1
        ∧ t.m.rd (pgDen e) DEN_PUB_SEQ.SEQUENCE = b.seq % 2 ^ DEN_PUB_SEQ.SEQUENCE.width ∧ (t.m.dn e).pub = none
        ∧ (t.m.dn e).newest = some b ∧ t.m.irqBit (pgDen e) 9 = true
        ∧ (r.inside = true → r.holds b.ofs 64 = true → readBytes t.hbm r b.ofs 64 = b.header)
        ∧ KeepsOutside s t r b.ofs (b.ofs + 64) ∧ KeepsPages s t [pgDen e, pgBud, pgSys])
    ∧ (∀ b, (s.m.dn e).pub = some b → b.headed = true → s.m.stretchHeld (s.m.denIsland e) b.region b.ofs b.bytes = false →
      Completes (.published e) s fun t =>
        t.m.rd (pgDen e) DEN_PUB_LAST.BUF = b.buffer % 2 ^ DEN_PUB_LAST.BUF.width ∧ t.m.rd (pgDen e) DEN_PUB_LAST.VALID = 1
          ∧ (t.m.dn e).pub = none ∧ (t.m.dn e).newest = some b ∧ t.m.irqBit (pgDen e) 9 = true ∧ OtherPages s t [pgDen e])
    ∧ (∀ tick, (s.m.dn e).switching = some tick →
      ((s.m.dn e).on = true → tick ≤ s.m.tick ∧ tick ≤ ((s.m.framesAt e (tick - 1)).dn e).next) →
      Completes (.densityEngineSwitch e) s fun t =>
        t.m.denPhys e = 8 ∧ t.m.rd (pgDen e) STATUS.SPARE_IN_USE = 1 ∧ (t.m.dn e).switching = none
          ∧ (t.m.dn e).wipeNext = true ∧ (t.m.dn e).gapNext = true
          ∧ t.m.safety.unsaved.length = s.m.safety.unsaved.length + 1 ∧ OtherPages s t [pgDen e, pgMgt, pgFlt])

/-- R322, R325, R326: the vertical blanking begins the next frame. With no band to compose again, the frame is composed at once
and its picture is what it was; after an aborted frame every band waits to be composed. With no layer enabled, every pixel of a
composed band is the background. -/
def Obligations.Composition : Prop :=
  ∀ s : State, (∀ l : Fin 8, s.m.lv (pgLayer l) LAYER_CFG.TYPE = 0) →
    (s.m.rasterRuns = true → s.m.vblankDue = true → (∀ p ∈ rasterPages, s.m.reg.commits.get none p = none) → s.m.safeAt 30 = false →
      s.m.disp.vblank ≠ none → s.m.disp.aborted = false → s.m.disp.todo = [] → Completes .vblankStart s fun t =>
      t.m.rd pgDisp DISP_FRAME.FRAME = (s.m.rd pgDisp DISP_FRAME.FRAME + 1) % 2 ^ DISP_FRAME.FRAME.width
        ∧ t.m.rd pgDisp DISP_COMPOSED_FRAME.FRAME = t.m.rd pgDisp DISP_FRAME.FRAME % 2 ^ DISP_COMPOSED_FRAME.FRAME.width
        ∧ t.m.disp.pixels = s.m.disp.pixels ∧ t.m.disp.vblank = some s.m.clk.ticks ∧ t.m.disp.sent = 0
        ∧ t.m.disp.still = (if s.m.disp.changed then 0 else s.m.disp.still + 1)
        ∧ t.m.irqBit pgDisp 8 = true ∧ t.m.net = s.m.net
        ∧ KeepsRest s t [fieldKey pgDisp DISP_FRAME.FRAME 0, fieldKey pgDisp DISP_COMPOSED_FRAME.FRAME 0,
            fieldKey pgDisp DISP_LINE.EXTENDED 0, fieldKey pgDisp DISP_RATE.MHZ 0])
    ∧ (s.m.rasterRuns = true → s.m.vblankDue = true → (∀ p ∈ rasterPages, s.m.reg.commits.get none p = none) → s.m.safeAt 30 = false →
      s.m.disp.aborted = true → 0 < s.m.lv pgDisp DISP_V_ACT.ACTIVE → s.m.lv pgDisp DISP_V_ACT.ACTIVE ≤ 2160 →
      Completes .vblankStart s fun t =>
        t.m.disp.aborted = false ∧ t.m.disp.todo = List.range (ceilDiv (s.m.lv pgDisp DISP_V_ACT.ACTIVE) 16)
          ∧ t.m.rd pgDisp DISP_COMPOSED_FRAME.FRAME = s.m.rd pgDisp DISP_COMPOSED_FRAME.FRAME
          ∧ t.m.disp.pixels = s.m.disp.pixels ∧ t.hbm = s.hbm)
    ∧ (∀ band rest, s.m.disp.todo = band :: rest → s.m.disp.work = none → s.m.lv pgDisp DISP_H_ACT.ACTIVE ≤ 4096 →
        (∀ x y, x < s.m.lv pgDisp DISP_H_ACT.ACTIVE → y < s.m.lv pgDisp DISP_V_ACT.ACTIVE → y / 16 = band →
          s.composeTick.m.disp.pixels.get 0 (y * 4096 + x) = s.m.lv pgDisp DISP_BG.RGB)
        ∧ s.composeTick.m.disp.work = some (4 * s.m.clk.ticks) ∧ s.composeTick.m.reg = s.m.reg)

/-- R328–R331: an underrun aborts the frame; a static picture extends the blanking; hot plug reads the EDID and its removal
ends the link; training sets rate and lanes; and IRQ_HPD has no effect on the registers. -/
def Obligations.DisplayLink : Prop :=
  ∀ s : State,
    (∀ line : Fin 8192, s.m.rasterRuns = true → s.m.disp.vblank ≠ none → s.m.safeAt 31 = false → s.m.disp.aborted = false →
      s.m.rasterLine.2 = false → line.val ≤ s.m.rasterLine.1 → s.m.disp.sent = line.val →
      Completes (.underrun line) s fun t =>
        t.m.disp.aborted = true ∧ t.m.rd pgDisp DISP_UNDERRUN.LINE = line.val % 2 ^ DISP_UNDERRUN.LINE.width
          ∧ t.m.rd pgDisp DISP_UNDERRUN.COUNT
            = Nat.min (s.m.rd pgDisp DISP_UNDERRUN.COUNT + 1) (2 ^ DISP_UNDERRUN.COUNT.width - 1)
          ∧ t.m.rd pgDisp DISP_UNDERRUN_FRAME.FRAME = s.m.rd pgDisp DISP_FRAME.FRAME % 2 ^ DISP_UNDERRUN_FRAME.FRAME.width
          ∧ t.m.irqBit pgDisp 9 = true ∧ t.m.reporting 589 ∧ t.m.disp.pixels = s.m.disp.pixels ∧ t.m.disp.todo = []
          ∧ OtherPages s t [pgDisp])
    ∧ (s.m.rasterRuns = true → s.m.inBlank = true → s.m.lv pgDisp DISP_LINK.ADAPTIVE_EN = 1 → s.m.disp.changed = false →
      s.m.rd pgDisp DISP_LINE.EXTENDED = 0 → s.m.lv pgDisp DISP_REFRESH.STATIC_FRAMES ≤ s.m.disp.still →
      Completes .adaptiveExtend s fun t =>
        t.m.rd pgDisp DISP_LINE.EXTENDED = 1 ∧ t.m.irqBit pgDisp 12 = true
          ∧ t.m.disp = { s.m.disp with blank := s.m.floorBlank }
          ∧ KeepsRest s t [fieldKey pgDisp DISP_LINE.EXTENDED 0, fieldKey pgDisp DISP_RATE.MHZ 0])
    ∧ (∀ edid adaptive, s.m.rd pgDisp DISP_LINK_STATUS.HPD = 0 → Completes (.hpdChange true edid adaptive) s fun t =>
        t.m.rd pgDisp DISP_LINK_STATUS.HPD = 1 ∧ t.m.rd pgDisp DISP_LINK_STATUS.SINK_ADAPTIVE = adaptive.toNat
          ∧ (∀ k, k < 1024 → t.m.disp.edid.get 0 k = (edid.getD k 0).toNat) ∧ t.m.irqBit pgDisp 10 = true
          ∧ t.m.irqBit pgDisp 13 = true
          ∧ KeepsRest s t [fieldKey pgDisp DISP_LINK_STATUS.HPD 0, fieldKey pgDisp DISP_LINK_STATUS.SINK_ADAPTIVE 0])
    ∧ (∀ edid adaptive, s.m.rd pgDisp DISP_LINK_STATUS.HPD = 1 → Completes (.hpdChange false edid adaptive) s fun t =>
        t.m.rd pgDisp DISP_LINK_STATUS.HPD = 0 ∧ t.m.rd pgDisp DISP_LINK_STATUS.TRAINED = 0
          ∧ t.m.rd pgDisp DISP_LINK_STATUS.LANES = 0 ∧ t.m.rd pgDisp DISP_LINK_STATUS.SINK_ADAPTIVE = 0
          ∧ t.m.irqBit pgDisp 10 = true ∧ t.m.disp = s.m.disp ∧ OtherPages s t [pgDisp])
    ∧ Completes .irqHpd s (fun t => t = s)
    ∧ (∀ (rate : Fin 4) (lanes : Fin 5), s.m.rd pgDisp DISP_LINK_STATUS.HPD = 1 → s.m.rasterRuns = true →
      rate.val ≤ s.m.lv pgDisp DISP_LINK.MAX_RATE → lanes.val ≤ s.m.lv pgDisp DISP_LINK.MAX_LANES → lanes.val ≠ 3 →
      Completes (.linkTraining rate lanes) s fun t =>
        t.m.rd pgDisp DISP_LINK_STATUS.TRAINED = (if lanes.val = 0 then 0 else 1)
          ∧ t.m.rd pgDisp DISP_LINK_STATUS.RATE = rate.val ∧ t.m.rd pgDisp DISP_LINK_STATUS.LANES = lanes.val
          ∧ t.m.rd pgDisp DISP_LINK_STATUS.TRAINS
            = Nat.min (s.m.rd pgDisp DISP_LINK_STATUS.TRAINS + 1) (2 ^ DISP_LINK_STATUS.TRAINS.width - 1)
          ∧ OtherPages s t [pgDisp])

/-! ## Compression and decompression (spec/11) -/

/-- R337, R339, R346, R348, R350–R352, R359: a job is queued at a busy lane, refused with its reason, or started; payload writes
place the payload at its destination; a stall ends when the output buffer has room; the completion leaves once the input is
consumed and the payload sent; and a lane due for substitution moves to a spare, or fails with none left. -/
def Obligations.Compression : Prop :=
  ∀ (s : State) (l : Fin 32),
    (∀ isl j, s.m.jobIslands l = [isl] → s.m.arrival 24 isl = some (.job l j) → (s.m.lane l).failed = false →
      (s.m.jobRefusal l j = none → (s.m.lane l).run.isSome = true → Completes (.compressionJob l) s fun t =>
        (t.m.lane l).queue = (s.m.lane l).queue ++ [j] ∧ (t.m.lane l).run = (s.m.lane l).run ∧ t.m.reg = s.m.reg ∧ t.hbm = s.hbm)
      ∧ (∀ why, s.m.jobRefusal l j = some why → Completes (.compressionJob l) s fun t =>
        t.m.underWay (s.m.laneIsland l) 24 (.jobDone l j.tag (3 + why)) ∧ t.m.codec = s.m.codec ∧ t.m.reg = s.m.reg
          ∧ t.hbm = s.hbm)
      ∧ (s.m.jobRefusal l j = none → (s.m.lane l).run = none → (s.m.lane l).queue = [] → (s.m.lane l).switching = false →
        j.len ≠ 0 → Completes (.compressionJob l) s fun t =>
          (∃ r, (t.m.lane l).run = some r ∧ r.job = j ∧ r.data = [] ∧ r.used = 0 ∧ r.payload = [] ∧ r.sent = 0)
          ∧ (t.m.lane l).queue = [] ∧ t.m.reg = s.m.reg ∧ t.hbm = s.hbm))
    ∧ (∀ r, r.job.dst < 64 → r.nextOut ≠ 0 → s.m.enforcing = false →
        let g := s.m.region r.job.dst
        let from_ := r.job.dstOfs + r.sent
        (s.laneWrite l r).1 = true
          ∧ (g.inside = true → g.holds from_ r.nextOut = true →
            readBytes (s.laneWrite l r).2.hbm g from_ r.nextOut = (r.payload.drop r.sent).take r.nextOut)
          ∧ KeepsOutside s (s.laneWrite l r).2 g from_ (from_ + r.nextOut)
          ∧ ((s.laneWrite l r).2.m.lane l).run = some { r with sent := r.sent + r.nextOut })
    ∧ (∀ r e, (s.m.lane l).run = some r → (s.m.lane l).stalled = some e → s.m.enforcing = false →
      r.payload.length - (r.sent + r.nextOut) ≤ 16384 → Completes (.laneResume l) s fun t =>
        (t.m.lane l).stalled = none ∧ (t.m.lane l).run = some { r with sent := r.sent + r.nextOut }
          ∧ t.m.rd pgCmp CMP_LANE_STALL.CYCLES l
            = Nat.min (s.m.rd pgCmp CMP_LANE_STALL.CYCLES l + (s.m.clk.ticks - e) / 2) (2 ^ CMP_LANE_STALL.CYCLES.width - 1)
          ∧ KeepsPages s t [pgCmp, pgSys])
    ∧ (∀ r laneFault, (s.m.lane l).run = some r → (s.m.lane l).stalled = none → (s.m.lane l).queue = [] →
      r.job.len ≤ r.used → r.payload.length ≤ r.sent → Completes (.jobCompletion l laneFault) s fun t =>
        (t.m.lane l).run = none
          ∧ t.m.rd64 pgCmp CMP_LANE_IN_LO.BYTES CMP_LANE_IN_HI.BYTES l
            = (s.m.rd64 pgCmp CMP_LANE_IN_LO.BYTES CMP_LANE_IN_HI.BYTES l + r.job.len) % 2 ^ 64
          ∧ t.m.rd64 pgCmp CMP_LANE_OUT_LO.BYTES CMP_LANE_OUT_HI.BYTES l
            = (s.m.rd64 pgCmp CMP_LANE_OUT_LO.BYTES CMP_LANE_OUT_HI.BYTES l + r.payload.length) % 2 ^ 64
          ∧ (laneFault = true → t.m.reporting (728 + (s.m.lane l).phys))
          ∧ (r.job.dst < 64 → t.m.rd pgCmp CMP_LANE_JOBS.JOBS l
            = Nat.min (s.m.rd pgCmp CMP_LANE_JOBS.JOBS l + 1) (2 ^ CMP_LANE_JOBS.JOBS.width - 1))
          ∧ (r.job.dst < 64 → r.job.stream = true →
            t.m.underWay (s.m.laneIsland l) 24 (.jobDone l r.job.tag (if laneFault then 2 else 0)))
          ∧ (r.job.dst < 64 → r.job.stream = false → s.m.codec.results.length < 64 → t.m.codec.results = s.m.codec.results
            ++ [⟨s.m.codec.seq % 65536, l, if laneFault then 2 else 0, r.job.tag, r⟩])
          ∧ (64 ≤ r.job.dst → (t.m.lane l).closing = (s.m.lane l).closing ++ [(r, if laneFault then 2 else 0)]
            ∧ t.m.underWay (s.m.laneIsland l) (if r.job.dst < 128 then 37 + (r.job.dst - 64) else 36)
              (.payload ⟨r.job.tag, r.job.len, r.rawCrc, laneFault, r.poison.isSome, r.unmapped, r.payload⟩))
          ∧ OtherPages s t [pgCmp])
    ∧ (∀ rq, s.arrives rq pgCmp = true → (s.m.lane l).failed = false → s.m.jobRefusal l s.m.cmpJob = none →
      (s.m.lane l).run.isSome = true → Completes (.cmpSwSubmit rq l) s fun t =>
        (t.m.lane l).queue = (s.m.lane l).queue ++ [s.m.cmpJob] ∧ t.m.rd pgCmp CMP_SW_STATUS.LAST_REFUSED = 0
          ∧ KeepsRest s t [fieldKey pgCmp CMP_SW_STATUS.LAST_REFUSED 0])
    ∧ (∀ rq why, s.arrives rq pgCmp = true → (s.m.lane l).failed = false → s.m.jobRefusal l s.m.cmpJob = some why →
      Completes (.cmpSwSubmit rq l) s fun t =>
        t.m.rd pgCmp CMP_SW_STATUS.LAST_REFUSED = 1
          ∧ t.m.rd pgCmp CMP_SW_STATUS.LAST_REASON = why % 2 ^ CMP_SW_STATUS.LAST_REASON.width
          ∧ t.m.irqBit pgCmp 12 = true ∧ t.m.codec = s.m.codec ∧ OtherPages s t [pgCmp])
    ∧ (∀ rq, s.arrives rq pgCmp = true → Completes (.cmpResPop rq) s fun t =>
        t.m.codec.results = s.m.codec.results.drop 1 ∧ t.m.codec.lanes = s.m.codec.lanes ∧ t.m.reg = s.m.reg ∧ t.hbm = s.hbm)
    ∧ ((s.m.lane l).switching = true → (s.m.lane l).run = none → (s.m.lane l).failed = false → (s.m.lane l).queue = [] →
      (∀ inn, s.m.laneSpare l = some inn → Completes (.laneSwitched l) s fun t =>
        (t.m.lane l).phys = inn ∧ (t.m.lane l).switching = false ∧ t.m.rd pgCmp STATUS.SPARE_IN_USE = 1
          ∧ t.m.irqBit pgCmp 10 = true ∧ t.m.safety.unsaved.length = s.m.safety.unsaved.length + 1 ∧ t.hbm = s.hbm)
      ∧ (s.m.laneSpare l = none → Completes (.laneSwitched l) s fun t =>
        (t.m.lane l).failed = true ∧ (t.m.lane l).switching = false ∧ t.m.irqBit pgCmp 11 = true ∧ t.m.reporting 14
          ∧ t.m.reg.regs = s.m.reg.regs ∧ t.hbm = s.hbm))

/-- R353–R358, R360: a decompression job is queued, refused, or started; its output is written; a suspended lane goes on; and
the completion leaves once the decoding is over and its output is written. -/
def Obligations.Decompression : Prop :=
  ∀ (s : State) (l : Fin 8),
    (∀ j, s.m.arrival 24 49 = some (.djob l j) → (s.m.dlane l).failed = false →
      (s.m.djobRefusal l j = none → (s.m.dlane l).run.isSome = true → Completes (.decompressionJob l) s fun t =>
        (t.m.dlane l).queue = (s.m.dlane l).queue ++ [j] ∧ t.m.reg = s.m.reg ∧ t.hbm = s.hbm)
      ∧ (∀ why, s.m.djobRefusal l j = some why → Completes (.decompressionJob l) s fun t =>
        t.m.underWay 49 24 (.djobDone l j.tag (16 + why)) ∧ t.m.codec = s.m.codec ∧ t.m.reg = s.m.reg ∧ t.hbm = s.hbm)
      ∧ (s.m.djobRefusal l j = none → (s.m.dlane l).run = none → (s.m.dlane l).queue = [] → j.len ≠ 0 → j.outLen ≠ 0 →
        Completes (.decompressionJob l) s fun t =>
          (∃ r, (t.m.dlane l).run = some r ∧ r.job = j ∧ r.data = [] ∧ r.output = [] ∧ r.sent = 0 ∧ r.ended = false)
          ∧ t.m.reg = s.m.reg ∧ t.hbm = s.hbm))
    ∧ (∀ r, s.m.enforcing = false → nextPiece r.job.dstOfs r.sent r.output.length ≠ 0 →
      r.sent + nextPiece r.job.dstOfs r.sent r.output.length ≤ 4 * (s.m.clk.ticks - r.since) →
        let g := s.m.region r.job.dst
        let n := nextPiece r.job.dstOfs r.sent r.output.length
        (s.dlaneWrite l r).1 = true
          ∧ (g.inside = true → g.holds (r.job.dstOfs + r.sent) n = true →
            readBytes (s.dlaneWrite l r).2.hbm g (r.job.dstOfs + r.sent) n = (r.output.drop r.sent).take n)
          ∧ KeepsOutside s (s.dlaneWrite l r).2 g (r.job.dstOfs + r.sent) (r.job.dstOfs + r.sent + n)
          ∧ ((s.dlaneWrite l r).2.m.dlane l).run = some { r with sent := r.sent + n })
    ∧ (∀ r, (s.m.dlane l).run = some r → (s.m.dlane l).suspended = true → s.m.enforcing = false →
      Completes (.dcmResume l) s fun t =>
        (t.m.dlane l).suspended = false ∧ (t.m.dlane l).queue = (s.m.dlane l).queue
          ∧ (∃ q, (t.m.dlane l).run = some q ∧ q.job = r.job ∧ q.output = r.output) ∧ KeepsPages s t [pgSys])
    ∧ (∀ r, (s.m.dlane l).run = some r → (s.m.dlane l).suspended = false → (s.m.dlane l).queue = [] → r.ended = true →
      r.output.length ≤ r.sent → Completes (.decompressionCompletion l) s fun t =>
        (t.m.dlane l).run = none
          ∧ t.m.rd64 pgDcm DCM_LANE_OUT_LO.BYTES DCM_LANE_OUT_HI.BYTES l
            = (s.m.rd64 pgDcm DCM_LANE_OUT_LO.BYTES DCM_LANE_OUT_HI.BYTES l + r.output.length) % 2 ^ 64
          ∧ (r.job.stream = true → t.m.underWay 49 24 (.djobDone l r.job.tag r.result))
          ∧ (r.job.stream = false → s.m.codec.dres.length < 64 →
            t.m.codec.dres = s.m.codec.dres ++ [⟨s.m.codec.dseq % 65536, l, r⟩])
          ∧ OtherPages s t [pgDcm])
    ∧ (∀ rq, s.arrives rq pgDcm = true → (s.m.dlane l).failed = false → s.m.djobRefusal l s.m.dcmJob = none →
      (s.m.dlane l).run.isSome = true → Completes (.dcmSwSubmit rq l) s fun t =>
        (t.m.dlane l).queue = (s.m.dlane l).queue ++ [s.m.dcmJob] ∧ t.m.rd pgDcm DCM_SW_STATUS.LAST_REFUSED = 0
          ∧ KeepsRest s t [fieldKey pgDcm DCM_SW_STATUS.LAST_REFUSED 0])
    ∧ (∀ rq why, s.arrives rq pgDcm = true → (s.m.dlane l).failed = false → s.m.djobRefusal l s.m.dcmJob = some why →
      Completes (.dcmSwSubmit rq l) s fun t =>
        t.m.rd pgDcm DCM_SW_STATUS.LAST_REFUSED = 1 ∧ t.m.irqBit pgDcm 12 = true ∧ t.m.codec = s.m.codec
          ∧ OtherPages s t [pgDcm])
    ∧ (∀ rq, s.arrives rq pgDcm = true → Completes (.dcmResPop rq) s fun t =>
        t.m.codec.dres = s.m.codec.dres.drop 1 ∧ t.m.codec.dlanes = s.m.codec.dlanes ∧ t.m.reg = s.m.reg ∧ t.hbm = s.hbm)

/-! ## Streaming to drives (spec/12) -/

/-- R362, R364, R366–R370: presence and the link; a drive is refused with its code or admitted with its ledger record; a poll
shows its health; commands end, fail or time out, and a frame's last one is told to the stream engine; and retirement takes the
drive out of the volume. -/
def Obligations.Drives : Prop :=
  ∀ (s : State) (n : Fin 8), VolumeQuiet s.m →
    (s.m.lv (pgNvp n) NVP_CFG.EN = 1 → s.m.driveState n = 0 → Completes (.presentChange n true none) s fun t =>
      t.m.driveState n = 1 ∧ t.m.irqBit (pgNvp n) 8 = true ∧ KeepsRest s t [fieldKey (pgNvp n) NVP_DRIVE.STATE 0])
    ∧ (∀ (sp : Fin 6) (w : Fin 5), s.m.lv (pgNvp n) NVP_CFG.EN = 1 → s.m.driveState n < 2 → sp.val ≠ 0 →
      w.val = 1 ∨ w.val = 2 ∨ w.val = 4 → Completes (.presentChange n true (some (sp, w))) s fun t =>
        t.m.driveState n = 2 ∧ t.m.rd (pgNvp n) NVP_LINK.UP = 1 ∧ t.m.rd (pgNvp n) NVP_LINK.WIDTH = w.val
          ∧ t.m.rd (pgNvp n) NVP_LINK.SPEED = Nat.min sp.val (s.m.lv (pgNvp n) NVP_CFG.MAX_SPEED)
          ∧ OtherPages s t [pgNvp n])
    ∧ (∀ link, s.m.lv (pgNvp n) NVP_CFG.EN = 1 → s.m.driveState n ≠ 0 → Completes (.presentChange n false link) s fun t =>
        t.m.driveState n = 0 ∧ t.m.rd (pgNvp n) NVP_DRIVE.LEDGER = 255 ∧ t.m.rd (pgNvp n) NVP_LINK.UP = 0
          ∧ (t.m.pt n).info = none ∧ (t.m.pt n).queue = [] ∧ (t.m.pt n).todo = [] ∧ (t.m.pt n).out = []
          ∧ t.m.irqBit (pgNvp n) 8 = true ∧ OtherPages s t [pgNvp n])
    ∧ (∀ d, s.m.driveState n = 2 → s.m.refuses d ≠ 0 → Completes (.driveAdmission n d) s fun t =>
        t.m.driveState n = 4 ∧ t.m.rd (pgNvp n) NVP_DRIVE.REFUSE = s.m.refuses d ∧ t.m.irqBit (pgNvp n) 9 = true
          ∧ t.m.safety = s.m.safety ∧ KeepsRest s t [fieldKey (pgNvp n) NVP_DRIVE.STATE 0, fieldKey (pgNvp n) NVP_DRIVE.REFUSE 0])
    ∧ (∀ d known i, s.m.driveState n = 2 → s.m.refuses d = 0 → s.m.ledgerFor d = some (known, i) → d.crit = 0 →
      d.pctUsed < s.m.rd pgStr STR_RETIRE.PCT → Completes (.driveAdmission n d) s fun t =>
        t.m.driveState n = 3 ∧ t.m.rd (pgNvp n) NVP_DRIVE.LEDGER = i % 2 ^ NVP_DRIVE.LEDGER.width
          ∧ t.m.rd64 (pgNvp n) NVP_NSZE_LO.BLOCKS NVP_NSZE_HI.BLOCKS = d.nsze % 2 ^ 64 ∧ (t.m.pt n).info = some d
          ∧ (t.m.pt n).super0 = parseSuper d.super0
          ∧ (∃ r, t.m.drec i = some r ∧ r.port = n.val ∧ r.pct = d.pctUsed) ∧ OtherPages s t [pgNvp n])
    ∧ (∀ pct crit temp, s.m.driveState n = 3 ∨ s.m.driveState n = 5 →
      (s.m.pt n).polled + s.m.rd pgStr STR_RETIRE.POLL_S * 2000000000 ≤ s.m.clk.ticks → BitVec.toNat crit = 0 →
      BitVec.toNat pct < s.m.rd pgStr STR_RETIRE.PCT → Completes (.healthPoll n pct crit temp) s fun t =>
        t.m.rd (pgNvp n) NVP_HEALTH.PCT_USED = pct.toNat ∧ t.m.rd (pgNvp n) NVP_HEALTH.CRIT = 0
          ∧ t.m.rd (pgNvp n) NVP_HEALTH.TEMP = temp.toNat ∧ t.m.irqBit (pgNvp n) 12 = s.m.irqBit (pgNvp n) 12
          ∧ (t.m.pt n).polled = s.m.clk.ticks
          ∧ KeepsRest s t [fieldKey (pgNvp n) NVP_HEALTH.PCT_USED 0, fieldKey (pgNvp n) NVP_HEALTH.CRIT 0,
              fieldKey (pgNvp n) NVP_HEALTH.TEMP 0])
    ∧ (∀ c rest opcode tag x l, 2 ≤ s.m.driveState n → (s.m.pt n).out = c :: rest → c.cmd.opcode = BitVec.toNat opcode →
      c.owner = .frame tag → (s.m.pt n).placed = x :: l → x.frame.tag = tag → x.cmds = 1 → x.failed = false →
      Completes (.nvmeCommandCompletion n opcode 0 0) s fun t =>
        (t.m.pt n).out = rest ∧ t.m.underWay (37 + n.val) 24 (.frameDone tag) ∧ t.m.reg = s.m.reg ∧ t.hbm = s.hbm)
    ∧ (∀ opcode sct sc, 2 ≤ s.m.driveState n → sct.val ≠ 0 → Completes (.nvmeCommandCompletion n opcode sct sc) s fun t =>
        t.m.rd (pgNvp n) NVP_IO.ERRORS = Nat.min (s.m.rd (pgNvp n) NVP_IO.ERRORS + 1) (2 ^ NVP_IO.ERRORS.width - 1)
          ∧ t.m.rd (pgNvp n) NVP_LAST_ERR.OPCODE = opcode.toNat ∧ t.m.rd (pgNvp n) NVP_LAST_ERR.SCT = sct.val
          ∧ t.m.rd (pgNvp n) NVP_LAST_ERR.SC = sc.toNat ∧ t.m.irqBit (pgNvp n) 10 = true ∧ t.m.reporting (720 + n)
          ∧ OtherPages s t [pgNvp n])
    ∧ (∀ opcode, 2 ≤ s.m.driveState n → (s.m.pt n).out.any (fun c =>
        c.cmd.opcode == BitVec.toNat opcode && decide (c.since + 10000000000 ≤ s.m.clk.ticks)) = true →
      Completes (.nvmeCommandTimeout n opcode) s fun t =>
        t.m.driveState n = 2
          ∧ t.m.rd (pgNvp n) NVP_IO.TIMEOUTS = Nat.min (s.m.rd (pgNvp n) NVP_IO.TIMEOUTS + 1) (2 ^ NVP_IO.TIMEOUTS.width - 1)
          ∧ (t.m.pt n).out = [] ∧ t.m.irqBit (pgNvp n) 11 = true ∧ t.m.reporting (720 + n) ∧ OtherPages s t [pgNvp n])
    ∧ (s.arrives .mgt (pgNvp n) = true → (s.m.pt n).retiring = none → s.m.roleOf n = 2 →
      Completes (.nvpRetire .mgt n) s fun t =>
        t.m.rd pgStr STR_VOL_STATUS.SPARE = 15 ∧ bit (t.m.rd pgStr STR_VOL_STATUS.RETIRED) n = true
          ∧ t.m.irqBit pgStr 10 = true ∧ t.m.irqBit (pgNvp n) 13 = true ∧ t.hbm = s.hbm)
    ∧ (∀ r, r ≠ .mgt → s.arrives r (pgNvp n) = true → Completes (.nvpRetire r n) s fun t =>
        t.m.reg = s.m.reg ∧ t.m.port = s.m.port ∧ t.m.safety = s.m.safety ∧ t.hbm = s.hbm)

/-- R372, R379–R381, R393: a volume command makes the volume BUSY and gives the drives its commands; when the last of them has
completed, RESULT and STATE are its own, and MOUNT has loaded the newest superblock and left no extent open. UNMOUNT ends at once.
A checkpoint writes the superblocks with the next GENERATION, which is in force when the last of its commands has completed. -/
def Obligations.VolumeCommands : Prop :=
  ∀ (s : State) (r : Requester),
    (s.arrives r pgStr = true → s.m.feature 5 = true → VolumeQuiet s.m →
      (∀ read, s.m.streamOpen = true → Completes (.mount r read) s fun t =>
        t.m.rd pgStr STR_VOL_STATUS.RESULT = 2 ∧ t.m.irqBit pgStr 8 = true ∧ t.m.volume = s.m.volume
          ∧ KeepsRest s t [fieldKey pgStr STR_VOL_STATUS.RESULT 0])
      ∧ (∀ read, s.m.streamOpen = false → s.m.admitted ≠ [] → Completes (.mount r read) s fun t =>
          t.m.volState = 1 ∧ t.m.volume.job = some ⟨.mount (some read), false, false, 0⟩
            ∧ (∀ n ∈ s.m.admitted, ∃ c ∈ (t.m.pt n).todo, c.owner = .volume)
            ∧ KeepsRest s t [fieldKey pgStr STR_VOL_STATUS.STATE 0])
      ∧ (∀ read, s.m.streamOpen = false → s.m.admitted = [] → s.m.ioPending = false → Completes (.mount r read) s fun t =>
          t.m.rd pgStr STR_VOL_STATUS.RESULT = 1 ∧ t.m.irqBit pgStr 8 = true ∧ t.m.volState = 0 ∧ t.m.volume = s.m.volume
            ∧ KeepsRest s t [fieldKey pgStr STR_VOL_STATUS.RESULT 0, fieldKey pgStr STR_VOL_STATUS.STATE 0])
      ∧ (s.m.mounted = true → s.m.streamOpen = false → Completes (.unmount r) s fun t =>
          t.m.volState = 0 ∧ t.m.rd pgStr STR_VOL_STATUS.ACTIVE = 0 ∧ t.m.rd pgStr STR_VOL_STATUS.SPARE = 15
            ∧ t.m.rd pgStr STR_VOL_STATUS.RESULT = 0 ∧ t.m.irqBit pgStr 8 = true ∧ OtherPages s t [pgStr])
      ∧ (s.m.mounted = true → s.m.streamOpen = true → Completes (.unmount r) s fun t =>
          t.m.rd pgStr STR_VOL_STATUS.RESULT = 2 ∧ KeepsRest s t [fieldKey pgStr STR_VOL_STATUS.RESULT 0])
      ∧ (s.m.streamOpen = false → s.m.admitted ≠ [] → Completes (.format r) s fun t =>
          t.m.volState = 1 ∧ t.m.volume.job = some ⟨.format, false, false, 2⟩ ∧ t.m.volume.table = []
            ∧ t.m.rd pgStr STR_VOL_GEN.GENERATION = 1
            ∧ (∀ n ∈ s.m.admitted, ∃ c ∈ (t.m.pt n).todo, ∃ b, c.owner = .super 0 b ∧ b.generation = 1 ∧ b.extents = 0)
            ∧ t.hbm = s.hbm)
      ∧ (∀ n : Fin 8, s.m.mounted = true → s.m.driveState n = 3 → s.m.isMember n = false → s.m.newestSuper n = none →
        Completes (.adopt r (n.castLE (by decide))) s fun t =>
          t.m.volState = 1 ∧ t.m.volume.job = some ⟨.adopt n, false, false, s.m.volState⟩ 
            ∧ (∀ i, (s.m.ledgerOf n).map Prod.fst = some i → t.m.roleOf n = 2)
            ∧ (∃ c ∈ (t.m.pt n).todo, ∃ b, c.owner = .super 0 b ∨ c.owner = .super 1 b) ∧ t.hbm = s.hbm))
    ∧ (∀ (n : Fin 8) c opcode, 2 ≤ s.m.driveState n → (s.m.pt n).out = [c] → c.cmd.opcode = BitVec.toNat opcode →
      c.owner = .volume → (s.m.setPt n { s.m.pt n with out := [] }).ioPending = false → s.m.volume.ckpt = none →
      (∀ st, s.m.volume.job = some ⟨.format, false, false, st⟩ → Completes (.nvmeCommandCompletion n opcode 0 0) s fun t =>
        t.m.volume.job = none ∧ t.m.rd pgStr STR_VOL_STATUS.RESULT = 0 ∧ t.m.irqBit pgStr 8 = true
          ∧ t.m.volState = st % 2 ^ STR_VOL_STATUS.STATE.width ∧ OtherPages s t [pgStr])
      ∧ (∀ (k : Fin 8) st, s.m.volume.job = some ⟨.adopt k, false, false, st⟩ →
        Completes (.nvmeCommandCompletion n opcode 0 0) s fun t =>
          t.m.volume.job = none ∧ t.m.sparePort = k.val ∧ t.m.lv pgStr STR_VOL_CFG.SPARE_PORT = k.val
            ∧ bit (t.m.rd pgStr STR_VOL_STATUS.RETIRED) k = false ∧ t.m.rd pgStr STR_VOL_STATUS.RESULT = 0
            ∧ t.m.volState = st % 2 ^ STR_VOL_STATUS.STATE.width ∧ t.m.irqBit pgStr 8 = true ∧ t.hbm = s.hbm)
      ∧ (∀ a b, s.m.volume.job = some ⟨.mount (some a), false, false, 0⟩ →
        s.m.admitted.foldl (fun b n => newer b (s.m.newestSuper n)) none = some b →
        Completes (.nvmeCommandCompletion n opcode 0 0) s fun t =>
          t.m.rd64 pgStr STR_VOL_ID_LO.ID STR_VOL_ID_HI.ID = b.volumeId % 2 ^ 64 ∧ t.m.volume.nextStream = b.nextStream
            ∧ (∀ e ∈ t.m.volume.table, e.state ≠ 1) ∧ t.m.volume.table.length = a.table.length ∧ t.hbm = s.hbm))
    ∧ (s.m.volume.ckpt = none → s.m.volumeUp = true → s.m.powerFailing = false → s.m.volumeDrives ≠ [] →
      s.m.volume.extra = [] → s.m.volume.ckptAt + s.m.lv pgStr STR_VOL_CKPT.MS * 2000000 ≤ s.m.clk.ticks →
      Completes .checkpoint s fun t =>
        (∃ c, t.m.volume.ckpt = some c ∧ c.drives = s.m.volumeDrives ∧ c.gen = s.m.rd pgStr STR_VOL_GEN.GENERATION + 1)
          ∧ t.m.volume.changed = [] ∧ t.m.volume.table = s.m.volume.table ∧ t.m.volume.ckptAt = s.m.clk.ticks
          ∧ t.m.rd pgStr STR_VOL_GEN.GENERATION = s.m.rd pgStr STR_VOL_GEN.GENERATION ∧ t.hbm = s.hbm)
    ∧ (∀ (n : Fin 8) c opcode k, 2 ≤ s.m.driveState n → (s.m.pt n).out = [c] → c.cmd.opcode = BitVec.toNat opcode →
      c.owner = .checkpoint → (s.m.setPt n { s.m.pt n with out := [] }).ioPending = false → s.m.volume.job = none →
      s.m.volume.ckpt = some k → k.phase = 3 → s.m.volume.again = false → Completes (.nvmeCommandCompletion n opcode 0 0) s fun t =>
        t.m.rd pgStr STR_VOL_GEN.GENERATION = k.gen % 2 ^ STR_VOL_GEN.GENERATION.width ∧ t.m.volume.ckpt = none
          ∧ KeepsRest s t [fieldKey pgStr STR_VOL_GEN.GENERATION 0])

/-- R383–R388: a record is divided into chunks with consecutive SEQ; a frame is assigned to the port chosen or to the host, and
its job to a lane; it is placed after the blocks of its extent, and its commands are given to the drive; a written frame counts,
a failed one is reissued; and the stream closes after its last marker and its checkpoint. -/
def Obligations.Streaming : Prop :=
  ∀ s : State,
    (∀ (d : Input) note (k : Fin 16), s.m.arrival (24 + d.val) 24 = some (.recordReady note) →
      s.m.streamOfCap note.capture = some k.val → Completes (.recordReady d) s fun t =>
        let len := note.len
        (t.m.sm k).records = (s.m.sm k).records ++ [⟨note.capture, note.segment, ceilDiv len 1044480⟩]
          ∧ (t.m.sm k).chunks.length = (s.m.sm k).chunks.length + ceilDiv len 1044480
          ∧ t.m.rd pgStr STR_SEQ.SEQ k = (s.m.rd pgStr STR_SEQ.SEQ k + ceilDiv len 1044480) % 2 ^ STR_SEQ.SEQ.width
          ∧ t.m.rd64 pgStr STR_RAW_LO.BYTES STR_RAW_HI.BYTES k
            = (s.m.rd64 pgStr STR_RAW_LO.BYTES STR_RAW_HI.BYTES k + len) % 2 ^ 64
          ∧ KeepsRest s t [fieldKey pgStr STR_SEQ.SEQ k, fieldKey pgStr STR_RAW_LO.BYTES k, fieldKey pgStr STR_RAW_HI.BYTES k])
    ∧ (∀ (k : Fin 16) f rest n, s.m.powerFailing = false → (s.m.sm k).flying = [] → (s.m.sm k).chunks = f :: rest →
      s.m.lv pgStr STR_CFG.DEST k = 0 → s.m.portFor k f.notPort = some n →
      (f.kind ≠ 1 ∨ bit f.flags 0 = false → Completes (.chunkAssign k) s fun t =>
        (t.m.sm k).chunks = rest ∧ (t.m.sm k).flying = [⟨{ f with tag := s.m.volume.tag }, some n, none, false⟩]
          ∧ t.m.underWay 24 (37 + n) (.frame { f with tag := s.m.volume.tag }) ∧ t.m.volume.tag = s.m.volume.tag + 1
          ∧ t.m.reg = s.m.reg ∧ t.hbm = s.hbm)
      ∧ (∀ l, f.kind = 1 → bit f.flags 0 = true → s.m.laneFor k f.notLane = some l → Completes (.chunkAssign k) s fun t =>
        (t.m.sm k).chunks = rest ∧ (t.m.sm k).flying = [⟨{ f with tag := s.m.volume.tag }, some n, some l, false⟩]
          ∧ t.m.underWay 24 (37 + n) (.frame { f with tag := s.m.volume.tag })
          ∧ t.m.underWay 24 (s.m.laneIsland l) (.job l ⟨true, f.region, f.ofs, f.rawLen, 64 + n, 0, s.m.volume.tag, f.act⟩)
          ∧ t.m.reg = s.m.reg ∧ t.hbm = s.hbm))
    ∧ (∀ (k : Fin 16) f rest, s.m.powerFailing = false → (s.m.sm k).flying = [] → (s.m.sm k).chunks = f :: rest →
      s.m.lv pgStr STR_CFG.DEST k = 1 → f.kind ≠ 1 → Completes (.chunkAssign k) s fun t =>
        (t.m.sm k).chunks = rest ∧ (t.m.sm k).flying = [⟨{ f with tag := s.m.volume.tag }, none, none, false⟩]
          ∧ t.m.underWay 24 36 (.hostFrame (s.m.lv pgStr STR_CFG.HOST_QUEUE k) { f with tag := s.m.volume.tag })
          ∧ t.m.reg = s.m.reg ∧ t.hbm = s.hbm)
    ∧ (∀ (n : Fin 8) f rest, s.m.driveState n = 3 → s.m.powerFailing = false → (s.m.pt n).queue = f :: rest → f.kind ≠ 1 →
      (∀ i, (s.m.extentFor n f.streamId ((f.bytes (crc32c f.data) f.data).length / 4096)).map Prod.fst = some i →
        Completes (.framePlacement n) s fun t =>
          (t.m.pt n).queue = rest
            ∧ (∃ x, (t.m.pt n).placed = (s.m.pt n).placed ++ [x] ∧ x.frame = f ∧ x.extent = i ∧ x.failed = false
              ∧ (t.m.pt n).todo = (s.m.pt n).todo
                ++ ((DriveCmd.write x.lba (f.bytes (crc32c f.data) f.data)).split (s.m.xfer n)).map
                  fun c => ⟨c, .frame f.tag, f.act, 0⟩)
            ∧ t.hbm = s.hbm)
      ∧ (s.m.extentFor n f.streamId ((f.bytes (crc32c f.data) f.data).length / 4096) = none →
        Completes (.framePlacement n) s fun t =>
          (t.m.pt n).full = true ∧ (t.m.pt n).queue = rest ∧ (t.m.pt n).todo = (s.m.pt n).todo ∧ t.hbm = s.hbm))
    ∧ (∀ (n : Fin 8) x rest tag e, s.m.arrival (37 + n.val) 24 = some (.frameDone tag) → (s.m.pt n).placed = x :: rest →
      x.frame.tag = tag → (∀ y ∈ rest, y.done = false ∧ y.frame.tag ≠ tag) → (s.m.pt n).retiring = none →
      x.frame.slot < 16 → (s.m.sm x.frame.slot).ended = false → (s.m.sm x.frame.slot).ending = none →
      s.m.volume.table[x.extent]? = some e →
      Completes (.frameDone n) s fun t =>
        (t.m.pt n).placed = rest
          ∧ (∃ e', t.m.volume.table[x.extent]? = some e' ∧ e'.frames = e.frames + 1 ∧ e'.lastSeq = x.frame.seq
            ∧ (e.state ≠ 3 → e'.used = e.used + x.blocks))
          ∧ t.m.rd (pgNvp n) NVP_FRAMES.FRAMES
            = Nat.min (s.m.rd (pgNvp n) NVP_FRAMES.FRAMES + 1) (2 ^ NVP_FRAMES.FRAMES.width - 1)
          ∧ t.m.rd64 pgStr STR_WRITTEN_LO.BYTES STR_WRITTEN_HI.BYTES x.frame.slot
            = (s.m.rd64 pgStr STR_WRITTEN_LO.BYTES STR_WRITTEN_HI.BYTES x.frame.slot + 4096 * x.blocks) % 2 ^ 64
          ∧ (x.frame.kind ≠ 1 → OtherPages s t [pgNvp n, pgStr]))
    ∧ (∀ (n : Fin 8) x e tag, s.m.arrival (37 + n.val) 24 = some (.frameFailed tag) →
      (s.m.pt n).placed.find? (fun x => x.frame.tag == tag) = some x → (s.m.pt n).retiring = none →
      s.m.volume.table[x.extent]? = some e → (∀ y ∈ (s.m.pt n).placed, y.frame.slot < 16) → Completes (.frameFailed n) s fun t =>
        t.m.volume.table[x.extent]? = some { e with state := 3, used := x.lba - e.firstLba, closeTime := s.m.now }
          ∧ (∀ y ∈ (t.m.pt n).placed, y.extent = x.extent → y.lba < x.lba) ∧ t.m.irqBit pgStr 14 = true
          ∧ OtherPages s t [pgStr])
    ∧ (∀ k : Fin 16, (s.m.sm k).ended = true → (s.m.sm k).saved = 3 → Completes (.streamClosed k) s fun t =>
        t.m.rd pgStr STR_STATUS.STATE k = (if (s.m.sm k).ending = some 4 then 3 else 0) ∧ t.m.sm k = StreamSt.init
          ∧ t.m.irqBit pgStr 9 = true ∧ t.hbm = s.hbm)

/-- R392: a stored frame of the stream is rebuilt at its place, and the next SEQ follows; a read that fails ends the readback with
its result, and so does a frame that is not the one expected; the result is then shown. -/
def Obligations.Readback : Prop :=
  ∀ s : State, s.m.volume.read.running = true → s.m.volume.read.waiting = none →
    (s.m.volume.read.result = none →
      (∀ head body tail h payload, s.m.enforcing = false → s.m.holdsSeq s.m.volume.read.seq = true →
        parseFrame (head ++ body ++ tail) = some h → h.payload (head ++ body ++ tail) = some payload → h.seq = s.m.volume.read.seq →
        h.stream = s.m.lv pgStr STR_RB_STREAM.STREAM_ID → h.kind = 1 →
        (s.m.volume.read.first = true → bit h.flags 1 = true) → bit h.flags 0 = false → bit h.flags 2 = false →
        h.recOfs * 4096 + h.rawLen ≤ s.m.lv pgStr STR_RB_SEG_SIZE.SIZE * 4096 →
        Completes (.readbackFrame (some head) body tail true) s fun t =>
          let size := s.m.lv pgStr STR_RB_SEG_SIZE.SIZE * 4096
          let g := s.m.region (s.m.lv pgStr STR_RB_CTRL.DST)
          let from_ := s.m.region (s.m.lv pgStr STR_RB_CTRL.SCRATCH)
          let place := s.m.volume.read.seq % 4 * 1048576
          let ofs := s.m.volume.read.segment * size + h.recOfs * 4096
          t.m.volume.read.seq = s.m.volume.read.seq + 1 ∧ t.m.volume.read.result = none
            ∧ (g.inside = true → g.holds ofs payload.length = true → from_.inside = true → from_.holds place payload.length = true →
              readBytes t.hbm g ofs payload.length = payload)
            ∧ (∀ a, (∀ o, ofs ≤ o → o < ofs + payload.length → g.address o ≠ a) →
              (∀ o, place ≤ o → o < place + payload.length → from_.address o ≠ a) → t.hbm.byte a = s.hbm.byte a)
            ∧ KeepsPages s t [pgBud, pgSys, pgFlt])
      ∧ (∀ head body tail ioOk res, s.m.readFault (head.map (· ++ body ++ tail)) ioOk = some res → 1 < res →
        Completes (.readbackFrame head body tail ioOk) s fun t =>
          t.m.volume.read.result = some (res, s.m.volume.read.seq)
            ∧ t.m.rd pgStr STR_RB_ERR_SEQ.SEQ = s.m.volume.read.seq % 2 ^ STR_RB_ERR_SEQ.SEQ.width ∧ OtherPages s t [pgStr])
      ∧ (∀ data, s.m.holdsSeq s.m.volume.read.seq = true → s.m.readFault data false = some 7))
    ∧ (∀ res q, s.m.volume.read.result = some (res, q) → Completes .rbDone s fun t =>
        t.m.rd pgStr STR_RB_STATUS.RESULT = res % 2 ^ STR_RB_STATUS.RESULT.width ∧ t.m.rd pgStr STR_RB_STATUS.BUSY = 0
          ∧ t.m.irqBit pgStr 13 = true ∧ t.m.volume.read = ReadSt.init
          ∧ KeepsRest s t [fieldKey pgStr STR_RB_STATUS.RESULT 0, fieldKey pgStr STR_RB_STATUS.BUSY 0])

/-! ## Measurement cores (spec/13) -/

/-- R415, R417, R418, R424: the instructions with saturation, and CMP, where the core issues them: the value delivered, the
flags they set, and nothing else. -/
def Obligations.CoreArithmetic : Prop :=
  ∀ (s : State) (q : Issue) (rd rs rt : DReg) (sat : Bool),
    let c := q.core
    let k := s.m.cr c
    Runs q (wordR 0x01 rd rs rt 0 sat) (.add q rd rs rt sat) s (fun t =>
      (t.m.cr c).reg rd = delivered sat (k.sd rs + k.sd rt) ∧ Overflows k (t.m.cr c) sat (k.sd rs + k.sd rt)
        ∧ bit (t.m.cr c).sr 2 = decide (2 ^ 32 ≤ k.d rs + k.d rt) ∧ Plain s t c [rd.val] [0, 1, 2, 3, 4])
    ∧ Runs q (wordR 0x02 rd rs rt 0 sat) (.sub q rd rs rt sat) s (fun t =>
      (t.m.cr c).reg rd = delivered sat (k.sd rs - k.sd rt) ∧ Overflows k (t.m.cr c) sat (k.sd rs - k.sd rt)
        ∧ bit (t.m.cr c).sr 2 = decide (k.d rt ≤ k.d rs) ∧ Plain s t c [rd.val] [0, 1, 2, 3, 4])
    ∧ (∀ imm : BitVec 17, Runs q (wordI 0x03 rd rs imm.toNat sat) (.addi q rd rs imm sat) s fun t =>
      (t.m.cr c).reg rd = delivered sat (k.sd rs + imm.toInt) ∧ Overflows k (t.m.cr c) sat (k.sd rs + imm.toInt)
        ∧ bit (t.m.cr c).sr 2 = decide (2 ^ 32 ≤ k.d rs + (imm.toInt % 4294967296).toNat)
        ∧ Plain s t c [rd.val] [0, 1, 2, 3, 4])
    ∧ (∀ n : Amount, Runs q (wordShift 0 rd rs n sat) (.lsl q rd rs n sat) s fun t =>
      (t.m.cr c).reg rd = delivered sat (k.sd rs * 2 ^ k.amount n) ∧ Overflows k (t.m.cr c) sat (k.sd rs * 2 ^ k.amount n)
        ∧ Plain s t c [rd.val] [0, 1, 3, 4])
    ∧ Runs q (wordR 0x08 rd rs 0 0 sat) (.abs q rd rs sat) s (fun t =>
      (t.m.cr c).reg rd = delivered sat (k.sd rs).natAbs ∧ Overflows k (t.m.cr c) sat (k.sd rs).natAbs
        ∧ Plain s t c [rd.val] [0, 1, 3, 4])
    ∧ Runs q (wordR 0x09 rd rs 0 0 sat) (.neg q rd rs sat) s (fun t =>
      (t.m.cr c).reg rd = delivered sat (-k.sd rs) ∧ Overflows k (t.m.cr c) sat (-k.sd rs)
        ∧ Plain s t c [rd.val] [0, 1, 3, 4])
    ∧ Runs q (wordR 0x0D rd rs rt 0 sat) (.mulf q rd rs rt sat) s (fun t =>
      (t.m.cr c).reg rd = delivered sat ((k.sd rs * k.sd rt + 2 ^ 30) / 2 ^ 31)
        ∧ Overflows k (t.m.cr c) sat ((k.sd rs * k.sd rt + 2 ^ 30) / 2 ^ 31) ∧ Plain s t c [rd.val] [0, 1, 3, 4])
    ∧ (∀ x y : BitVec 32, fits32 ((x.toInt * y.toInt + 2 ^ 30) / 2 ^ 31) = false ↔ x = 0x80000000 ∧ y = 0x80000000)
    ∧ (∀ (acc : Fin 4) (sh : Fin 64), sh.val ≤ 48 →
      Runs q (wordA 0x18 acc rd 0 sh.val sat) (.extr q acc rd sh sat) s fun t =>
        let x := if sh.val = 0 then toSigned 80 (k.accSeen acc) else (toSigned 80 (k.accSeen acc) + 2 ^ (sh.val - 1)) / 2 ^ sh.val
        (t.m.cr c).reg rd = delivered sat x ∧ Overflows k (t.m.cr c) sat x ∧ Plain s t c [rd.val] [0, 1, 3, 4])
    ∧ Runs q (wordR 0x0E rd rs rt 0) (.cmp q rd rs rt) s (fun t =>
      bit (t.m.cr c).sr 3 = !fits32 (k.sd rs - k.sd rt) ∧ Signs (t.m.cr c) (delivered false (k.sd rs - k.sd rt))
        ∧ bit (t.m.cr c).sr 2 = decide (k.d rt ≤ k.d rs) ∧ Plain s t c [] [0, 1, 2, 3])

/-- R418, R424, R426: bitwise operations, shifts to the right, MIN, MAX, MULL, NOP and the moves; EXP, NORM and BEXP on a course
core: where the core issues them, their result, Z and N, and nothing else. -/
def Obligations.CoreLogic : Prop :=
  ∀ (s : State) (q : Issue) (rd rs rt : DReg),
    let c := q.core
    let k := s.m.cr c
    let zn := fun (w : Nat) (i : Instr) (v : Nat) => Runs q w i s fun t =>
      (t.m.cr c).reg rd = v % 2 ^ 32 ∧ Signs (t.m.cr c) v ∧ Plain s t c [rd.val] [0, 1]
    let sets := fun (w : Nat) (i : Instr) (n v : Nat) => Runs q w i s fun t =>
      (t.m.cr c).reg n = v % 2 ^ 32 ∧ Plain s t c [n] []
    zn (wordR 0x04 rd rs rt 0) (.and q rd rs rt) (k.d rs &&& k.d rt)
    ∧ zn (wordR 0x05 rd rs rt 0) (.or q rd rs rt) (k.d rs ||| k.d rt)
    ∧ zn (wordR 0x06 rd rs rt 0) (.xor q rd rs rt) (k.d rs ^^^ k.d rt)
    ∧ (∀ n : Amount, zn (wordShift 1 rd rs n) (.lsr q rd rs n) (k.d rs / 2 ^ k.amount n)
      ∧ zn (wordShift 2 rd rs n) (.asr q rd rs n) (k.sd rs / 2 ^ k.amount n % 4294967296).toNat)
    ∧ zn (wordR 0x0A rd rs rt 0) (.min q rd rs rt) (if k.sd rs ≤ k.sd rt then k.d rs else k.d rt)
    ∧ zn (wordR 0x0B rd rs rt 0) (.max q rd rs rt) (if k.sd rs ≤ k.sd rt then k.d rt else k.d rs)
    ∧ zn (wordR 0x0C rd rs rt 0) (.mull q rd rs rt) (k.d rs * k.d rt % 2 ^ 32)
    ∧ (∀ imm : BitVec 16, zn (wordI 0x10 rd rs imm.toNat) (.ori q rd rs imm) (k.d rs ||| imm.toNat)
      ∧ sets (wordI 0x0F rd 0 imm.toNat) (.lui q rd imm) rd (imm.toNat * 65536))
    ∧ Runs q (wordOp 0 0) (.nop q) s (fun t => Plain s t c [] [])
    ∧ (∀ (dst src : Fin 128), dst.val < 52 → dst.val ≠ 48 → (dst.val = 50 → 16 ≤ c.val) → src.val < 53 →
      Runs q (wordX dst src) (.movx q dst src) s fun t =>
        let v := if src.val = 48 then k.sr else if src.val = 50 ∧ c.val < 16 then 0 else if src.val = 52 then k.pc
          else k.reg src
        (t.m.cr c).reg dst = (if dst.val = 50 then v % 32 else if dst.val = 51 then v / 128 * 128 else v) % 2 ^ 32
          ∧ Plain s t c [dst.val] [])
    ∧ (∀ src : Fin 128, src.val < 48 → Runs q (wordX 48 src) (.movx q 48 src) s fun t =>
        (∀ b ∈ [0, 1, 2, 3, 4, 5, 6, 8, 9, 10, 11, 13], bit (t.m.cr c).sr b = bit (k.reg src) b)
          ∧ bit (t.m.cr c).sr 14 = (if 16 ≤ c.val then bit (k.reg src) 14 else bit k.sr 14)
          ∧ Plain s t c [] [0, 1, 2, 3, 4, 5, 6, 8, 9, 10, 11, 13, 14])
    ∧ (16 ≤ c.val →
      sets (wordR 0x1C rd rs 0 0) (.exp q rd rs) rd (expOf (k.d rs))
        ∧ zn (wordR 0x1D rd rs 0 0) (.norm q rd rs) (k.d rs * 2 ^ expOf (k.d rs) % 2 ^ 32)
        ∧ sets (wordR 0x1E 0 rs 0 0) (.bexpMin q rs) 50 (Nat.min (k.reg 50) (expOf (k.d rs)))
        ∧ sets (wordR 0x1E 0 rs 0 1) (.bexpSet q rs) 50 (expOf (k.d rs)))

/-- R416, R420, R424, R425: accumulations, the product, MOVA and the filter tap. -/
def Obligations.CoreAccumulators : Prop :=
  ∀ (s : State) (q : Issue) (acc : Fin 4) (r rt : DReg),
    let c := q.core
    let k := s.m.cr c
    let sums := fun (w : Nat) (i : Instr) (sat : Bool) (x : Int) => (fits80 x = true ∨ sat = true ∨ bit k.sr 13 = false) →
      Runs q w i s fun t => Accumulates k (t.m.cr c) acc sat x ∧ (t.m.cr c).dmem = k.dmem
        ∧ CoreKeeps k (t.m.cr c) [] [] ∧ Flows k (t.m.cr c) ∧ Issued s t c coreRunning []
    (∀ sat, sums (wordA 0x14 acc r rt 0 sat) (.mac q acc r rt sat) sat (k.accIn acc + k.sd r * k.sd rt)
      ∧ sums (wordA 0x15 acc r rt 0 sat) (.msu q acc r rt sat) sat (k.accIn acc - k.sd r * k.sd rt)
      ∧ (∀ b : Fin 4, sums (wordAccadd acc b sat) (.accadd q acc b sat) sat (k.accIn acc + toSigned 80 (k.accSeen b)))
      ∧ sums (wordA 0x16 acc r rt 0 sat) (.mpy q acc r rt sat) sat (k.sd r * k.sd rt))
    ∧ (∀ sat x w (i : Instr), i = .mac q acc r rt sat ∧ w = wordA 0x14 acc r rt 0 sat ∧ x = k.accIn acc + k.sd r * k.sd rt
        ∨ i = .msu q acc r rt sat ∧ w = wordA 0x15 acc r rt 0 sat ∧ x = k.accIn acc - k.sd r * k.sd rt
        ∨ (∃ b : Fin 4, i = .accadd q acc b sat ∧ w = wordAccadd acc b sat ∧ x = k.accIn acc + toSigned 80 (k.accSeen b))
        ∨ (∃ (j l : Fin 8) (cj cl : Bool), i = .ftap q acc ⟨j, .clean⟩ ⟨l, .clean⟩ cj cl false sat
          ∧ w = wordF acc j l cj cl false sat ∧ c.val < 16 ∧ s.m.armed 1 (s.m.coreUnit c) = 0
          ∧ k.reg (aReg j) % 4 = 0 ∧ k.reg (aReg l) % 4 = 0 ∧ k.reg (aReg j) + 8 ≤ dmemBytes c ∧ k.reg (aReg l) < dmemBytes c
          ∧ x = k.accIn acc + toSigned 32 (k.peek (k.reg (aReg j)) 4) * toSigned 32 (k.peek (k.reg (aReg l)) 4)) →
      fits80 x = false → sat = false → bit k.sr 13 = true → Runs q w i s fun t =>
        t.m.rd (pgCore c) CORE_EXC_PC.PC = k.pc % 2 ^ CORE_EXC_PC.PC.width ∧ t.m.rd (pgCore c) CORE_EXC_INFO.SOURCE = 8
          ∧ (if k.level = 2 then t.m.coreState c = coreFault else (t.m.cr c).exc = some (k.exc.getD 8))
          ∧ bit ((t.m.cr c).settle.regIn k.bank 48) 5 = true
          ∧ (t.m.cr c).acc.get 0 (accKey k.bank acc) = (x % 1208925819614629174706176).toNat)
    ∧ (∀ part : Fin 4, part.val < 3 → Runs q (wordA 0x19 acc r 0 (part.val * 2 ^ 13)) (.movaRead q acc r part) s fun t =>
        let a := k.accSeen acc
        (t.m.cr c).reg r = (if part.val = 0 then a else if part.val = 1 then a / 2 ^ 32
          else (toSigned 16 (a / 2 ^ 64) % 4294967296).toNat) % 2 ^ 32 ∧ Plain s t c [r.val] [])
    ∧ (∀ part : Fin 4, part.val < 3 → Runs q (wordA 0x19 acc r 0 (part.val * 2 ^ 13 + 2 ^ 12)) (.movaWrite q acc r part) s fun t =>
        let a := k.acc.get 0 (accKey k.bank acc)
        (t.m.cr c).acc.get 0 (accKey k.bank acc) = (if part.val = 0 then a / 2 ^ 32 * 2 ^ 32 + k.d r
            else if part.val = 1 then a / 2 ^ 64 * 2 ^ 64 + k.d r * 2 ^ 32 + a % 2 ^ 32
            else k.d r % 65536 * 2 ^ 64 + a % 2 ^ 64)
          ∧ (∀ j, j ≠ accKey k.bank acc → (t.m.cr c).acc.get 0 j = k.acc.get 0 j) ∧ (t.m.cr c).dmem = k.dmem
          ∧ CoreKeeps k (t.m.cr c) [] [] ∧ Flows k (t.m.cr c) ∧ Issued s t c coreRunning [])
    ∧ (∀ (i j : Fin 8) ci cj z sat, c.val < 16 → k.reg (aReg i) % 4 = 0 → k.reg (aReg j) % 4 = 0 →
      k.reg (aReg i) + 8 ≤ dmemBytes c → k.reg (aReg j) < dmemBytes c → s.m.armed 1 (s.m.coreUnit c) = 0 →
      let x := k.peek (k.reg (aReg i)) 4
      let sum := (if z then 0 else k.accIn acc) + toSigned 32 x * toSigned 32 (k.peek (k.reg (aReg j)) 4)
      (fits80 sum = true ∨ sat = true ∨ bit k.sr 13 = false) →
        Runs q (wordF acc i j ci cj z sat) (.ftap q acc ⟨i, .clean⟩ ⟨j, .clean⟩ ci cj z sat) s fun t =>
        Accumulates k (t.m.cr c) acc sat sum ∧ (t.m.cr c).peek (k.reg (aReg i) + 4) 4 = x
          ∧ DataOutside k (t.m.cr c) (k.reg (aReg i) + 4) (k.reg (aReg i) + 8)
          ∧ (i ≠ j → (t.m.cr c).reg (aReg i)
              = ((k.postModify (if ci then 2 else 1) i).1.map fun v => v % 2 ^ 32).getD (k.settle.reg (aReg i))
            ∧ (t.m.cr c).reg (aReg j)
              = ((k.postModify (if cj then 2 else 1) j).1.map fun v => v % 2 ^ 32).getD (k.settle.reg (aReg j)))
          ∧ bit (t.m.cr c).sr 6 = (bit k.settle.sr 6 || (k.postModify (if ci then 2 else 1) i).2
            || (k.postModify (if cj then 2 else 1) j).2)
          ∧ CoreKeeps k (t.m.cr c) [aReg i, aReg j] [6] ∧ Flows k (t.m.cr c) ∧ Issued s t c coreRunning [])

/-- R397, R411, R414, R420, R426: a load shows its word to the instruction after the next; a store writes its bytes at its address
and nowhere else, and tracks BEXPR; both post-modify their address register. A single error is corrected and counted (R399). -/
def Obligations.CoreMemory : Prop :=
  ∀ (s : State) (q : Issue) (d : DReg) (o : MemOp), legalOfs o = true → (s.m.cr q.core).address o < dmemBytes q.core →
    let c := q.core
    let k := s.m.cr c
    let a := k.address o
    let loads := fun (w : Nat) (i : Instr) (v : Nat) (keys : List Nat) (P : State → Prop) => Runs q w i s fun t =>
      (t.m.cr c).settle.reg d = v ∧ (t.m.cr c).load.isSome = true ∧ Modified k (t.m.cr c) o.am o.set
        ∧ CoreKeeps k (t.m.cr c) [aReg o.set] [6] ∧ CoreData k (t.m.cr c) ∧ CoreQueues k (t.m.cr c)
        ∧ (t.m.cr c).pc = k.follow ∧ (t.m.cr c).exc = k.exc ∧ Issued s t c coreRunning keys ∧ P t
    let stores := fun (w : Nat) (i : Instr) (n e : Nat) => Runs q w i s fun t =>
      (t.m.cr c).peek a n = k.d d % 256 ^ n ∧ DataOutside k (t.m.cr c) a (a + n) ∧ (t.m.cr c).acc = k.acc
        ∧ (t.m.cr c).reg 50 = (if 16 ≤ c.val ∧ bit k.sr 14 = true then Nat.min (k.reg 50) e % 2 ^ 32 else k.settle.reg 50)
        ∧ Modified k (t.m.cr c) o.am o.set ∧ CoreKeeps k (t.m.cr c) [aReg o.set, 50] [6] ∧ Flows k (t.m.cr c)
        ∧ Issued s t c coreRunning []
    (s.m.armed 1 (s.m.coreUnit c) = 0 →
      (a % 4 = 0 → loads (wordM 0x20 d o) (.ldW q d o .clean) (k.peek a 4) [] fun _ => True)
      ∧ (a % 2 = 0 → loads (wordM 0x21 d o) (.ldH q d o .clean) (toSigned 16 (k.peek a 2) % 4294967296).toNat [] fun _ => True)
      ∧ (a % 2 = 0 → loads (wordM 0x22 d o) (.ldHu q d o .clean) (k.peek a 2) [] fun _ => True)
      ∧ (a % 4 = 0 → loads (wordM 0x20 d o) (.ldW q d o .single) (k.peek a 4) [fieldKey (pgCore c) CORE_ECC.CORR 0] fun t =>
        t.m.rd (pgCore c) CORE_ECC.CORR = Nat.min (s.m.rd (pgCore c) CORE_ECC.CORR + 1) (2 ^ CORE_ECC.CORR.width - 1)
          ∧ t.m.reporting (s.m.coreSource c)))
    ∧ (a % 4 = 0 → stores (wordM 0x24 d o) (.stW q d o) 4 (expOf (k.d d)))
    ∧ (a % 2 = 0 → stores (wordM 0x25 d o) (.stH q d o) 2
        (expOf (toSigned 16 (k.d d) % 4294967296).toNat - 16))

/-- R7, R8, R402, R405, R408, R428: loads and stores of a core's I/O registers. -/
def Obligations.CoreIo : Prop :=
  ∀ (s : State) (q : Issue) (d : DReg) (o : MemOp) (off : Nat), legalOfs o = true → off < 4096 →
    (s.m.cr q.core).address o = 0x1000000 + off →
    let c := q.core
    let k := s.m.cr c
    let v := k.d d % 2 ^ 32
    let io := fun (keys : List Nat) (P : State → Prop) => Runs q (wordM 0x24 d o) (.stW q d o) s fun t =>
      P t ∧ CoreKeeps k (t.m.cr c) [aReg o.set, 50] [6] ∧ CoreData k (t.m.cr c) ∧ Issued s t c coreRunning keys
    let reg := fun (f : Fld) => io [fieldKey (pgIo c) f 0] fun t =>
      t.m.rd (pgIo c) f = v % 2 ^ f.width ∧ CoreQueues k (t.m.cr c)
    (off % 4 = 0 → ioLow off = false → k.high = [] → ∀ ecc, Runs q (wordM 0x20 d o) (.ldW q d o ecc) s fun t =>
      (t.m.cr c).settle.reg d = s.m.ioWord c off % 2 ^ 32 ∧ CoreKeeps k (t.m.cr c) [aReg o.set] [6]
        ∧ CoreData k (t.m.cr c) ∧ CoreQueues k (t.m.cr c) ∧ Issued s t c coreRunning [])
    ∧ (ioLow off = true → ∀ ecc, Runs q (wordM 0x20 d o) (.ldW q d o ecc) s fun t =>
      (t.m.cr c).settle.reg d = s.m.ioWord c off % 2 ^ 32
        ∧ (t.m.ioRead c (off + 4)).1 = s.m.ioWord c (off + 4) ∧ CoreData k (t.m.cr c) ∧ Issued s t c coreRunning [])
    ∧ (off = 0x004 → if s.m.rdAllowed c (v % 2 ^ 20) then reg IO_INBOX_RD.OFS else io [] fun _ => True)
    ∧ (off = 0x030 → io [] fun t => (t.m.cr c).recs = if bit v 0 then k.recs.tail else k.recs)
    ∧ (off = 0x040 → reg IO_DMA_LOCAL.ADDR) ∧ (off = 0x044 → reg IO_DMA_REGION.REGION) ∧ (off = 0x050 → reg IO_DMA_LEN.LEN)
    ∧ (∀ high, off = 0x048 → k.held = [(0x048, high)] → io [fieldKey (pgIo c) IO_DMA_OFS_LO.OFS 0, fieldKey (pgIo c) IO_DMA_OFS_HI.OFS 0]
        fun t => t.m.rd64 (pgIo c) IO_DMA_OFS_LO.OFS IO_DMA_OFS_HI.OFS = (v + 2 ^ 32 * high) % 2 ^ 64
          ∧ (t.m.cr c).held = [])
    ∧ (off = 0x054 → k.dma.length < 8 → io [] fun t =>
        (t.m.cr c).dma = k.dma ++ [⟨s.m.rd (pgIo c) IO_DMA_LOCAL.ADDR, s.m.rd (pgIo c) IO_DMA_REGION.REGION,
          s.m.rd64 (pgIo c) IO_DMA_OFS_LO.OFS IO_DMA_OFS_HI.OFS, s.m.rd (pgIo c) IO_DMA_LEN.LEN, bit v 8, v % 256⟩])
    ∧ (off = 0x054 → 8 ≤ k.dma.length → io [fieldKey (pgCore c) CORE_DMA_REFUSED.PUSHES 0] fun t =>
        t.m.rd (pgCore c) CORE_DMA_REFUSED.PUSHES
          = Nat.min (s.m.rd (pgCore c) CORE_DMA_REFUSED.PUSHES + 1) (2 ^ CORE_DMA_REFUSED.PUSHES.width - 1)
          ∧ CoreQueues k (t.m.cr c))
    ∧ (off = 0x05C → io [] fun t => (t.m.cr c).done = if bit v 0 then k.done.tail else k.done)
    ∧ (off = 0x068 → k.held = [] → io [fieldKey (pgIo c) IO_TIMER_LO.TIME 0, fieldKey (pgIo c) IO_TIMER_HI.TIME 0] fun t =>
        t.m.rd64 (pgIo c) IO_TIMER_LO.TIME IO_TIMER_HI.TIME = v ∧ (t.m.cr c).timer = true)
    ∧ (off = 0x074 → io [] fun t => ∀ b, bit (t.m.cr c).latched b
        = (bit k.latched b && [3, 4, 5, 6].contains b && !bit v b))
    ∧ (off = 0x078 → reg IO_IRQ_EN.EN) ∧ (off = 0x07C → reg IO_IRQ_LEVEL.L2)
    ∧ (off = 0x080 → bit v 0 = true → io [] fun t => bit (t.m.pendingIrq c) 5 = true)
    ∧ (off = 0x088 → io [fieldKey (pgIo c) IO_MBOX_OUT.DATA 0, fieldKey (pgCore c) CORE_MBOX_OUT.DATA 0] fun t =>
        t.m.rd (pgCore c) CORE_MBOX_OUT.DATA = v ∧ t.m.irqBit (pgCore c) 10 = true)

/-- R412, R413, R426: the formulas of the cores. A circular step stays in its ring; reversal of bits undoes itself; EXP counts the
bits below the sign bit that equal it, so that the shift by it loses nothing and one more would. -/
def Obligations.CoreFormulas : Prop :=
  (∀ (k : CoreSt) (i : Fin 8), k.reg (lReg i) ≠ 0 → k.reg (bReg i) + k.reg (lReg i) ≤ 2 ^ 32 →
    ∃ a, k.postModify 2 i = (some a, false) ∧ k.reg (bReg i) ≤ a ∧ a < k.reg (bReg i) + k.reg (lReg i)
      ∧ ((a : Int) - k.reg (aReg i) - k.sreg (mReg i)) % (k.reg (lReg i) : Int) = 0)
  ∧ (∀ n v : Nat, v < 2 ^ n → revBits n v < 2 ^ n ∧ revBits n (revBits n v) = v)
  ∧ (∀ v : Nat, v < 2 ^ 32 → expOf v ≤ 31 ∧ fits32 (toSigned 32 v * 2 ^ expOf v) = true
    ∧ (v ≠ 0 → v ≠ 4294967295 → fits32 (toSigned 32 v * 2 ^ (expOf v + 1)) = false))

/-- R420, R422, R424, R430, R522: control transfers take effect after the next instruction; WAIT and BKPT. -/
def Obligations.CoreTransfers : Prop :=
  ∀ (s : State) (q : Issue),
    let c := q.core
    let k := s.m.cr c
    let transfer := fun (w : Nat) (i : Instr) => (∃ (cond : Fin 16) (ofs : Int), i = .b q cond ofs ∧ w = wordB 0x28 cond ofs)
      ∨ (∃ ofs, i = .call q ofs ∧ w = wordB 0x29 0 ofs) ∨ (∃ a : Fin 8, i = .jr q a ∧ w = wordOp 0x2A (a.val * 2 ^ 21))
      ∨ (∃ (d : DReg) (ofs : Int), i = .dbnz q d ofs ∧ w = wordB 0x2B d ofs) ∨ (i = .rti q ∧ w = wordOp 0x2C 0)
      ∨ (i = .wait q ∧ w = wordOp 0x30 0)
    let goes := fun (w : Nat) (i : Instr) (taken : Bool) (target : Nat) (regs : List (Nat × Nat)) => Runs q w i s fun t =>
      (t.m.cr c).pc = (k.pc + 4) % 2 ^ 32 ∧ (t.m.cr c).after = some (.jump (if taken then target % 2 ^ 32 else (k.pc + 8) % 2 ^ 32))
        ∧ (∀ r ∈ regs, (t.m.cr c).reg r.1 = r.2) ∧ (t.m.cr c).exc = k.exc ∧ CoreKeeps k (t.m.cr c) (regs.map Prod.fst) []
        ∧ CoreData k (t.m.cr c) ∧ CoreQueues k (t.m.cr c) ∧ Issued s t c coreRunning []
    (k.after = none →
      (∀ (cond : Fin 16) (ofs : Int) take, condition cond k.sr = some take →
        goes (wordB 0x28 cond ofs) (.b q cond ofs) take ((k.pc + 4 * ofs) % 4294967296).toNat [])
      ∧ (∀ ofs : Int, goes (wordB 0x29 0 ofs) (.call q ofs) true ((k.pc + 4 * ofs) % 4294967296).toNat [(22, (k.pc + 8) % 2 ^ 32)])
      ∧ (∀ i : Fin 8, goes (wordOp 0x2A (i.val * 2 ^ 21)) (.jr q i) true (k.reg (aReg i)) [])
      ∧ (∀ (d : DReg) (ofs : Int), goes (wordB 0x2B d ofs) (.dbnz q d ofs) ((k.d d + 4294967295) % 2 ^ 32 != 0)
          ((k.pc + 4 * ofs) % 4294967296).toNat [(d.val, (k.d d + 4294967295) % 2 ^ 32)])
      ∧ Runs q (wordOp 0x2C 0) (.rti q) s (fun t => (t.m.cr c).pc = (k.pc + 4) % 2 ^ 32 ∧ (t.m.cr c).after = some (.rti k.level)
          ∧ CoreKeeps k (t.m.cr c) [] [] ∧ CoreData k (t.m.cr c) ∧ CoreQueues k (t.m.cr c) ∧ Issued s t c coreRunning [])
      ∧ Runs q (wordOp 0x30 0) (.wait q) s (fun t => CoreKeeps k (t.m.cr c) [] [] ∧ CoreData k (t.m.cr c) ∧ Flows k (t.m.cr c)
          ∧ Issued s t c coreWaiting []))
    ∧ (∀ (w : Nat) (i : Instr), ((k.after ≠ none ∧ transfer w i)
        ∨ (∃ (cond : Fin 16) (ofs : Int), i = .b q cond ofs ∧ w = wordB 0x28 cond ofs ∧ 13 ≤ cond.val)
        ∨ (∃ acc d, (i = .movaRead q acc d 3 ∧ w = wordA 0x19 acc d 0 (3 * 2 ^ 13))
          ∨ (i = .movaWrite q acc d 3 ∧ w = wordA 0x19 acc d 0 (3 * 2 ^ 13 + 2 ^ 12)))
        ∨ (∃ acc d sh sat, i = .extr q acc d sh sat ∧ w = wordA 0x18 acc d 0 sh.val sat ∧ 48 < sh.val)
        ∨ (∃ dst src, i = .movx q dst src ∧ w = wordX dst src ∧ (52 ≤ dst.val ∨ 53 ≤ src.val ∨ (dst.val = 50 ∧ c.val < 16)))
        ∨ (c.val < 16 ∧ ∃ d e, (i = .exp q d e ∧ w = wordR 0x1C d e 0 0) ∨ (i = .norm q d e ∧ w = wordR 0x1D d e 0 0)
          ∨ (i = .bexpMin q d ∧ w = wordR 0x1E 0 d 0 0) ∨ (i = .bexpSet q d ∧ w = wordR 0x1E 0 d 0 1))
        ∨ (16 ≤ c.val ∧ ∃ acc j l cj cl z sat, i = .ftap q acc j l cj cl z sat ∧ w = wordF acc j.reg l.reg cj cl z sat)
        ∨ (s.m.rd pgDbg DBG_CORE_CTRL.BKPT_EN c ≠ 1 ∧ ∃ code : BitVec 16, i = .bkpt q code ∧ w = wordOp 0x3F code.toNat)) →
      Runs q w i s fun t => Traps s t c 9)
    ∧ (∀ code : BitVec 16, s.m.rd pgDbg DBG_CORE_CTRL.BKPT_EN c = 1 →
      Runs q (wordOp 0x3F code.toNat) (.bkpt q code) s fun t =>
        (t.m.cr c).dbg.bkpt = true ∧ CoreKeeps k (t.m.cr c) [] [] ∧ CoreData k (t.m.cr c) ∧ Flows k (t.m.cr c)
          ∧ Issued s t c coreRunning [])
    ∧ (∀ w i level, s.m.canIssue c = true → k.pc % 4 = 0 → k.pc < 0x40000 → k.after = some (.rti level) →
      k.imem.get 0 k.pc = w → q.fetch = .clean → transfer w i → Completes i s fun t =>
        t.m.rd (pgCore c) CORE_EXC_INFO.SOURCE = 9 ∧ t.m.rd (pgCore c) CORE_EXC_PC.PC = k.pc
          ∧ CoreData k (t.m.cr c) ∧ (∀ b n, n ≠ 48 → n ≠ 23 → (t.m.cr c).regIn b n = k.settle.regIn b n))

/-- R398, R399, R427, R432: an access that is misaligned or not served, and a fetch outside instruction memory, raise MEM_FAULT with
the address and have no effect; so do a load and a fetch whose word holds a double error; a word that spells no instruction raises
ILLEGAL. -/
def Obligations.CoreFaults : Prop :=
  ∀ (s : State) (q : Issue) (d : DReg) (o : MemOp),
    let c := q.core
    let k := s.m.cr c
    let a := k.address o
    let traps := fun (w : Nat) (i : Instr) =>
      Runs q w i s fun t => Traps s t c 10 ∧ t.m.rd (pgCore c) CORE_EXC_ADDR.ADDR = a % 2 ^ 32
    let spoilt := fun (t : State) (a : Nat) =>
      t.m.rd (pgCore c) CORE_EXC_ADDR.ADDR = a ∧ t.m.rd (pgCore c) CORE_EXC_INFO.SOURCE = 10
        ∧ t.m.rd (pgCore c) CORE_ECC.UNCORR
          = Nat.min (s.m.rd (pgCore c) CORE_ECC.UNCORR + 1) (2 ^ CORE_ECC.UNCORR.width - 1)
        ∧ t.m.reporting (s.m.coreSource c) ∧ (t.m.cr c).exc = some (k.exc.getD 10)
        ∧ CoreKeeps k (t.m.cr c) [] [] ∧ CoreData k (t.m.cr c)
    (legalOfs o = true →
      (dataOk c a 4 = false → traps (wordM 0x20 d o) (.ldW q d o .clean) ∧ traps (wordM 0x24 d o) (.stW q d o))
      ∧ (dataOk c a 2 = false → traps (wordM 0x21 d o) (.ldH q d o .clean) ∧ traps (wordM 0x22 d o) (.ldHu q d o .clean)
        ∧ traps (wordM 0x25 d o) (.stH q d o))
      ∧ (a % 4 = 0 → a < dmemBytes c → k.level ≠ 2 →
        Runs q (wordM 0x20 d o) (.ldW q d o .double) s fun t => spoilt t a))
    ∧ (∀ (i j : Fin 8) ci cj z sat, c.val < 16 → dataOk c (k.reg (aReg i)) 4 = false →
      Runs q (wordF 0 i j ci cj z sat) (.ftap q 0 ⟨i, .clean⟩ ⟨j, .clean⟩ ci cj z sat) s fun t =>
        Traps s t c 10 ∧ t.m.rd (pgCore c) CORE_EXC_ADDR.ADDR = k.reg (aReg i) % 2 ^ 32)
    ∧ (s.ready c = true → k.imem.get 0 k.pc = 0 → q.fetch = .double → k.level ≠ 2 →
      Completes (.nop q) s fun t => spoilt t k.pc)
    ∧ (∀ i, i = .nop q ∨ i = .add q d d d false ∨ i = .stW q d o ∨ i = .call q 0 →
      (s.m.canIssue c = true → (∀ level, k.after ≠ some (.rti level)) → ¬(k.pc % 4 = 0 ∧ k.pc < 0x40000) → k.pc < 2 ^ 32 →
        Completes i s fun t => Traps s t c 10 ∧ t.m.rd (pgCore c) CORE_EXC_ADDR.ADDR = k.pc)
      ∧ (s.ready c = true → q.fetch = .clean → wordSpelt (k.imem.get 0 k.pc) = false →
        Completes i s fun t => Traps s t c 9))

/-- R429–R432: the entries, what they save and where they go, and the returns after the slot of an RTI. -/
def Obligations.CoreInterrupts : Prop :=
  ∀ (s : State) (c : CoreNo), s.m.atBoundary c = true → s.m.debugDue c = false → s.m.stopDue c = false →
    let k := s.m.cr c
    (∀ i, s.m.level2Due c = none → s.m.level1Due c = some i → Completes (.interruptLevel1 c) s fun t =>
      let k' := t.m.cr c
      k'.reg 49 = k.pc % 2 ^ 32 ∧ k'.bank = true ∧ k'.pc = (k.complete.reg 51 + 8 * i) % 2 ^ 32 ∧ k'.level = 1
        ∧ bit k'.sr 8 = false ∧ bit k'.sr 9 = bit (k.complete.regIn false 48) 9 ∧ bit k'.sr 12 = true
        ∧ (∀ b n, n ≠ 49 → ¬(b = true ∧ n = 48) → k'.regIn b n = k.complete.regIn b n)
        ∧ CoreData k k' ∧ k'.load = none ∧ t.m.coreState c = coreRunning ∧ (∀ j, j ≠ c.val → t.m.cr j = s.m.cr j)
        ∧ KeepsRest s t [fieldKey (pgCore c) CORE_STATUS.STATE 0, fieldKey (pgCore c) CORE_BUSY_LO.CYCLES 0,
            fieldKey (pgCore c) CORE_BUSY_HI.CYCLES 0])
    ∧ (∀ i, s.m.level2Due c = some i → (k.complete.reg 23 + 4294967288) % 2 ^ 32 % 4 = 0 →
      (k.complete.reg 23 + 4294967288) % 2 ^ 32 + 8 ≤ dmemBytes c → Completes (.interruptLevel2 c) s fun t =>
        let k' := t.m.cr c
        let sp := (k.complete.reg 23 + 4294967288) % 2 ^ 32
        k'.peek (sp + 4) 4 = k.pc % 2 ^ 32 ∧ k'.peek sp 4 = k.complete.sr ∧ k'.reg 23 = sp ∧ k'.level = 2
          ∧ bit k'.sr 9 = false ∧ k'.bank = k.bank ∧ k'.pc = (k.complete.reg 51 + 8 * i) % 2 ^ 32 ∧ k'.exc = none
          ∧ (∀ n, n ≠ 23 → n ≠ 48 → k'.reg n = k.complete.reg n) ∧ DataOutside k k' sp (sp + 8) ∧ k'.acc = k.acc
          ∧ t.m.coreState c = coreRunning ∧ (∀ j, j ≠ c.val → t.m.cr j = s.m.cr j)
          ∧ KeepsRest s t [fieldKey (pgCore c) CORE_STATUS.STATE 0, fieldKey (pgCore c) CORE_BUSY_LO.CYCLES 0,
              fieldKey (pgCore c) CORE_BUSY_HI.CYCLES 0])
    ∧ (∀ i, s.m.level2Due c = some i → dataOk c ((k.complete.reg 23 + 4294967288) % 2 ^ 32) 4 = false →
      Completes (.interruptLevel2 c) s fun t =>
        t.m.coreState c = coreFault ∧ t.m.rd (pgCore c) CORE_EXC_INFO.DOUBLE = 1
          ∧ t.m.rd (pgCore c) CORE_EXC_INFO.SOURCE = 10 ∧ t.m.reporting (s.m.coreSource c) ∧ CoreData k (t.m.cr c))

/-- R430, R431: the instruction in the slot of an RTI executes, and the program resumes where the entry left it. -/
def Obligations.CoreReturns : Prop :=
  ∀ (s : State) (q : Issue), s.m.canIssue q.core = true → (s.m.cr q.core).pc % 4 = 0 → (s.m.cr q.core).pc < 0x40000 →
    (s.m.cr q.core).imem.get 0 (s.m.cr q.core).pc = wordOp 0 0 → q.fetch = .clean →
    let c := q.core
    let k := s.m.cr c
    (k.after = some (.rti 1) → Completes (.nop q) s fun t =>
      (t.m.cr c).pc = k.settle.reg 49 ∧ (t.m.cr c).bank = false ∧ (t.m.cr c).after = none
        ∧ (∀ b n, n ≠ 48 → (t.m.cr c).regIn b n = k.settle.regIn b n) ∧ CoreData k (t.m.cr c))
    ∧ (k.after = some (.rti 2) → k.settle.reg 23 % 4 = 0 → k.settle.reg 23 + 8 ≤ dmemBytes c →
      q.stack = .clean → s.m.armed 1 (s.m.coreUnit c) = 0 → Completes (.nop q) s fun t =>
      let sp := k.settle.reg 23
      (t.m.cr c).pc = k.peek (sp + 4) 4 ∧ (t.m.cr c).bank = bit (k.peek sp 4) 12 ∧ (t.m.cr c).reg 23 = (sp + 8) % 2 ^ 32
        ∧ (∀ b ∈ [0, 1, 2, 3, 4, 5, 6, 8, 9, 10, 11, 12, 13], bit (t.m.cr c).sr b = bit (k.peek sp 4) b)
        ∧ (t.m.cr c).after = none ∧ (∀ b n, n ≠ 48 → n ≠ 23 → (t.m.cr c).regIn b n = k.settle.regIn b n)
        ∧ CoreData k (t.m.cr c))

/-- R401–R403, R405, R406, R428: outputs and role changes become inbox entries or are dropped whole and counted; notices enter the
record FIFO; a descriptor moves its bytes and completes; the timer matches once; a mailbox word arrives. -/
def Obligations.CoreInputs : Prop :=
  ∀ (s : State) (c : CoreNo),
    let k := s.m.cr c
    (∀ (src : Cluster) kind brick epoch info item,
      (s.m.arrival (8 + src.val) (s.m.coreIsl c)).bind (inboxItem c) = some (kind, brick, epoch, info, item) →
      (s.m.coreIsl c ≠ coreIsland c → s.m.inboxTake c src (coreIsland c) = none) →
      s.m.coreState c ≠ coreFailed → s.m.lv (pgCore c) CORE_INBOX.EN = 1 →
      let size := 16 + nextMultiple item.length 16
      let n := s.m.inboxSize c
      (size ≤ n - (s.m.inboxWr c + n - s.m.inboxRd c) % n - 16 → n ≤ 1048576 → Completes (.inboxEntry c src) s fun t =>
        t.m.inboxWr c = (s.m.inboxWr c + size) % n ∧ (t.m.cr c).seq = (k.seq + 1) % 2 ^ 32 ∧ (t.m.cr c).dropped = 0
          ∧ (∀ i, i < size → Store.get 0 (t.m.cr c).dmem (s.m.lv (pgCore c) CORE_INBOX.BASE + (s.m.inboxWr c + i) % n)
            = (pad size (leBytes 1 kind ++ leBytes 1 brick ++ leBytes 1 epoch ++ leBytes 1 info ++ leBytes 4 item.length
              ++ leBytes 4 k.dropped ++ leBytes 4 k.seq ++ item))[i]?.getD 0)
          ∧ (∀ a, (∀ i, i < size → s.m.lv (pgCore c) CORE_INBOX.BASE + (s.m.inboxWr c + i) % n ≠ a) →
            Store.get 0 (t.m.cr c).dmem a = Store.get 0 k.dmem a)
          ∧ CoreQueues k (t.m.cr c) ∧ KeepsRest s t [fieldKey (pgIo c) IO_INBOX_WR.OFS 0])
      ∧ (n - (s.m.inboxWr c + n - s.m.inboxRd c) % n - 16 < size → Completes (.inboxEntry c src) s fun t =>
        t.m.rd (pgCore c) CORE_INBOX_DROPS.ENTRIES
            = Nat.min (s.m.rd (pgCore c) CORE_INBOX_DROPS.ENTRIES + 1) (2 ^ CORE_INBOX_DROPS.ENTRIES.width - 1)
          ∧ t.m.irqBit (pgCore c) 12 = true ∧ (t.m.cr c).dropped = k.dropped + 1 ∧ bit (t.m.pendingIrq c) 6 = true
          ∧ CoreData k (t.m.cr c) ∧ KeepsRest s t [fieldKey (pgCore c) CORE_INBOX_DROPS.ENTRIES 0]))
    ∧ (∀ (d : Input) n, s.m.arrival (24 + d.val) (s.m.coreIsl c) = some (.record n c) → s.m.coreState c ≠ coreFailed →
      (s.m.coreIsl c ≠ coreIsland c → s.m.noticeTake c (24 + d.val) (coreIsland c) = none) →
      (k.recs.length < 16 → Completes (.recordNotice c d) s fun t =>
        (t.m.cr c).recs = k.recs ++ [n] ∧ (t.m.cr c).latched = k.latched ∧ CoreData k (t.m.cr c) ∧ KeepsRest s t [])
      ∧ (16 ≤ k.recs.length → Completes (.recordNotice c d) s fun t =>
        (t.m.cr c).recs = k.recs ∧ t.m.irqBit (pgCore c) 13 = true ∧ bit (t.m.pendingIrq c) 6 = true
          ∧ t.m.rd (pgCore c) CORE_REC_LOST.NOTICES
            = Nat.min (s.m.rd (pgCore c) CORE_REC_LOST.NOTICES + 1) (2 ^ CORE_REC_LOST.NOTICES.width - 1)
          ∧ KeepsRest s t [fieldKey (pgCore c) CORE_REC_LOST.NOTICES 0]))
    ∧ (∀ d rest ecc, k.dma = d :: rest → k.done.length < 8 →
      (∀ status, dmaCheck c d = some status → Completes (.dmaCompletion c ecc) s fun t =>
        (t.m.cr c).dma = rest ∧ (t.m.cr c).done = k.done ++ [(status, d.tag)] ∧ CoreData k (t.m.cr c) ∧ KeepsRest s t [])
      ∧ (dmaCheck c d = none → (s.m.region d.region).holds d.ofs d.len = true → ecc = .clean → s.m.dmaReady c d.len = true →
        (s.m.letThrough (7168 + c) (s.m.lv (pgCore c) ACTIVITY_ID.ACTIVITY) (s.m.dmaMsgs c d.region d.ofs d.len d.out)).1 = true →
        (d.out = true → s.m.armed 1 (s.m.coreUnit c) = 0 → Completes (.dmaCompletion c ecc) s fun t =>
          (t.m.cr c).dma = rest ∧ (t.m.cr c).done = k.done ++ [(0, d.tag)] ∧ CoreData k (t.m.cr c)
            ∧ ((s.m.region d.region).inside = true → ∀ i, i < d.len →
              (readBytes t.hbm (s.m.region d.region) (d.ofs + i) 1) = [Store.get 0 k.dmem (d.addr + i)])
            ∧ KeepsOutside s t (s.m.region d.region) d.ofs (d.ofs + d.len) ∧ t.m.reg = s.m.reg)
        ∧ (d.out = false → (∀ st, s.m.armed 0 st = 0) → poisoned s.hbm (s.m.region d.region) d.ofs d.len = false →
          Completes (.dmaCompletion c ecc) s fun t =>
          (t.m.cr c).dma = rest ∧ (t.m.cr c).done = k.done ++ [(0, d.tag)]
            ∧ (∀ i, i < d.len → some (Store.get 0 (t.m.cr c).dmem (d.addr + i))
              = (readBytes s.hbm (s.m.region d.region) d.ofs d.len)[i]?)
            ∧ DataOutside k (t.m.cr c) d.addr (d.addr + d.len) ∧ (t.m.cr c).acc = k.acc ∧ t.m.reg = s.m.reg ∧ t.hbm = s.hbm)))
    ∧ (k.timer = true → s.m.rd64 (pgIo c) IO_TIMER_LO.TIME IO_TIMER_HI.TIME ≤ s.m.ioTime c → Completes (.ioTimerMatch c) s fun t =>
        (t.m.cr c).timer = false ∧ bit (t.m.pendingIrq c) 3 = true ∧ CoreData k (t.m.cr c) ∧ KeepsRest s t [])
    ∧ (∀ (r : Requester) (v : Word), s.arrives r (pgCore c) = true → Completes (.coreMboxIn r c v) s fun t =>
        t.m.rd (pgCore c) CORE_MBOX_IN.DATA = v.toNat ∧ bit (t.m.pendingIrq c) 4 = true ∧ CoreData k (t.m.cr c)
          ∧ KeepsRest s t [fieldKey (pgCore c) CORE_MBOX_IN.DATA 0])

/-- R433–R437: RESTART, RESUME, HALT and its boundary, the memory window, a boot, and the move to the spare core. -/
def Obligations.CoreRunning : Prop :=
  ∀ (s : State) (r : Requester) (c : CoreNo),
    let k := s.m.cr c
    (s.arrives r (pgCore c) = true →
      (s.m.coreState c = coreHaltedSt ∨ s.m.coreState c = coreFault → Completes (.restart r c) s fun t =>
        t.m.coreState c = coreRunning ∧ (t.m.cr c).pc = s.m.rd (pgCore c) CORE_ENTRY.ADDR / 4 * 4 ∧ (t.m.cr c).sr = 0
          ∧ (t.m.cr c).bank = false ∧ (t.m.cr c).level = 0 ∧ (t.m.cr c).exc = none ∧ CoreData k (t.m.cr c)
          ∧ (∀ b n, n ≠ 48 → (t.m.cr c).regIn b n = k.complete.regIn b n)
          ∧ KeepsRest s t [fieldKey (pgCore c) CORE_STATUS.STATE 0])
      ∧ (s.m.coreState c = coreHaltedSt → Completes (.resume r c) s fun t =>
        t.m.coreState c = coreRunning ∧ (t.m.cr c).pc = k.pc ∧ (t.m.cr c).regs = k.regs ∧ CoreData k (t.m.cr c)
          ∧ KeepsRest s t [fieldKey (pgCore c) CORE_STATUS.STATE 0])
      ∧ (s.m.coreActive c = true → Completes (.halt r c) s fun t =>
        (t.m.cr c).haltReq = true ∧ (t.m.cr c).pc = k.pc ∧ (t.m.cr c).regs = k.regs ∧ CoreData k (t.m.cr c)
          ∧ t.m.reg = s.m.reg ∧ t.hbm = s.hbm)
      ∧ (∀ i, (i = .restart r c ∧ s.m.coreState c ≠ coreHaltedSt ∧ s.m.coreState c ≠ coreFault)
          ∨ (i = .resume r c ∧ s.m.coreState c ≠ coreHaltedSt) ∨ (i = .halt r c ∧ s.m.coreActive c = false) →
        Completes i s fun t => t.m.core = s.m.core ∧ t.m.reg = s.m.reg ∧ t.hbm = s.hbm)
      ∧ (∀ v : Word, s.m.memOpen c = true → s.m.rd (pgCore c) CORE_MEM_SEL.SPACE = 0 →
        s.m.rd (pgCore c) CORE_MEM_SEL.ADDR < 0x40000 → Completes (.coreMemData r c (some v)) s fun t =>
          (t.m.cr c).imem.get 0 (s.m.rd (pgCore c) CORE_MEM_SEL.ADDR / 4 * 4) = v.toNat ∧ CoreData k (t.m.cr c)
            ∧ t.m.rd (pgCore c) CORE_MEM_SEL.ADDR = (if s.m.rd (pgCore c) CORE_MEM_SEL.AUTO_INC = 1
                then (s.m.rd (pgCore c) CORE_MEM_SEL.ADDR + 4) % 2 ^ CORE_MEM_SEL.ADDR.width
                else s.m.rd (pgCore c) CORE_MEM_SEL.ADDR)
            ∧ KeepsRest s t [fieldKey (pgCore c) CORE_MEM_SEL.ADDR 0])
      ∧ (∀ v : Word, s.m.memOpen c = true → s.m.rd (pgCore c) CORE_MEM_SEL.SPACE = 1 →
        s.m.rd (pgCore c) CORE_MEM_SEL.ADDR < dmemBytes c → Completes (.coreMemData r c (some v)) s fun t =>
          (t.m.cr c).peek (s.m.rd (pgCore c) CORE_MEM_SEL.ADDR / 4 * 4) 4 = v.toNat ∧ (t.m.cr c).imem = k.imem
            ∧ DataOutside k (t.m.cr c) (s.m.rd (pgCore c) CORE_MEM_SEL.ADDR / 4 * 4)
              (s.m.rd (pgCore c) CORE_MEM_SEL.ADDR / 4 * 4 + 4)
            ∧ KeepsRest s t [fieldKey (pgCore c) CORE_MEM_SEL.ADDR 0])
      ∧ (∀ v, s.m.memOpen c = false → Completes (.coreMemData r c v) s fun t =>
          (v = none → t.m.reg.answer.get 0 (requesterKey r) = 0) ∧ (t.m.cr c).imem = k.imem ∧ CoreData k (t.m.cr c)
            ∧ KeepsRest s t [fieldKey (pgCore c) CORE_MEM_SEL.ADDR 0])
      ∧ (s.m.armed 1 (s.m.coreUnit c) = 0 → Completes (.coreMemData r c none) s fun t =>
          t.m.reg.answer.get 0 (requesterKey r) = s.m.windowWord c ∧ (t.m.cr c).imem = k.imem ∧ CoreData k (t.m.cr c)
            ∧ KeepsRest s t [fieldKey (pgCore c) CORE_MEM_SEL.ADDR 0])
      ∧ (s.m.rd (pgCore c) CORE_BOOT_STATUS.STATE ≠ 1 → Completes (.bootGo r c) s fun t =>
          let len := s.m.rd (pgCore c) CORE_BOOT_LEN.LEN
          let result := if s.m.memOpen c = false then 5 else if len = 0 then 1 else if 262144 < len ∨ len % 4 ≠ 0 then 2 else 0
          (result = 0 → t.m.rd (pgCore c) CORE_BOOT_STATUS.STATE = 1)
            ∧ (result = 0 → (t.m.cr c).boot = (s.m.rd (pgCore c) CORE_BOOT_SRC.REGION,
              s.m.rd64 (pgCore c) CORE_BOOT_OFS_LO.OFS CORE_BOOT_OFS_HI.OFS, len))
            ∧ (result ≠ 0 → t.m.rd (pgCore c) CORE_BOOT_STATUS.RESULT = result
              ∧ t.m.rd (pgCore c) CORE_BOOT_STATUS.STATE = 2 ∧ t.m.irqBit (pgCore c) 14 = true)
            ∧ KeepsRest s t [fieldKey (pgCore c) CORE_BOOT_STATUS.STATE 0, fieldKey (pgCore c) CORE_BOOT_STATUS.RESULT 0]))
    ∧ (s.m.coreActive c = true → k.severe = none → k.haltReq = true → k.interruptible = true → s.m.debugDue c = false →
      Completes (.coreHalted c) s fun t =>
        t.m.coreState c = coreHaltedSt ∧ (t.m.cr c).haltReq = false ∧ t.m.irqBit (pgCore c) 8 = true ∧ (t.m.cr c).pc = k.pc
          ∧ (∀ b n, (t.m.cr c).regIn b n = k.complete.regIn b n) ∧ CoreData k (t.m.cr c)
          ∧ KeepsRest s t [fieldKey (pgCore c) CORE_STATUS.STATE 0])
    ∧ (s.m.coreActive c = true → k.severe.isSome = true → k.interruptible = true → Completes (.coreHalted c) s fun t =>
        t.m.coreState c = coreFault ∧ t.m.irqBit (pgCore c) 9 = true ∧ (t.m.cr c).severe = k.severe ∧ CoreData k (t.m.cr c)
          ∧ OtherPages s t [pgCore c, pgDbg])
    ∧ (∀ region ofs len, k.boot = (region, ofs, len) →
      let p := pgCore c
      let g := s.m.region region
      s.m.rd p CORE_BOOT_STATUS.STATE = 1 → s.m.memOpen c = true → len % 4 = 0 → g.holds ofs len = true →
      poisoned s.hbm g ofs len = false → (∀ st, s.m.armed 0 st = 0) →
      (s.m.letThrough (7200 + c) (s.m.lv p ACTIVITY_ID.ACTIVITY) (s.m.dmaMsgs c region ofs len false)).1 = true →
      Completes (.bootDone c .clean) s fun t =>
        t.m.rd p CORE_BOOT_STATUS.RESULT = 0 ∧ t.m.rd p CORE_BOOT_STATUS.STATE = 2 ∧ t.m.irqBit p 14 = true
          ∧ (∀ i, 4 * i < len → (t.m.cr c).imem.get 0 (4 * i) = le (readBytes s.hbm g ofs len) (4 * i) 4)
          ∧ (∀ a, len ≤ a → (t.m.cr c).imem.get 0 a = k.imem.get 0 a) ∧ CoreData k (t.m.cr c)
          ∧ t.m.coreState c = coreHaltedSt
          ∧ KeepsRest s t [fieldKey p CORE_BOOT_STATUS.RESULT 0, fieldKey p CORE_BOOT_STATUS.STATE 0, fieldKey p CORE_STATUS.STATE 0])
    ∧ (∀ synd, k.severe = some synd → s.m.coreState c = coreFault →
      (s.m.coreSpareLeft c = true → Completes (.coreSubstitution c) s fun t =>
        (t.m.cr c).phys = (if c.val < 16 then 16 else 4) ∧ (∀ b n, (t.m.cr c).regIn b n = 0) ∧ (t.m.cr c).dmem = []
          ∧ (t.m.cr c).imem = [] ∧ t.m.coreState c = coreHaltedSt ∧ t.m.inboxWr c = 0 ∧ t.m.inboxRd c = 0
          ∧ t.m.rd (pgCore c) STATUS.SPARE_IN_USE = 1 ∧ t.m.irqBit (pgCore c) 11 = true ∧ t.hbm = s.hbm)
      ∧ (s.m.coreSpareLeft c = false → Completes (.coreSubstitution c) s fun t =>
        t.m.coreState c = coreFailed ∧ (t.m.cr c).severe = none ∧ (t.m.cr c).phys = k.phys ∧ CoreData k (t.m.cr c)
          ∧ t.hbm = s.hbm))

/-- R522–R524: a debug request reaches the selected core; the core halts at its boundary with the cause; a step or a resume
goes on from there; a cross-halt reaches the members of the group. -/
def Obligations.DebugHardware : Prop :=
  ∀ (s : State) (r : Requester),
    (s.arrives r pgDbg = true → s.m.debugAllows r = true → s.m.dbgSel < 20 →
      let c := s.m.dbgSel
      let k := s.m.cr c
      (s.m.coreActive c = true → Completes (.dbgHalt r) s fun t =>
        (t.m.cr c).dbg.halt = true ∧ (t.m.cr c).pc = k.pc ∧ (t.m.cr c).regs = k.regs ∧ CoreData k (t.m.cr c)
          ∧ CoreQueues k (t.m.cr c) ∧ t.m.reg = s.m.reg ∧ t.hbm = s.hbm)
      ∧ (s.m.coreActive c = false → Completes (.dbgHalt r) s fun t => t.m.core = s.m.core ∧ t.m.reg = s.m.reg ∧ t.hbm = s.hbm)
      ∧ (∀ i step, (i = .dbgStep r ∧ step = some (0, false)) ∨ (i = .dbgResume r ∧ step = none) →
        s.m.coreState c = coreDebug → Completes i s fun t =>
          t.m.coreState c = coreRunning ∧ t.m.rd pgDbg DBG_CORE_STATUS.DEBUG_HALTED c = 0 ∧ (t.m.cr c).dbg.step = step
            ∧ (t.m.cr c).dbg.skip = true ∧ (t.m.cr c).pc = k.pc ∧ (t.m.cr c).regs = k.regs ∧ CoreData k (t.m.cr c)
            ∧ OtherPages s t [pgDbg, pgCore c])
      ∧ (∀ i, i = .dbgStep r ∨ i = .dbgResume r → s.m.coreState c ≠ coreDebug → Completes i s fun t =>
          t.m.core = s.m.core ∧ t.m.reg = s.m.reg ∧ t.hbm = s.hbm))
    ∧ (∀ (c : CoreNo) (g : Fin 4), s.arrives r pgDbg = true → s.m.debugAllows r = true → g ≠ 0 →
      s.m.rd pgDbg DBG_CORE_CTRL.XH_GROUP c = g.val → s.m.coreState c = coreDebug → Completes (.dbgXhResume r g) s fun t =>
        t.m.coreState c = coreRunning ∧ t.m.rd pgDbg DBG_CORE_STATUS.DEBUG_HALTED c = 0 ∧ (t.m.cr c).pc = (s.m.cr c).pc
          ∧ CoreData (s.m.cr c) (t.m.cr c) ∧ t.hbm = s.hbm)
    ∧ (∀ (c : CoreNo) cause, s.m.atBoundary c = true → s.m.haltDue c cause = true → (s.m.cr c).severe = none →
      Completes (.debugHalt c cause) s fun t =>
        t.m.coreState c = coreDebug ∧ t.m.rd pgDbg DBG_CORE_STATUS.DEBUG_HALTED c = 1
          ∧ t.m.rd pgDbg DBG_CORE_STATUS.CAUSE c = haltCode cause ∧ t.m.rd pgDbg DBG_CORE_STATUS.INDEX c = haltIndex cause
          ∧ t.m.rd pgDbg DBG_CORE_STATUS.EXC_PENDING c = ((s.m.cr c).exc.isSome).toNat ∧ t.m.irqBit pgDbg 8 = true
          ∧ (t.m.cr c).pc = (s.m.cr c).pc ∧ (∀ b n, (t.m.cr c).regIn b n = (s.m.cr c).complete.regIn b n)
          ∧ CoreData (s.m.cr c) (t.m.cr c) ∧ (t.m.cr c).exc = (s.m.cr c).exc ∧ OtherPages s t [pgDbg, pgCore c]
          ∧ (∀ j : CoreNo, j ≠ c → cause = .halt → s.m.rd pgDbg DBG_CORE_CTRL.XH_GROUP c ≠ 0 →
            s.m.rd pgDbg DBG_CORE_CTRL.XH_GROUP j = s.m.rd pgDbg DBG_CORE_CTRL.XH_GROUP c → s.m.coreActive j = true →
            (t.m.cr j).dbg.coming = true))
    ∧ (∀ c : CoreNo, (s.m.cr c).dbg.coming = true → Completes (.crossHalt c) s fun t =>
        (t.m.cr c).dbg.coming = false ∧ (t.m.cr c).dbg.cross = s.m.coreActive c ∧ CoreData (s.m.cr c) (t.m.cr c)
          ∧ t.m.reg = s.m.reg ∧ t.hbm = s.hbm)

/-! ## Faults and the safety partition (spec/14) -/

/-- R451, R453, R454, R456, R458, R463, R465, R467: after the leaks that are due an event counts, latches and is logged; at its
threshold its source is severe and its unit is ordered to substitute; an injected event alone fills no bucket; a bucket leaks; and
records are cleared. -/
def Obligations.FaultEvents : Prop :=
  ∀ s : State,
    (∀ (src : Island) (f : FaultMsg), s.m.arrival src 58 = some (.fault f) → f.source < 856 →
      let n := f.source
      let b := (s.m.leaks n).rd pgFlt FLT_SRC_STATE.BUCKET n
      let b' := Nat.min (b + 1) (2 ^ FLT_SRC_STATE.BUCKET.width - 1)
      let one := fun (t : State) (g : Fld) (blk : Nat) =>
        t.m.rd pgFlt g blk = Nat.min (s.m.rd pgFlt g blk + 1) (2 ^ g.width - 1)
      let records := fun (t : State) (severe : Bool) =>
        t.m.rd pgFlt FLT_SRC_STATE.LATCHED n = 1
          ∧ (if s.m.rd pgFlt FLT_SRC_STATE.LATCHED n = 1 then one t FLT_REC_FLAGS.COUNT n
            else t.m.rd pgFlt FLT_REC_FLAGS.COUNT n = 1 ∧ t.m.rd pgFlt FLT_REC_FLAGS.KIND n = (!f.corrected).toNat
              ∧ t.m.rd64 pgFlt FLT_REC_TIME_LO.TIME FLT_REC_TIME_HI.TIME n = f.time % 2 ^ 64
              ∧ t.m.rd pgFlt FLT_REC_SYND.SYNDROME n = f.syndrome % 2 ^ FLT_REC_SYND.SYNDROME.width)
          ∧ t.m.rd64 pgFlt FLT_REC_LAST_LO.TIME FLT_REC_LAST_HI.TIME n = f.time % 2 ^ 64
          ∧ (let react := if severe then s.m.rd pgFlt FLT_SRC_REACT.ON_SEVERE n else s.m.rd pgFlt FLT_SRC_REACT.ON_EVENT n
            (bit react 0 = true → s.m.flt.log.length < 256 → t.m.flt.log = s.m.flt.log
              ++ [⟨s.m.flt.seq, n, f.time, f.syndrome, f.corrected, f.real, f.injected, severe⟩])
            ∧ (bit react 3 = true → n ∈ t.m.flt.holds)
            ∧ (bit react 5 = true → f.real = true → s.m.safeStopped = false →
              t.m.rd pgFlt FLT_SAFE_STOP.ACTIVE = 1 ∧ t.m.rd pgFlt FLT_SAFE_STOP.SOURCE = n % 2 ^ FLT_SAFE_STOP.SOURCE.width
                ∧ ∀ i : Island, t.m.underWay 58 i (.safeStop n)))
          ∧ OtherPages s t [pgFlt, pgMgt]
      (f.real = true → (s.m.rd pgFlt FLT_SRC_STATE.SEVERE n ≠ 0 ∨ b' < s.m.rd pgFlt FLT_SRC_THRESH.N n) →
        Completes (.faultEvent src) s fun t =>
          t.m.rd pgFlt FLT_SRC_STATE.BUCKET n = b' ∧ t.m.rd pgFlt FLT_SRC_STATE.SEVERE n = s.m.rd pgFlt FLT_SRC_STATE.SEVERE n
            ∧ one t (if f.corrected then FLT_LEG_CORR.COUNT else FLT_LEG_CONT.COUNT) 0 ∧ records t false)
      ∧ (f.real = true → s.m.rd pgFlt FLT_SRC_STATE.SEVERE n = 0 → s.m.rd pgFlt FLT_SRC_THRESH.N n ≤ b' →
        Completes (.faultEvent src) s fun t =>
          t.m.rd pgFlt FLT_SRC_STATE.BUCKET n = b' ∧ t.m.rd pgFlt FLT_SRC_STATE.SEVERE n = 1
            ∧ one t FLT_SRC_SEVERE.COUNT n ∧ t.m.rd pgFlt FLT_REC_FLAGS.SEVERE_SEEN n = 1
            ∧ (16 ≤ n → n < 288 → t.m.underWay 58 ((n - 16) / 68) (.substOrder 1 ((n - 16) % 68) f.syndrome))
            ∧ (304 ≤ n → n < 576 → t.m.underWay 58 (8 + (n - 304) / 17) (.substOrder 2 ((n - 304) % 17) f.syndrome))
            ∧ (591 ≤ n → n < 719 → t.m.underWay 58 (32 + (n - 591) / 32) (.substOrder 7 ((n - 591) % 32) f.syndrome))
            ∧ records t true)
      ∧ (f.real = false → Completes (.faultEvent src) s fun t =>
          t.m.rd pgFlt FLT_SRC_STATE.BUCKET n = s.m.rd pgFlt FLT_SRC_STATE.BUCKET n
            ∧ t.m.rd pgFlt FLT_SRC_STATE.SEVERE n = s.m.rd pgFlt FLT_SRC_STATE.SEVERE n
            ∧ one t FLT_SRC_INJECTED.COUNT n ∧ t.m.rd pgFlt FLT_LEG_CORR.COUNT = s.m.rd pgFlt FLT_LEG_CORR.COUNT
            ∧ records t false))
    ∧ (∀ src : Fin 1024, 0 < s.m.rd pgFlt FLT_SRC_STATE.BUCKET src → 0 < s.m.flt.leak.get 0 src →
      s.m.flt.leak.get 0 src ≤ s.m.clk.ticks + 1 → Completes (.bucketLeak src) s fun t =>
        t.m.rd pgFlt FLT_SRC_STATE.BUCKET src
            = (s.m.rd pgFlt FLT_SRC_STATE.BUCKET src - 1) % 2 ^ FLT_SRC_STATE.BUCKET.width
          ∧ KeepsRest s t [fieldKey pgFlt FLT_SRC_STATE.BUCKET src])
    ∧ (∀ r : Requester, s.arrives r pgFlt = true →
      let n := s.m.fltSel
      (n < 1024 →
        (∀ v : Word, r = .mgt → v.toNat % 65536 ≠ 0 → Completes (.fltSrcConfig r true v) s fun t =>
          t.m.rd pgFlt FLT_SRC_THRESH.N n = v.toNat % 65536 ∧ t.m.rd pgFlt FLT_SRC_STATE.BUCKET n = 0
            ∧ KeepsRest s t [fieldKey pgFlt FLT_SRC_THRESH.N n, fieldKey pgFlt FLT_SRC_STATE.BUCKET n])
        ∧ (∀ v : Word, r = .mgt → v.toNat % 2 ^ 23 ≠ 0 → v.toNat % 2 ^ 23 ≤ 4194304 →
          Completes (.fltSrcConfig r false v) s fun t =>
            t.m.rd pgFlt FLT_SRC_WINDOW.MS n = v.toNat % 2 ^ 23 ∧ t.m.rd pgFlt FLT_SRC_STATE.BUCKET n = 0
              ∧ KeepsRest s t [fieldKey pgFlt FLT_SRC_WINDOW.MS n, fieldKey pgFlt FLT_SRC_STATE.BUCKET n])
        ∧ Completes (.fltRecClr r) s (fun t =>
          t.m.rd pgFlt FLT_SRC_STATE.LATCHED n = 0 ∧ t.m.rd pgFlt FLT_REC_FLAGS.COUNT n = 0
            ∧ t.m.rd pgFlt FLT_SRC_STATE.SEVERE n = (if s.m.rd pgFlt FLT_SRC_STATE.SEVERE n = 1 then 0
              else s.m.rd pgFlt FLT_SRC_STATE.SEVERE n)
            ∧ n ∉ t.m.flt.holds ∧ t.m.flt.log = s.m.flt.log ∧ OtherPages s t [pgFlt]))
      ∧ (∀ thresh v, r ≠ .mgt → Completes (.fltSrcConfig r thresh v) s fun t => t.m.reg = s.m.reg ∧ t.hbm = s.hbm)
      ∧ Completes (.fltClrAll r) s (fun t =>
          (∀ k, k < 856 → t.m.rd pgFlt FLT_SRC_STATE.LATCHED k ≠ 1) ∧ t.m.rd pgFlt FLT_FIRST.VALID = 0
            ∧ t.m.flt.log = s.m.flt.log ∧ OtherPages s t [pgFlt])
      ∧ Completes (.fltLogPop r) s (fun t => t.m.flt.log = s.m.flt.log.tail ∧ t.m.reg = s.m.reg ∧ t.hbm = s.hbm)
      ∧ (∀ bits, Completes (.fltLegStatusClear r bits) s fun t =>
          (∀ x ∈ [(0, FLT_LEG_STATUS.CORRECTED), (1, FLT_LEG_STATUS.CONTAINED), (2, FLT_LEG_STATUS.FATAL)],
            t.m.rd pgFlt x.2 = (if bit bits.toNat x.1 then 0 else s.m.rd pgFlt x.2)
              ∧ (bit bits.toNat x.1 = true → t.m.rd pgFlt FLT_LEG_FIRST_SRC.SOURCE x.1 = 0))
            ∧ OtherPages s t [pgFlt]))

/-- R449, R450, R461, R462: a safe-stop at each kind of island; its release; the monitors and THERM_N; and the thermal shutdown and
restart. -/
def Obligations.SafeStops : Prop :=
  ∀ s : State,
    (∀ (i : Island) n, s.m.arrival 58 i = some (.safeStop n) →
      (i.val < 4 → Completes (.safeStop i) s fun t =>
        t.m.rd (pgCnv i) CTRL.ENABLE = 0 ∧ (t.m.cv i).powered = false ∧ (t.m.cv i).startTick = none
          ∧ (∀ k, keyPage k ∉ [pgCnv i, pgWte i] → ∀ d, Store.get d t.m.reg.regs k = Store.get d s.m.reg.regs k)
          ∧ t.hbm = s.hbm)
      ∧ (24 ≤ i.val → i.val < 28 → Completes (.safeStop i) s fun t =>
        (∀ d, d ∈ coursesAt (i.val - 24) → s.m.courseState d ≠ 0 →
          (t.m.crs d).stopTick = some (s.m.tick + 1) ∧ t.m.lv (pgCrs d) CRS_RUN.RUN = 0 ∧ t.m.sh (pgCrs d) CRS_RUN.RUN = 0)
          ∧ t.hbm = s.hbm)
      ∧ (50 ≤ i.val → i.val < 54 → Completes (.safeStop i) s fun t =>
        (∀ c : CoreNo, s.m.coreIsl c = i.val → s.m.coreActive c = true → (t.m.cr c).haltReq = true)
          ∧ (∀ c : CoreNo, s.m.coreIsl c ≠ i.val → t.m.cr c = s.m.cr c) ∧ t.m.reg = s.m.reg ∧ t.hbm = s.hbm)
      ∧ (4 ≤ i.val → i.val < 24 ∨ 28 ≤ i.val ∧ i.val < 50 ∨ 54 ≤ i.val → Completes (.safeStop i) s fun t =>
        t.m.reg = s.m.reg ∧ t.m.conv = s.m.conv ∧ t.m.core = s.m.core ∧ t.hbm = s.hbm))
    ∧ (∀ r : Requester, s.arrives r pgSaf = true →
      (r = .mgt → s.m.rd pgSaf SAF_STATUS.THERMAL_SHUTDOWN = 0 → Completes (.safeRelease r) s fun t =>
        t.m.rd pgFlt FLT_SAFE_STOP.ACTIVE = 0 ∧ t.m.flt.safe = [] ∧ KeepsRest s t [fieldKey pgFlt FLT_SAFE_STOP.ACTIVE 0])
      ∧ (r ≠ .mgt ∨ s.m.rd pgSaf SAF_STATUS.THERMAL_SHUTDOWN ≠ 0 → Completes (.safeRelease r) s fun t =>
        t.m.reg = s.m.reg ∧ t.hbm = s.hbm)
      ∧ (r = .mgt → s.m.rd pgSaf SAF_STATUS.THERMAL_SHUTDOWN = 1 → (∀ d ∈ List.range 8, s.m.dieTemp d < 24320) →
        Completes (.thermalRestart r) s fun t =>
          t.m.rd pgPwr PWR_STATE.STATE = 5 ∧ t.m.rd pgPwr PWR_START.STEP = 2 ∧ t.m.rd pgSaf SAF_STATUS.THERMAL_SHUTDOWN = 0
            ∧ t.m.rd pgPwr PWR_EVENTS.RESTARTS = s.m.rd pgPwr PWR_EVENTS.RESTARTS ∧ t.m.irqBit pgPwr 9 = true
            ∧ t.m.safety.ledger = s.m.safety.ledger ∧ t.m.rd pgSaf SAF_WALL.SECONDS = s.m.rd pgSaf SAF_WALL.SECONDS))
    ∧ (∀ (d : Fin 8) t0, s.m.safety.hotSince.get none d = some t0 → t0 + 2000000 ≤ s.m.clk.ticks + 1 →
      s.m.rd pgSaf SAF_STATUS.THERMAL_SHUTDOWN = 0 → s.m.power.vin = true → Completes .thermalShutdown s fun t =>
        t.m.rd pgSaf SAF_STATUS.THERMAL_SHUTDOWN = 1 ∧ t.m.rd pgFlt FLT_SAFE_STOP.ACTIVE = 1
          ∧ t.m.rd pgPwr PWR_STATE.STATE = 6 ∧ t.m.rd pgPwr PWR_STATUS.READY = 0 ∧ t.m.power.shed = true
          ∧ t.m.rd pgFlt FLT_SRC_STATE.LATCHED 854 = 1 ∧ t.m.safety.ledger = s.m.safety.ledger ∧ t.hbm.cells = [])
    ∧ (∀ volts power temps, s.m.safety.monitor.any (fun t => decide (s.m.clk.ticks < t + 200000)) = false → Completes (.monitorUpdate volts power temps) s fun t =>
        t.m.rd pgSaf SAF_VIN.VOLTS = volts.toNat ∧ t.m.rd pgSaf SAF_VIN.POWER = power.toNat
          ∧ (∀ (d : Fin 8) (x : Int), temps[d.val]? = some x → -32768 ≤ x → x ≤ 32767 → t.m.dieTemp d = x
            ∧ x ≤ toSigned 16 (t.m.rd pgSaf SAF_TEMP.PEAK d))
          ∧ (temps.length = 8 → (∀ x ∈ temps, -32768 ≤ x ∧ x ≤ 32767) →
            (t.m.rd pgSaf SAF_STATUS.THERM = 1 ↔ ∃ x ∈ temps, toSigned 16 (s.m.rd pgSaf SAF_THERM.WARN) ≤ x)
              ∧ ∀ (d : Fin 8) (x : Int), temps[d.val]? = some x →
                ((t.m.safety.hotSince.get none d).isSome = true ↔ 29440 ≤ x))
          ∧ t.hbm = s.hbm ∧ t.m.reg.live = s.m.reg.live ∧ t.m.reg.shadow = s.m.reg.shadow)

/-- R441–R447, R464: the management port's accesses, the alert, the mailbox with its timeout, a requested substitution, the wall
clock and the injection registers. -/
def Obligations.Management : Prop :=
  ∀ s : State,
    let replies := fun (t : State) (data : List Byte) (good : Bool) =>
      t.m.hostif.reply.take 4 = data ∧ t.m.hostif.reply.length = 5
        ∧ (Config.msel = true → t.m.hostif.reply[4]? = some (if good then crc8 data else ~~~(crc8 data)))
    let ones : List Byte := [0xFF, 0xFF, 0xFF, 0xFF]
    (s.m.portUp = true →
      (∀ off (v : Word), Completes (.mgtRegisterWrite off v false) s fun t =>
        t.m.rd pgMgt MGT_PORT.PEC_ERRORS
            = Nat.min (s.m.rd pgMgt MGT_PORT.PEC_ERRORS + 1) (2 ^ MGT_PORT.PEC_ERRORS.width - 1)
          ∧ t.m.reporting 855 ∧ KeepsRest s t [fieldKey pgMgt MGT_PORT.PEC_ERRORS 0])
      ∧ (∀ off (v : Word), Completes (.mgtRegisterWrite off v true) s fun t => t = s.write (.mgtRegisterWrite off v true) .mgt off 4 v)
      ∧ (∀ v : Word, s.arrives .mgt pgSaf = true →
        Completes (.mgtRegisterWrite (4096 * pgSaf + SAF_WALL.SECONDS.off) v true) s fun t =>
          t.m.rd pgSaf SAF_WALL.SECONDS = v.toNat ∧ t.m.rd pgSaf SAF_STATUS.WALL_SET = 1
            ∧ KeepsRest s t [fieldKey pgSaf SAF_WALL.SECONDS 0, fieldKey pgSaf SAF_STATUS.WALL_SET 0])
      ∧ (∀ off late, Completes (.mgtRegisterRead off false late) s fun t =>
        replies t ones false ∧ t.m.reporting 855
          ∧ KeepsRest s t [fieldKey pgMgt MGT_PORT.PEC_ERRORS 0])
      ∧ (∀ late, s.arrives .mgt pgSaf = true →
        Completes (.mgtRegisterRead (4096 * pgSaf + SAF_WALL.SECONDS.off) true late) s fun t =>
          replies t (leBytes 4 (s.m.readWord pgSaf SAF_WALL.SECONDS.off)) true ∧ KeepsRest s t [])
      ∧ (∀ off late, s.m.reaches .mgt (off / 4096) = false → Completes (.mgtRegisterRead off true late) s fun t =>
          replies t ones true ∧ t.m.rd pgMgt MGT_PORT.LATE = 1))
    ∧ (∀ (r : Requester) (bits : BitVec 5), s.arrives r pgMgt = true → Completes (.mgtAlertClear r bits) s fun t =>
        (∀ b : Fin 5, bit (t.m.rd pgMgt MGT_ALERT.CAUSE) b
            = (bit (s.m.rd pgMgt MGT_ALERT.CAUSE) b && !(r == .mgt && bit bits.toNat b)))
          ∧ KeepsRest s t [fieldKey pgMgt MGT_ALERT.CAUSE 0])
    ∧ (∀ r : Requester, s.arrives r pgMgt = true → r ≠ .jdl →
      (s.m.rd pgMgt MGT_RESP.STATE ≠ 1 → Completes (.mgtReqGo r) s fun t =>
        t.m.rd pgMgt MGT_RESP.STATE = 1
          ∧ t.m.rd pgMgt MGT_RESP.SEQ = (s.m.rd pgMgt MGT_RESP.SEQ + 1) % 2 ^ MGT_RESP.SEQ.width
          ∧ bit (t.m.rd pgMgt MGT_ALERT.CAUSE) 0 = true ∧ OtherPages s t [pgMgt])
      ∧ (s.m.rd pgMgt MGT_RESP.STATE = 1 → Completes (.mgtReqGo r) s fun t =>
        t.m.rd pgMgt MGT_REQ_STATS.REFUSED_BUSY
            = Nat.min (s.m.rd pgMgt MGT_REQ_STATS.REFUSED_BUSY + 1) (2 ^ MGT_REQ_STATS.REFUSED_BUSY.width - 1)
          ∧ KeepsRest s t [fieldKey pgMgt MGT_REQ_STATS.REFUSED_BUSY 0]))
    ∧ (∀ (state : Fin 8) (reason : Byte), s.arrives .mgt pgMgt = true → s.m.rd pgMgt MGT_RESP.STATE = 1 →
      s.m.mailboxLate = false → state.val = 2 ∨ state.val = 3 → Completes (.mgtResp .mgt state reason) s fun t =>
        t.m.rd pgMgt MGT_RESP.STATE = state.val ∧ t.m.rd pgMgt MGT_RESP.REASON = reason.toNat ∧ t.m.irqBit pgMgt 8 = true
          ∧ KeepsRest s t [fieldKey pgMgt MGT_RESP.STATE 0, fieldKey pgMgt MGT_RESP.REASON 0])
    ∧ (∀ r state reason, r ≠ .mgt ∨ s.m.rd pgMgt MGT_RESP.STATE ≠ 1 ∨ s.m.mailboxLate = true → s.arrives r pgMgt = true →
      Completes (.mgtResp r state reason) s fun t =>
        t.m.reg = s.m.reg ∧ t.hbm = s.hbm)
    ∧ (s.m.rd pgMgt MGT_RESP.STATE = 1 → s.m.safety.askedAt + s.m.rd pgMgt MGT_REQ_TIMEOUT.MS * 2000000 ≤ s.m.clk.ticks →
      Completes .mailboxTimeout s fun t =>
        t.m.rd pgMgt MGT_RESP.STATE = 4 ∧ t.m.irqBit pgMgt 8 = true ∧ KeepsRest s t [fieldKey pgMgt MGT_RESP.STATE 0])
    ∧ (∀ (kind : Byte) (logical : BitVec 16), s.arrives .mgt pgMgt = true →
      (s.m.substAnswer kind.toNat logical.toNat = .refused → Completes (.mgtSubstGo .mgt kind logical) s fun t =>
        t.m.rd pgMgt MGT_SUBST_STATUS.RESULT = 3 ∧ t.m.rd pgMgt MGT_SUBST.KIND = kind.toNat
          ∧ t.m.rd pgMgt MGT_SUBST.LOGICAL = logical.toNat ∧ OtherPages s t [pgMgt])
      ∧ (s.m.substAnswer kind.toNat logical.toNat = .noSpare → Completes (.mgtSubstGo .mgt kind logical) s fun t =>
        t.m.rd pgMgt MGT_SUBST_STATUS.RESULT = 2 ∧ OtherPages s t [pgMgt])
      ∧ (∀ isl unit, s.m.substAnswer kind.toNat logical.toNat = .order isl unit →
        Completes (.mgtSubstGo .mgt kind logical) s fun t =>
          t.m.rd pgMgt MGT_SUBST_STATUS.RESULT = 0 ∧ t.m.underWay 58 isl (.substOrder kind.toNat unit 0)
            ∧ t.m.safety.request = some (kind.toNat, logical.toNat) ∧ OtherPages s t [pgMgt])
      ∧ (kind.toNat = 8 → s.m.substAnswer 8 logical.toNat = .done → Completes (.mgtSubstGo .mgt kind logical) s fun t =>
          t.m.rd pgMgt MGT_SUBST_STATUS.RESULT = 0 ∧ t.m.safety.request = some (8, logical.toNat)
            ∧ (t.m.st (logical.toNat / 32)).waiting
              = (s.m.st (logical.toNat / 32)).waiting ++ [⟨logical.toNat % 32, none, 0, channelUnits⟩] ∧ OtherPages s t [pgMgt])
      ∧ (kind.toNat = 9 → s.m.substAnswer 9 logical.toNat = .done → (s.m.pt logical.toNat).retiring = none →
        Completes (.mgtSubstGo .mgt kind logical) s fun t =>
          t.m.irqBit pgStr 10 = true ∧ t.m.irqBit (pgNvp logical.toNat) 13 = true ∧ t.hbm = s.hbm))
    ∧ (∀ r kind logical, r ≠ .mgt → s.arrives r pgMgt = true → Completes (.mgtSubstGo r kind logical) s fun t =>
        t.m.reg = s.m.reg ∧ t.m.net.transit = s.m.net.transit ∧ t.hbm = s.hbm)
    ∧ (∀ v : Word, s.arrives .mgt pgSaf = true → Completes (.safWall .mgt v) s fun t =>
        t.m.rd pgSaf SAF_WALL.SECONDS = v.toNat ∧ t.m.rd pgSaf SAF_STATUS.WALL_SET = 1
          ∧ KeepsRest s t [fieldKey pgSaf SAF_WALL.SECONDS 0, fieldKey pgSaf SAF_STATUS.WALL_SET 0])
    ∧ (∀ n : BitVec 16, s.arrives .mgt pgSaf = true → n.toNat ≠ 0 →
      s.m.rd pgSaf SAF_INJ_SEL.INSTANCE < checkerInstances (s.m.rd pgSaf SAF_INJ_SEL.CHECKER) →
      s.m.rd pgSaf SAF_INJ_SEL.MODE < 2 → Completes (.safInjCount .mgt n) s fun t =>
        t.m.armed (s.m.rd pgSaf SAF_INJ_SEL.CHECKER) (s.m.rd pgSaf SAF_INJ_SEL.INSTANCE) = n.toNat
          ∧ t.m.armedDouble (s.m.rd pgSaf SAF_INJ_SEL.CHECKER) (s.m.rd pgSaf SAF_INJ_SEL.INSTANCE)
            = (s.m.rd pgSaf SAF_INJ_SEL.MODE == 1)
          ∧ KeepsRest s t [fieldKey pgSaf SAF_INJ_COUNT.COUNT 0])
    ∧ (∀ r : Requester, r ≠ .mgt → s.arrives r pgSaf = true → ∀ (v : Word) (n : BitVec 16),
      Completes (.safWall r v) s (fun t => t.m.reg = s.m.reg ∧ t.hbm = s.hbm)
        ∧ Completes (.safInjCount r n) s (fun t => t.m.reg = s.m.reg ∧ t.m.net.injectNext = s.m.net.injectNext ∧ t.hbm = s.hbm))

/-! ## The host interface (spec/15) -/

/-- R471–R473, R476–R481, R493, R494, R496–R498, R504: configuration space and resets of the function, the link, features, BAR2,
interrupt routes and the MSI-X table. -/
def Obligations.HostSpace : Prop :=
  ∀ s : State,
    (∀ reg : Fin 1024, s.m.configReady = true →
      Completes (.configRequest reg none) s (fun t =>
        t.m.hostif.reply = leBytes 4 (s.m.cfg reg) ∧ t.m.hostif.config = s.m.hostif.config ∧ t.m.reg = s.m.reg ∧ t.hbm = s.hbm)
      ∧ (∀ v : Word, reg ≠ 17 → reg ≠ 66 → reg ≠ 44 → Completes (.configRequest reg (some v)) s fun t =>
        t.m.cfg reg = ((s.m.cfg reg &&& (2 ^ 32 - 1 - s.m.configMask reg)) ||| (v.toNat &&& s.m.configMask reg))
          ∧ (∀ j, j ≠ reg.val → t.m.cfg j = s.m.cfg j) ∧ t.m.reg = s.m.reg ∧ t.hbm = s.hbm))
    ∧ (∀ v : Word, s.m.configReady = true → Completes (.configRequest 17 (some v)) s fun t =>
        t.m.cfg 17 % 4 = (if v.toNat % 4 = 0 ∨ v.toNat % 4 = 3 then v.toNat % 4 else s.m.cfg 17 % 4)
          ∧ (∀ j, j ≠ 17 → t.m.cfg j = s.m.cfg j) ∧ t.m.reg = s.m.reg ∧ t.hbm = s.hbm)
    ∧ (∀ v : Word, s.m.configReady = true → 10 ≤ v.toNat / 256 % 64 → v.toNat / 256 % 64 ≤ 17 →
      Completes (.configRequest 66 (some v)) s fun t =>
        t.m.rd pgPcie PCIE_BAR2.LOG2_SIZE = 20 + v.toNat / 256 % 64 ∧ t.m.cfg 66 / 256 % 64 = v.toNat / 256 % 64
          ∧ KeepsRest s t [fieldKey pgPcie PCIE_BAR2.LOG2_SIZE 0])
    ∧ (∀ reg v, s.m.configReady = false → Completes (.configRequest reg v) s fun t =>
        t.m.hostif.reply = [] ∧ t.m.hostif.config = s.m.hostif.config ∧ t.m.reg = s.m.reg ∧ t.hbm = s.hbm)
    ∧ (s.m.railsUp = true → s.m.hostif.loaded = false → 4 < s.m.rd pgPwr PWR_START.STEP → Completes .pcieConfigLoad s fun t =>
        t.m.configReady = true ∧ t.m.reg = s.m.reg ∧ t.hbm = s.hbm)
    ∧ (Completes .perstNAssert s fun t =>
        t.m.configReady = false ∧ t.m.hostif.loaded = false ∧ t.m.hostif.perst = true ∧ t.hbm = s.hbm)
    ∧ (∀ k, s.m.configReady = true → Completes (.functionReset k) s fun t =>
        t.m.rd pgPcie PCIE_FLR.COUNT = Nat.min (s.m.rd pgPcie PCIE_FLR.COUNT + 1) (2 ^ PCIE_FLR.COUNT.width - 1)
          ∧ t.m.rd pgPcie PCIE_BAR2.LOG2_SIZE = 30 ∧ t.m.rd pgSys SYS_FEATURES_CTRL.FEATURES_OK = 0
          ∧ (∀ q : Fin 64, t.m.lv pgPcie PCIE_Q_CFG.EN q = 0 ∧ t.m.queueState q = 0 ∧ (t.m.hq q).cur = none
            ∧ (t.m.hq q).waiting = (s.m.hq q).waiting)
          ∧ t.m.busMaster = false ∧ t.m.memSpace = false ∧ t.m.msixEnabled = false ∧ t.hbm = s.hbm)
    ∧ (∀ on, s.m.configReady = true → Completes (.busMasterEnable on) s fun t =>
        t.m.busMaster = on ∧ (∀ b : Fin 32, b ≠ 2 → bit (t.m.cfg 1) b = bit (s.m.cfg 1) b)
          ∧ ((∀ q : Fin 64, s.m.queueKind q ≠ 2) → t.m.reg = s.m.reg ∧ t.hbm = s.hbm))
    ∧ (∀ up trained inUse speed flit, s.m.railsUp = true → Completes (.linkChange up trained inUse speed flit) s fun t =>
        t.m.rd pgPcie PCIE_STATUS.LINK_UP = up.toNat
          ∧ t.m.rd pgPcie PCIE_LINK.WIDTH = (if up then inUse.val % 2 ^ PCIE_LINK.WIDTH.width else 0)
          ∧ t.m.rd pgPcie PCIE_LINK.TRAINED_WIDTH = (if up then trained.val % 2 ^ PCIE_LINK.TRAINED_WIDTH.width else 0)
          ∧ t.m.rd pgPcie PCIE_LINK.SPEED = (if up then speed.val % 2 ^ PCIE_LINK.SPEED.width else 0)
          ∧ t.m.rd pgPcie PCIE_STATUS.FLIT = (up && (flit || speed == 6)).toNat
          ∧ t.m.rd pgPcie PCIE_STATUS.L0P_REDUCED = (up && decide (inUse < trained)).toNat ∧ t.m.irqBit pgPcie 8 = true
          ∧ OtherPages s t [pgPcie])
    ∧ (s.m.barsOpen = true → s.m.hostif.window = [] →
      (∀ ofs data r a, s.m.bar2Hit ofs = some (r, a) →
        ((s.m.region r).holds a data.length = true →
          (s.m.charge (s.m.lv pgSys SYS_REG_CTRL.OWNER r) (s.m.moveCosts true r a data.length)).1 = true →
          Completes (.bar2Write ofs data) s fun t =>
            ((s.m.region r).inside = true → readBytes t.hbm (s.m.region r) a data.length = data)
              ∧ KeepsOutside s t (s.m.region r) a (a + data.length) ∧ t.m.reg = s.m.reg)
        ∧ ((s.m.charge (s.m.lv pgSys SYS_REG_CTRL.OWNER r) (s.m.moveCosts true r a data.length)).1 = false →
          Completes (.bar2Write ofs data) s fun t => t.m.hostif.window = [.bar2Write ofs data] ∧ t.hbm = s.hbm))
      ∧ (∀ ofs len r a, s.m.bar2Hit ofs = some (r, a) → (s.m.region r).holds a len = true →
        (s.m.charge (s.m.lv pgSys SYS_REG_CTRL.OWNER r) (s.m.moveCosts false r a len)).1 = true →
        Completes (.bar2Read ofs len) s fun t =>
          t.m.hostif.reply = readBytes s.hbm (s.m.region r) a len ∧ t.m.reg = s.m.reg ∧ t.hbm = s.hbm)
      ∧ (∀ ofs data, s.m.bar2Hit ofs = none → Completes (.bar2Write ofs data) s fun t =>
          t.m.rd pgPcie PCIE_WIN_MISSES.COUNT
              = Nat.min (s.m.rd pgPcie PCIE_WIN_MISSES.COUNT + 1) (2 ^ PCIE_WIN_MISSES.COUNT.width - 1)
            ∧ KeepsRest s t [fieldKey pgPcie PCIE_WIN_MISSES.COUNT 0])
      ∧ (∀ ofs len, s.m.bar2Hit ofs = none → Completes (.bar2Read ofs len) s fun t =>
          t.m.hostif.reply = List.replicate len 0 ∧ KeepsRest s t [fieldKey pgPcie PCIE_WIN_MISSES.COUNT 0]))
    ∧ (∀ i, s.m.barsOpen = true → s.m.hostif.window ≠ [] → (∃ ofs data, i = .bar2Write ofs data) ∨ (∃ ofs len, i = .bar2Read ofs len) →
      Completes i s fun t => t.m.hostif.window = s.m.hostif.window ++ [i] ∧ t.m.reg = s.m.reg ∧ t.hbm = s.hbm)
    ∧ (∀ (v : Fin 512) (x : Word), s.m.barsOpen = true →
      Completes (.msixTableWrite v 3 x) s (fun t =>
        (t.m.hostif.msixTable.get 1 (4 * v.val + 3)) = x.toNat % 2 ∧ (x.toNat % 2 = 0 → s.m.msixEnabled = true →
          bit (s.m.cfg 44) 30 = false → t.m.hostif.msixPend.get 0 v.val = 0)
          ∧ t.m.reg = s.m.reg ∧ t.hbm = s.hbm)
      ∧ Completes (.msixTableWrite v 2 x) s (fun t =>
        (t.m.hostif.msixTable.get 0 (4 * v.val + 2)) = x.toNat ∧ t.m.reg = s.m.reg ∧ t.hbm = s.hbm))
    ∧ (∀ r, s.arrives r pgSys = true →
      (s.m.rd pgSys SYS_FEATURES_CTRL.FEATURES_OK ≠ 1 → s.m.featuresFit = true → Completes (.featuresOk r) s fun t =>
        t.m.rd pgSys (SYS_FEATURES_IN_FORCE.FEATURES 0) = s.m.drvFeatures 0 % 2 ^ 32
          ∧ t.m.rd pgSys SYS_FEATURES_CTRL.FEATURES_OK = 1 ∧ t.m.rd pgSys SYS_STATUS.FEATURES_OK = 1
          ∧ t.m.rd pgSys SYS_FEATURES_CTRL.FEATURES_ERR = 0)
      ∧ (s.m.rd pgSys SYS_FEATURES_CTRL.FEATURES_OK ≠ 1 → s.m.featuresFit = false → Completes (.featuresOk r) s fun t =>
        t.m.rd pgSys SYS_FEATURES_CTRL.FEATURES_ERR = 1 ∧ KeepsRest s t [fieldKey pgSys SYS_FEATURES_CTRL.FEATURES_ERR 0])
      ∧ (s.m.rd pgSys SYS_FEATURES_CTRL.FEATURES_OK = 1 → Completes (.featuresOk r) s fun t =>
        t.m.reg = s.m.reg ∧ t.hbm = s.hbm)
      ∧ (∀ v : BitVec 9, s.m.feature 2 = true → 64 ≤ v.toNat → defaultVector (s.m.rd pgSys SYS_IRQ_SEL.PAGE) ≠ 0 →
        Completes (.sysIrqRoute r v) s fun t =>
          t.m.vectorOf (s.m.rd pgSys SYS_IRQ_SEL.PAGE) = v.toNat
            ∧ (∀ p, p ≠ s.m.rd pgSys SYS_IRQ_SEL.PAGE → t.m.vectorOf p = s.m.vectorOf p) ∧ t.m.reg.regs = s.m.reg.regs
            ∧ t.hbm = s.hbm)
      ∧ (∀ v : BitVec 9, s.m.feature 2 = false ∨ v.toNat < 64 → Completes (.sysIrqRoute r v) s fun t =>
          t.m.reg = s.m.reg ∧ t.m.hostif.out = s.m.hostif.out ∧ t.hbm = s.hbm)
      ∧ (∀ v : BitVec 9, 64 ≤ v.toNat → s.m.vectorRequest v.toNat = true → Completes (.sysVecEoi r v) s fun t =>
          (if s.m.msixEnabled = true ∧ s.m.msixMasked v.toNat = false then t.m.hostif.out.length = s.m.hostif.out.length + 1
            else t.m.hostif.msixPend.get 0 v.toNat = 1) ∧ t.m.reg = s.m.reg ∧ t.hbm = s.hbm)
      ∧ (∀ v : BitVec 9, s.m.vectorRequest v.toNat = false → Completes (.sysVecEoi r v) s fun t =>
          t.m.reg = s.m.reg ∧ t.m.hostif.out = s.m.hostif.out ∧ t.m.hostif.msixPend = s.m.hostif.msixPend))

/-- R482–R492: doorbells are taken or counted as errors; a descriptor is fetched, moves its bytes and completes with its entry in
the ring; signals are moderated; a stream frame goes into its buffer, and a flush closes it. -/
def Obligations.HostQueues : Prop :=
  ∀ (s : State) (q : Fin 64),
    (∀ v : BitVec 16, s.m.barsOpen = true →
      (s.m.feature 1 = true → s.m.lv pgPcie PCIE_Q_CFG.EN q = 1 → v.toNat < s.m.ringSize q →
        Completes (.sqTailDoorbell q v) s (fun t => t.m.hq q = { s.m.hq q with sqTail := v.toNat } ∧ t.m.reg = s.m.reg ∧ t.hbm = s.hbm)
        ∧ Completes (.cqHeadDoorbell q v) s
          (fun t => t.m.hq q = { s.m.hq q with cqHead := v.toNat } ∧ t.m.reg = s.m.reg ∧ t.hbm = s.hbm))
      ∧ (∀ i, i = .sqTailDoorbell q v ∨ i = .cqHeadDoorbell q v →
        s.m.feature 1 = false ∨ s.m.lv pgPcie PCIE_Q_CFG.EN q ≠ 1 ∨ s.m.ringSize q ≤ v.toNat → Completes i s fun t =>
          t.m.rd pgPcie PCIE_Q_DB_ERR.COUNT q
              = Nat.min (s.m.rd pgPcie PCIE_Q_DB_ERR.COUNT q + 1) (2 ^ PCIE_Q_DB_ERR.COUNT.width - 1)
            ∧ t.m.irqBit pgPcie 9 = true ∧ t.m.hq q = s.m.hq q ∧ KeepsRest s t [fieldKey pgPcie PCIE_Q_DB_ERR.COUNT q]))
    ∧ (s.m.mayFetch q = true → (s.m.charge 63 [(73, 1)]).1 = true →
      (∀ l, s.m.queueKind q ≠ 2 → Completes (.descriptorFetch q (some l)) s fun t =>
        let d := descriptorOf l
        t.m.hq q = { s.m.hq q with cur := some d, early := s.m.descriptorFault (s.m.queueKind q) d, placed := 0, frames := 0 }
          ∧ t.m.rd pgPcie PCIE_Q_HEADS.SQ_HEAD q
            = (s.m.rd pgPcie PCIE_Q_HEADS.SQ_HEAD q + 1) % s.m.ringSize q % 2 ^ PCIE_Q_HEADS.SQ_HEAD.width
          ∧ KeepsRest s t [fieldKey pgPcie PCIE_Q_HEADS.SQ_HEAD q])
      ∧ Completes (.descriptorFetch q none) s (fun t =>
        t.m.queueState q = (if s.m.lv pgPcie PCIE_Q_CFG.EN q = 1 then 3 else 0) ∧ t.m.irqBit pgPcie 10 = true
          ∧ t.m.hq q = s.m.hq q ∧ KeepsRest s t [fieldKey pgPcie PCIE_Q_STATE.STATE q]))
    ∧ (∀ d hostData, (s.m.hq q).cur = some d → s.m.busMaster = true → s.m.cqFull q = false → s.m.configReady = true →
      s.m.enforcing = false →
      let slot := s.m.lv64 pgPcie PCIE_Q_CQ_BASE_LO.ADDR PCIE_Q_CQ_BASE_HI.ADDR q + 16 * s.m.cqTail q
      let done := fun (t : State) (status bytes frames : Nat) (out : List HostWrite) =>
        (t.m.hq q).cur = none ∧ t.m.cqTail q = (s.m.cqTail q + 1) % s.m.ringSize q % 2 ^ PCIE_Q_HEADS.CQ_TAIL.width
          ∧ t.m.rd pgPcie PCIE_Q_STATE.LAST_STATUS q = status % 2 ^ PCIE_Q_STATE.LAST_STATUS.width
          ∧ t.m.rd pgPcie PCIE_Q_DONE.COUNT q
            = Nat.min (s.m.rd pgPcie PCIE_Q_DONE.COUNT q + 1) (2 ^ PCIE_Q_DONE.COUNT.width - 1)
          ∧ (t.m.hostif.out.take (s.m.hostif.out.length + out.length + 1)) = s.m.hostif.out ++ out ++ [⟨slot,
            leBytes 4 d.tag ++ leBytes 4 bytes ++ leBytes 2 (s.m.rd pgPcie PCIE_Q_HEADS.SQ_HEAD q) ++ leBytes 2 frames
              ++ leBytes 1 status ++ leBytes 1 0 ++ leBytes 2 (s.m.hq q).phase.toNat⟩]
          ∧ KeepsPages s t [pgPcie]
      (∀ status bytes frames, (s.m.hq q).ready = some (status, bytes, frames) →
        Completes (.completionWrite q hostData none) s fun t => done t status bytes frames [] ∧ t.hbm = s.hbm)
      ∧ ((s.m.hq q).ready = none → (s.m.hq q).early ≠ 0 →
        (s.m.queueKind q ≠ 2 → Completes (.completionWrite q hostData none) s fun t =>
          done t (s.m.hq q).early 0 0 [] ∧ t.hbm = s.hbm)
        ∧ (s.m.queueKind q = 2 → Completes (.completionWrite q hostData none) s fun t =>
          done t ((s.m.hq q).early % 256) (s.m.hq q).placed (s.m.hq q).frames [] ∧ t.hbm = s.hbm))
      ∧ ((s.m.hq q).ready = none → (s.m.hq q).early = 0 → (s.m.region d.region).holds d.hbmOfs d.length = true →
        (s.m.queueKind q = 0 → poisoned s.hbm (s.m.region d.region) d.hbmOfs d.length = false → (∀ st, s.m.armed 0 st = 0) →
          Completes (.completionWrite q hostData none) s fun t =>
            done t 0 d.length 0 [⟨d.hostAddr, readBytes s.hbm (s.m.region d.region) d.hbmOfs d.length⟩] ∧ t.hbm = s.hbm)
        ∧ (s.m.queueKind q = 1 → hostData.length = d.length → Completes (.completionWrite q hostData none) s fun t =>
          done t 0 d.length 0 []
            ∧ ((s.m.region d.region).inside = true → readBytes t.hbm (s.m.region d.region) d.hbmOfs d.length = hostData)
            ∧ KeepsOutside s t (s.m.region d.region) d.hbmOfs (d.hbmOfs + d.length))))
    ∧ (0 < (s.m.hq q).unsig → (s.m.hq q).unsigAt + s.m.lv pgPcie PCIE_Q_IRQ.IRQ_USEC q * 2000 ≤ s.m.clk.ticks + 1 →
      Completes (.queueIrqTimeout q) s fun t =>
        t.m.hq q = { s.m.hq q with unsig := 0 }
          ∧ (if s.m.msixEnabled = true ∧ s.m.msixMasked q = false then t.m.hostif.out.length = s.m.hostif.out.length + 1
            else t.m.hostif.msixPend.get 0 q = 1)
          ∧ t.m.reg = s.m.reg ∧ t.hbm = s.hbm)
    ∧ (s.m.queueKind q = 2 → (s.m.hq q).placedAt + s.m.lv pgPcie PCIE_Q_FLUSH.FLUSH_US q * 2000 ≤ s.m.clk.ticks + 1 →
      (s.m.hq q).cur.isSome = true → (s.m.hq q).early = 0 → 0 < (s.m.hq q).frames → Completes (.streamRxFlush q) s fun t =>
        t.m.hq q = { s.m.hq q with early := 256 } ∧ t.m.reg = s.m.reg ∧ t.hbm = s.hbm)
    ∧ (∀ (src : Island) f, s.m.arrival src 36 = some (.hostFrame q f) → s.m.inFlight f.tag none = true →
      ((s.m.hq q).cur = none → Completes (.streamRxFrame src) s fun t =>
        t.m.hq q = { s.m.hq q with waiting := addFrame (s.m.hq q).waiting f } ∧ t.m.reg = s.m.reg ∧ t.hbm = s.hbm)
      ∧ (∀ d, (s.m.hq q).cur = some d → (s.m.hq q).waiting = [] → (s.m.hq q).early = 0 → s.m.busMaster = true → f.kind ≠ 1 →
        s.m.enforcing = false →
        (s.m.hq q).placed + (f.bytes (crc32c f.data) f.data).length ≤ d.length → Completes (.streamRxFrame src) s fun t =>
          (t.m.hq q).placed = (s.m.hq q).placed + (f.bytes (crc32c f.data) f.data).length
            ∧ (t.m.hq q).frames = (s.m.hq q).frames + 1 ∧ (t.m.hq q).waiting = []
            ∧ t.m.hostif.out = s.m.hostif.out ++ [⟨d.hostAddr + (s.m.hq q).placed, f.bytes (crc32c f.data) f.data⟩]
            ∧ t.hbm = s.hbm))

/-! ## Power (spec/16) -/

/-- R155, R449, R450, R501–R503, R505–R509, R513, R515, R516: VIN, the steps of start-up and their limits, moves between states,
OFF, the power-fail warning and the restarts, and snapshots. A shedding of load keeps the ledger and drops the HBM. -/
def Obligations.PowerStates : Prop :=
  ∀ s : State,
    let count := fun (t : State) (f : Fld) => t.m.rd pgPwr f = Nat.min (s.m.rd pgPwr f + 1) (2 ^ f.width - 1)
    let stands := fun (t : State) => t.m.reg = s.m.reg ∧ t.m.power = s.m.power ∧ t.hbm = s.hbm
    let flash := fun (t : State) => t.m.safety.ledger = s.m.safety.ledger ∧ t.m.safety.drives = s.m.safety.drives
      ∧ t.hbm.cells = [] ∧ t.hbm.poison = []
    let kept := fun (t : State) => t.m.safety.slots = s.m.safety.slots ∧ flash t
    let shed := fun (t : State) (state : Nat) => t.m.rd pgPwr PWR_STATE.STATE = state ∧ t.m.rd pgPwr PWR_STATUS.READY = 0
      ∧ t.m.rd pgPwr PWR_STATUS.PGOOD = 0 ∧ t.m.power.shed = true ∧ t.m.core = [] ∧ t.m.brick = []
      ∧ t.m.safety.stores = [] ∧ (s.m.storeState ≠ 3 → t.m.safety.slots = s.m.safety.slots) ∧ flash t
    let again := fun (t : State) => t.m.rd pgPwr PWR_STATE.STATE = 5 ∧ t.m.rd pgPwr PWR_START.STEP = 2
      ∧ t.m.rd pgPwr PWR_START.FAIL = 0 ∧ t.m.rd pgPwr PWR_STATUS.READY = 0 ∧ t.m.rd pgSaf SAF_STATUS.PFW = 0
      ∧ t.m.irqBit pgPwr 9 = true ∧ t.m.power.shed = false ∧ count t PWR_EVENTS.RESTARTS ∧ t.m.reg.live = [] ∧ kept t
      ∧ t.m.safety.unsaved = s.m.safety.unsaved
      ∧ t.m.rd pgSaf SAF_WALL.SECONDS = s.m.rd pgSaf SAF_WALL.SECONDS
    let ready := fun (t : State) => t.m.rd pgPwr PWR_START.STEP = 8 ∧ t.m.rd pgPwr PWR_STATUS.READY = 1
      ∧ t.m.rd pgSys SYS_STATUS.READY = 1 ∧ t.m.rd pgPwr PWR_STATE.STATE = 0 ∧ t.m.irqBit pgSys 8 = true
      ∧ t.m.rd pgPwr PWR_START.READY_MS = Nat.min 65535 ((s.m.clk.ticks - s.m.power.startAt) / 2000000)
      ∧ t.hbm = s.hbm
    (s.m.power.vin = false → Completes .vinApply s fun t => t.m.reg = RegFile.reset ∧ t.m.power = Power.reset ∧ t.m.safety.unsaved = [] ∧ kept t)
    ∧ (s.m.power.vin = true → Completes .vinApply s fun t => t = s)
    ∧ (s.m.power.vin = true → Completes .vinRemoval s fun t => t.m.reg = RegFile.reset ∧ t.m.power.vin = false ∧ t.m.safety.unsaved = [] ∧ kept t)
    ∧ (s.m.power.vin = true → s.m.power.shed = false → s.m.rd pgPwr PWR_START.FAIL = 0 → s.m.rd pgPwr PWR_STATE.STATE = 5 →
      (s.m.startStep = 1 → Completes .startupStepEnd s fun t =>
        t.m.rd pgPwr PWR_START.STEP = 2 ∧ KeepsRest s t [fieldKey pgPwr PWR_START.STEP 0])
      ∧ (s.m.startStep = 2 → s.m.soundLedger = [] →
        (s.m.bestSlot = none → Completes .startupStepEnd s fun t =>
          t.m.rd pgPwr PWR_START.STEP = 3 ∧ t.m.rd pgCal CAL_GENERATION.GEN = 0
            ∧ t.m.rd pgCal CAL_STORE_STATUS.FACTORY_FALLBACK = 1 ∧ (∀ x : Fin 4, t.m.reporting (292 + x))
            ∧ OtherPages s t [pgCal, pgPwr])
        ∧ (∀ k, s.m.bestSlot = some k → Completes .startupStepEnd s fun t =>
          t.m.rd pgPwr PWR_START.STEP = 3 ∧ t.m.rd pgCal CAL_STORE_STATUS.ACTIVE_SLOT = k
            ∧ t.m.rd pgCal CAL_GENERATION.GEN = (s.m.slot k).gen % 2 ^ CAL_GENERATION.GEN.width
            ∧ t.m.rd pgCal CAL_STORE_STATUS.OTHER_VALID = (s.m.slot (1 - k)).valid.toNat
            ∧ OtherPages s t [pgCal, pgPwr]))
      ∧ (s.m.startStep = 3 → Completes .startupStepEnd s fun t =>
        t.m.rd pgPwr PWR_START.STEP = 4 ∧ t.m.rd pgPwr PWR_STATUS.PGOOD = 1 ∧ t.m.power.work = []
          ∧ KeepsRest s t [fieldKey pgPwr PWR_START.STEP 0, fieldKey pgPwr PWR_STATUS.PGOOD 0])
      ∧ (s.m.startStep = 4 →
        s.m.rd pgPwr PWR_START.REF_TIMEOUT = 1 ∨ (∀ l ∈ List.range 10, s.m.loopState l = 1) →
        Completes .startupStepEnd s fun t =>
          t.m.rd pgPwr PWR_START.STEP = 5 ∧ KeepsRest s t [fieldKey pgPwr PWR_START.STEP 0])
      ∧ (s.m.startStep = 4 → s.m.rd pgPwr PWR_START.REF_TIMEOUT = 0 → (∃ l ∈ List.range 10, s.m.loopState l ≠ 1) →
        Completes .startupStepEnd s stands)
      ∧ (s.m.startStep = 5 → s.m.soundLedger = [] → Completes .startupStepEnd s fun t =>
        t.m.rd pgPwr PWR_START.STEP = 6 ∧ t.m.stack = s.m.stack ∧ KeepsRest s t [fieldKey pgPwr PWR_START.STEP 0])
      ∧ (s.m.startStep = 6 → s.m.rd pgCal CAL_STARTUP.STARTUP_FG_EN = 0 → Completes .startupStepEnd s ready)
      ∧ (s.m.startStep = 7 → s.m.runsDone = true → Completes .startupStepEnd s ready)
      ∧ (s.m.startStep = 7 → s.m.runsDone = false → Completes .startupStepEnd s stands))
    ∧ (∀ ms, startupLimit s.m.startStep = some ms → s.m.rd pgPwr PWR_STATE.STATE = 5 → s.m.rd pgPwr PWR_START.FAIL = 0 →
      s.m.power.stepAt + ms * 2000000 ≤ s.m.clk.ticks → Completes .startupLimit s fun t =>
        t.m.rd pgPwr PWR_START.FAIL = 1 ∧ t.m.irqBit pgPwr 10 = true
          ∧ (s.m.startStep = 3 → t.m.rd pgPwr PWR_STATUS.PGOOD = 0)
          ∧ (s.m.startStep ≠ 3 → t.m.rd pgPwr PWR_STATUS.PGOOD = s.m.rd pgPwr PWR_STATUS.PGOOD)
          ∧ KeepsRest s t [fieldKey pgPwr PWR_START.FAIL 0, fieldKey pgPwr PWR_STATUS.PGOOD 0])
    ∧ (s.m.startStep = 4 → s.m.loopState 0 ≠ 1 → s.m.rd pgPwr PWR_START.REF_TIMEOUT = 0 →
      s.m.power.stepAt + s.m.rd pgPwr PWR_REF_WAIT.MS * 2000000 ≤ s.m.clk.ticks → Completes .refWaitExpiry s fun t =>
        t.m.rd pgPwr PWR_START.REF_TIMEOUT = 1
          ∧ (∀ l : Fin 10, t.m.loopState l = 2
            ∧ t.m.rd pgClk CLK_LOOP_EVENTS.LOSSES l = s.m.rd pgClk CLK_LOOP_EVENTS.LOSSES l)
          ∧ t.m.reg.irqStat = s.m.reg.irqStat ∧ OtherPages s t [pgClk, pgPwr])
    ∧ (∀ v : Fin 4, s.m.power.move = some v.val →
      (s.m.power.moveEnd ≤ s.m.clk.ticks + 1 → Completes .moveComplete s fun t =>
        t.m.rd pgPwr PWR_STATE.STATE = v ∧ t.m.rd pgPwr PWR_STATE.MOVING = 0
          ∧ t.m.rd pgPwr PWR_STATE.TRANSITIONS
            = Nat.min (s.m.rd pgPwr PWR_STATE.TRANSITIONS + 1) (2 ^ PWR_STATE.TRANSITIONS.width - 1)
          ∧ t.m.power.move = none ∧ t.m.irqBit pgPwr 8 = true
          ∧ (2 ≤ v.val → ∀ x : Fin 4, (t.m.cv x).powered = false ∧ t.m.rd (pgCnv x) CNV_PWR_DET.VALID = 0)
          ∧ (v.val = 3 → (∀ l ∈ [1, 2, 3, 4, 6, 7, 8, 9], t.m.loopState l = 0) ∧ ∀ n : Fin 8, t.m.driveState n = 0)
          ∧ (v.val < 2 → OtherPages s t [pgPwr])
          ∧ (v.val = 2 → OtherPages s t [pgPwr, pgCnv 0, pgCnv 1, pgCnv 2, pgCnv 3]))
      ∧ (s.m.clk.ticks + 1 < s.m.power.moveEnd → Completes .moveComplete s stands))
    ∧ (∀ r, s.arrives r pgPwr = true →
      (r = .mgt → s.m.power.shed = false → Completes (.pwrOffReq r) s fun t =>
        shed t 4 ∧ t.m.safety.unsaved = s.m.safety.unsaved)
      ∧ (r ≠ .mgt ∨ s.m.power.shed = true → Completes (.pwrOffReq r) s stands)
      ∧ (r = .mgt → s.m.rd pgPwr PWR_STATE.STATE = 4 ∨ s.m.rd pgPwr PWR_START.FAIL = 1 → Completes (.pwrOffWake r) s again)
      ∧ (r ≠ .mgt ∨ s.m.rd pgPwr PWR_STATE.STATE ≠ 4 ∧ s.m.rd pgPwr PWR_START.FAIL ≠ 1 → Completes (.pwrOffWake r) s stands)
      ∧ (r ≠ .jdl → Completes (.pwrSnap r) s fun t =>
        t.m.rd64 pgPwr PWR_SNAP_TIME_LO.TIME PWR_SNAP_TIME_HI.TIME = s.m.now
          ∧ (∀ c : Fin 16, t.m.rd64 pgPwr PWR_WORK_LO.COUNT PWR_WORK_HI.COUNT c = s.m.power.work.get 0 c % 2 ^ 64)
          ∧ t.m.power = s.m.power ∧ OtherPages s t [pgPwr])
      ∧ (r = .jdl → Completes (.pwrSnap r) s stands))
    ∧ (s.m.power.vin = true → 2 ≤ s.m.rd pgPwr PWR_START.STEP → s.m.rd pgSaf SAF_STATUS.PFW = 0 →
      Completes .powerFailWarning s fun t =>
        shed t 6 ∧ t.m.safety.unsaved = [] ∧ t.m.rd pgSaf SAF_STATUS.PFW = 1 ∧ count t PWR_EVENTS.PFW ∧ bit (t.m.rd pgMgt MGT_ALERT.CAUSE) 2 = true
          ∧ t.m.irqBit pgSaf 8 = true ∧ t.m.reporting 853)
    ∧ (s.m.power.vin = true → s.m.rd pgSaf SAF_STATUS.PFW = 1 → s.m.rd pgSaf SAF_STATUS.THERMAL_SHUTDOWN = 0 →
      Completes .restartAfterPfw s again)

/-! ## The debug link (spec/16) -/

/-- R517–R521: the TAP's instruction; a request is issued or dropped; the outcome that Capture-DR loads; the request in flight
completes in its space, with REFUSED where it may not, or times out. -/
def Obligations.DebugLink : Prop :=
  ∀ s : State,
    let stands := fun (t : State) => t.m.jdl = s.m.jdl ∧ t.m.reg = s.m.reg ∧ t.hbm = s.hbm
    let drops := fun (t : State) =>
      t.m.rd pgDbg DBG_JDL_STATS.DROPPED
          = Nat.min (s.m.rd pgDbg DBG_JDL_STATS.DROPPED + 1) (2 ^ DBG_JDL_STATS.DROPPED.width - 1)
        ∧ t.m.jdl = s.m.jdl ∧ KeepsRest s t [fieldKey pgDbg DBG_JDL_STATS.DROPPED 0]
    let refused := fun (t : State) => t.m.rd pgDbg DBG_JDL_STATS.REFUSED
      = Nat.min (s.m.rd pgDbg DBG_JDL_STATS.REFUSED + 1) (2 ^ DBG_JDL_STATS.REFUSED.width - 1)
    (Completes .testLogicReset s fun t => t.m.jdl = { s.m.jdl with ir := 1 } ∧ t.m.reg = s.m.reg ∧ t.hbm = s.hbm)
    ∧ (∀ code : Byte, Completes (.updateIr code) s fun t =>
      t.m.jdl = { s.m.jdl with ir := if code = 1 then 1 else if code = 2 then 2 else 255 } ∧ t.m.reg = s.m.reg ∧ t.hbm = s.hbm)
    ∧ (s.m.jdl.ir ≠ 2 ∨ s.m.jdl.req = none → Completes .jdlNop s stands)
    ∧ (s.m.jdl.ir = 2 → s.m.jdl.req.isSome = true → Completes .jdlNop s drops)
    ∧ (∀ (space : Fin 16) (addr : BitVec 40) (data : Word),
      (s.m.jdl.ir = 2 → s.m.jdl.req = none →
        Completes (.jdlRead space addr) s (fun t =>
          t.m.jdl = { s.m.jdl with req := some ⟨false, space, addr.toNat, 0⟩, issued := s.m.clk.ticks, lost := false }
            ∧ t.m.reg = s.m.reg ∧ t.hbm = s.hbm)
        ∧ Completes (.jdlWrite space addr data) s (fun t =>
          t.m.jdl
              = { s.m.jdl with req := some ⟨true, space, addr.toNat, data.toNat⟩, issued := s.m.clk.ticks, lost := false }
            ∧ t.m.reg = s.m.reg ∧ t.hbm = s.hbm))
      ∧ (s.m.jdl.ir = 2 → s.m.jdl.req.isSome = true →
        Completes (.jdlRead space addr) s drops ∧ Completes (.jdlWrite space addr data) s drops)
      ∧ (s.m.jdl.ir ≠ 2 → Completes (.jdlRead space addr) s stands ∧ Completes (.jdlWrite space addr data) s stands))
    ∧ (s.m.jdl.ir = 2 → Completes .jdlCapture s fun t =>
      t.m.jdl.capture % 2 ^ 32 = s.m.jdl.data % 2 ^ 32 ∧ t.m.jdl.capture / 2 ^ 32 % 4 = s.m.jdl.result % 4
        ∧ bit t.m.jdl.capture 34 = s.m.jdl.req.isSome ∧ bit t.m.jdl.capture 35 = s.m.jdl.write
        ∧ t.m.jdl.req = s.m.jdl.req ∧ t.m.reg = s.m.reg ∧ t.hbm = s.hbm)
    ∧ (∀ q, s.m.jdl.req = some q →
      let c := q.addr / 2 ^ 32
      let a := q.addr % 2 ^ 32
      let k := s.m.cr c
      let dst := s.m.jdlIsland q
      let clear := s.m.railsUp && !s.m.jdl.lost && (dst == 59 || !s.m.pairBusy 59 dst && s.m.armed 2 dst == 0)
      let ends := fun (t : State) (result : Nat) => t.m.jdl.req = none ∧ t.m.jdl.result = result ∧ t.m.jdl.write = q.write
        ∧ t.m.jdl.ir = s.m.jdl.ir ∧ (q.write = true → t.m.jdl.data = s.m.jdl.data)
      let core := fun (t : State) (result : Nat) (k' : CoreSt) => ends t result ∧ t.m.cr c = k'
        ∧ (∀ j, j ≠ c → t.m.cr j = s.m.cr j) ∧ KeepsRest s t []
      (s.m.jdl.issued + 200000 ≤ s.m.clk.ticks → Completes .jdlTimeout s fun t => ends t 3 ∧ t.m.reg = s.m.reg ∧ t.hbm = s.hbm)
      ∧ (s.m.clk.ticks < s.m.jdl.issued + 200000 → Completes .jdlTimeout s stands
        ∧ (s.m.jdlInRange q = false → Completes .jdlCompletion s fun t =>
          ends t 1 ∧ refused t ∧ KeepsRest s t [fieldKey pgDbg DBG_JDL_STATS.REFUSED 0])
        ∧ (s.m.jdlInRange q = true → s.m.railsUp = false ∨ s.m.jdl.lost = true → Completes .jdlCompletion s stands)
        ∧ (s.m.jdlInRange q = true → s.m.railsUp = true → s.m.jdl.lost = false → dst ≠ 59 → s.m.pairBusy 59 dst = false →
          0 < s.m.armed 2 dst → Completes .jdlCompletion s fun t =>
            t.m.jdl = { s.m.jdl with lost := true } ∧ t.m.reporting (792 + dst) ∧ KeepsRest s t [])
        ∧ (s.m.jdlInRange q = true → clear = true → q.space = 0 → s.arrives .jdl (q.addr / 4096) = true →
          (q.write = false → Completes .jdlCompletion s fun t =>
            ends t 0 ∧ t.m.jdl.data = t.m.reg.answer.get 0 (requesterKey .jdl) % 2 ^ 32)
          ∧ (q.write = true → jdlRefuses (q.addr / 4096) (q.addr % 4096) = true → Completes .jdlCompletion s fun t =>
            ends t 1 ∧ (pageIsland (q.addr / 4096) = 57 →
              refused t ∧ KeepsRest s t [fieldKey pgDbg DBG_JDL_STATS.REFUSED 0]))
          ∧ (q.write = true → jdlRefuses (q.addr / 4096) (q.addr % 4096) = false → Completes .jdlCompletion s fun t =>
            ends t 0))
        ∧ (s.m.jdlInRange q = true → clear = true → (s.m.charge 62 (s.m.jdlCosts q)).1 = true →
          (q.space = 1 → q.write = true → Completes .jdlCompletion s fun t =>
            ends t 0 ∧ (∀ i : Fin 4, t.hbm.byte (q.addr + i) = BitVec.ofNat 8 (q.data / 256 ^ i.val))
              ∧ (∀ x, x < q.addr ∨ q.addr + 4 ≤ x → t.hbm.byte x = s.hbm.byte x) ∧ t.hbm.poison = s.hbm.poison
              ∧ t.m.reg = s.m.reg)
          ∧ (q.space = 1 → q.write = false → s.m.armed 0 (q.addr / 25769803776) = 0 → Completes .jdlCompletion s fun t =>
            ends t (if s.hbm.poison.get 0 (q.addr / 32) = 1 then 2 else 0)
              ∧ t.m.jdl.data = leNat ((List.range 4).map fun i => s.hbm.byte (q.addr + i)) % 2 ^ 32
              ∧ t.m.reg = s.m.reg ∧ t.hbm = s.hbm)
          ∧ (q.space = 2 → q.write = true → Completes .jdlCompletion s fun t =>
            core t 0 { k with imem := k.imem.set 0 a q.data })
          ∧ (q.space = 2 → q.write = false → Completes .jdlCompletion s fun t =>
            core t 0 k ∧ t.m.jdl.data = k.imem.get 0 a % 2 ^ 32)
          ∧ (q.space = 3 → dataOk c a 4 = false → Completes .jdlCompletion s fun t => core t 2 k)
          ∧ (q.space = 3 → q.write = true → dataOk c a 4 = true → isIo a = false → Completes .jdlCompletion s fun t =>
            core t 0 { k with dmem := (t.m.cr c).dmem }
              ∧ (∀ i : Fin 4, Store.get 0 (t.m.cr c).dmem (a + i) = BitVec.ofNat 8 (q.data / 256 ^ i.val))
              ∧ (∀ x, x < a ∨ a + 4 ≤ x → Store.get 0 (t.m.cr c).dmem x = Store.get 0 k.dmem x))
          ∧ (q.space = 3 → q.write = false → dataOk c a 4 = true → isIo a = false → s.m.armed 1 (s.m.coreUnit c) = 0 →
            Completes .jdlCompletion s fun t => core t 0 k ∧ t.m.jdl.data = k.peek a 4 % 2 ^ 32)
          ∧ (q.space = 3 → dataOk c a 4 = true → isIo a = true → Completes .jdlCompletion s fun t =>
            ends t 0 ∧ (t.m.cr c).high = k.high ∧ (t.m.cr c).held = k.held)
          ∧ (q.space = 4 → q.write = true → Completes .jdlCompletion s fun t =>
            (∀ n, n ≠ a % 256 → (t.m.cr c).regIn (bit a 8) n = k.regIn (bit a 8) n)
              ∧ (a % 256 < 48 ∨ a % 256 = 49 → (t.m.cr c).regIn (bit a 8) (a % 256) = q.data % 2 ^ 32)
              ∧ (a % 256 = 48 → (t.m.cr c).regIn (bit a 8) 48 = setBits (k.regIn (bit a 8) 48) (srMask c) q.data % 2 ^ 32)
              ∧ (a % 256 = 51 → (t.m.cr c).regIn (bit a 8) 51 = q.data / 128 * 128 % 2 ^ 32)
              ∧ (t.m.cr c).pc = (if a % 256 = 52 then q.data else k.pc)
              ∧ core t 0 (t.m.cr c))
          ∧ (q.space = 4 → q.write = false → Completes .jdlCompletion s fun t =>
            core t 0 k ∧ (a % 256 ≠ 48 → a % 256 ≠ 50 → t.m.jdl.data
              = (if a % 256 = 52 then k.pc else k.regIn (bit a 8) (a % 256)) % 2 ^ 32))
          ∧ (q.space = 5 → q.write = true → Completes .jdlCompletion s fun t =>
            let key := accKey (bit a 8) (a % 4)
            core t 0 (t.m.cr c) ∧ (∀ j, j ≠ key → (t.m.cr c).acc.get 0 j = k.acc.get 0 j)
              ∧ (t.m.cr c).acc.get 0 key = setAccPart (k.seen.get 0 key) (a / 4 % 4) q.data
              ∧ (t.m.cr c).seen.get 0 key = setAccPart (k.seen.get 0 key) (a / 4 % 4) q.data)
          ∧ (q.space = 5 → q.write = false → Completes .jdlCompletion s fun t =>
            core t 0 k ∧ t.m.jdl.data = accPart (k.seen.get 0 (accKey (bit a 8) (a % 4))) (a / 4 % 4) % 2 ^ 32))))

/-! ## Register accesses and commits (spec/00, spec/15) -/

/-- R4–R8, R12, R24, R41, R439, R475, R520, R547: accesses that reach nothing or no page, or are of another width; words of the access
codes; 64-bit registers; the interrupt registers; counters cleared; SOFT_RESET. An access that may not pass yet waits in its place
(R16, R19). -/
def Obligations.RegisterAccess : Prop :=
  ∀ (s : State) (r : Requester),
    let stands := fun (t : State) => t.m.reg = s.m.reg ∧ t.hbm = s.hbm ∧ t.pending = s.pending
    (∀ off bytes v, s.m.reaches r (off / 4096) = false → Completes (.registerWrite r off bytes v) s fun t =>
      stands t ∧ (r ≠ .host → t = s) ∧ (r = .host → t.m.hostif.refused = s.m.hostif.refused + 1))
    ∧ (∀ off bytes v, s.m.reaches r (off / 4096) = true → s.m.claimed (off / 4096) = false →
      Completes (.registerWrite r off bytes v) s fun t =>
        t.m.rd pgPcie PCIE_UNCLAIMED.COUNT
            = Nat.min (s.m.rd pgPcie PCIE_UNCLAIMED.COUNT + 1) (2 ^ PCIE_UNCLAIMED.COUNT.width - 1)
          ∧ t.m.irqBit pgPcie 11 = true ∧ KeepsRest s t [fieldKey pgPcie PCIE_UNCLAIMED.COUNT 0])
    ∧ (∀ off bytes v, s.arrives r (off / 4096) = true → bytes ≠ 4 ∨ off % 4 ≠ 0 →
      Completes (.registerWrite r off bytes v) s stands
        ∧ (∀ i, i = .reg64LowRead r ⟨off, bytes⟩ ∨ i = .reg64HighRead r ⟨off, bytes⟩ → Completes i s fun t =>
          t.m.reg.answer.get 0 (requesterKey r) = 0 ∧ t.m.reg.latch = s.m.reg.latch ∧ KeepsRest s t []))
    ∧ (∀ off bytes v, s.m.reaches r (off / 4096) = true → s.m.claimed (off / 4096) = true →
      (s.m.hostWaits r (off / 4096) = true → Completes (.registerWrite r off bytes v) s fun t =>
        t.m.hostif.waiting = s.m.hostif.waiting ++ [.registerWrite r off bytes v] ∧ stands t)
      ∧ (s.m.hostWaits r (off / 4096) = false → s.m.requesterIsland r ≠ pageIsland (off / 4096) →
        s.m.pairBusy (s.m.requesterIsland r) (pageIsland (off / 4096)) = true → Completes (.registerWrite r off bytes v) s fun t =>
          (∃ e, t.m.net.transit = s.m.net.transit ++ [e]
            ∧ e.body = .access (off / 4096) true (.registerWrite r off bytes v)) ∧ stands t))
    ∧ (∀ v : Word, s.arrives r pgSys = true →
      Completes (.registerWrite r (4096 * pgSys + SYS_REG_SEL.REGION.off) 4 v) s (fun t =>
        t.m.rd pgSys SYS_REG_SEL.REGION = v.toNat % 64 ∧ KeepsRest s t [fieldKey pgSys SYS_REG_SEL.REGION 0])
      ∧ Completes (.registerWrite r (4096 * pgSys + SYS_REG_BASE.BASE.off) 4 v) s (fun t =>
        let b := s.m.rd pgSys SYS_REG_SEL.REGION
        t.m.sh pgSys SYS_REG_BASE.BASE b = v.toNat % 16384
          ∧ (∀ k, k ≠ fieldKey pgSys SYS_REG_BASE.BASE b → ∀ d, Store.get d t.m.reg.shadow k = Store.get d s.m.reg.shadow k)
          ∧ t.m.reg.live = s.m.reg.live ∧ t.m.reg.regs = s.m.reg.regs ∧ t.hbm = s.hbm))
    ∧ (∀ v : Word, s.arrives r pgPcie = true → Completes (.registerWrite r (4096 * pgPcie + PCIE_WIN_MISSES.COUNT.off) 4 v) s
      stands)
    ∧ (∀ v : Word, s.arrives r pgCal = true →
      (r ≠ .mgt → Completes (.registerWrite r (4096 * pgCal + CAL_STARTUP.STARTUP_FG_EN.off) 4 v) s stands)
      ∧ (r = .mgt → v.toNat % 65536 ≠ 0 → v.toNat / 65536 % 256 ≠ 0 →
        Completes (.registerWrite r (4096 * pgCal + CAL_STARTUP.STARTUP_FG_EN.off) 4 v) s fun t =>
          t.m.rd pgCal CAL_STARTUP.MAX_AGE = v.toNat % 65536 ∧ t.m.rd pgCal CAL_STARTUP.MAX_DTEMP = v.toNat / 65536 % 256
            ∧ t.m.rd pgCal CAL_STARTUP.STARTUP_FG_EN = v.toNat / 2 ^ 31
            ∧ KeepsRest s t [fieldKey pgCal CAL_STARTUP.MAX_AGE 0, fieldKey pgCal CAL_STARTUP.MAX_DTEMP 0,
              fieldKey pgCal CAL_STARTUP.STARTUP_FG_EN 0])
      ∧ (r = .mgt → v.toNat % 65536 = 0 → v.toNat / 65536 % 256 = 0 →
        Completes (.registerWrite r (4096 * pgCal + CAL_STARTUP.STARTUP_FG_EN.off) 4 v) s fun t =>
          t.m.rd pgCal CAL_STARTUP.MAX_AGE = s.m.rd pgCal CAL_STARTUP.MAX_AGE
            ∧ t.m.rd pgCal CAL_STARTUP.MAX_DTEMP = s.m.rd pgCal CAL_STARTUP.MAX_DTEMP))
    ∧ (∀ (v : Word), s.arrives r pgPcie = true →
      let key := 4096 * pgPcie + PCIE_Q_CQ_BASE_LO.ADDR.off
      let q := s.m.rd pgPcie PCIE_Q_SEL.QUEUE
      Completes (.reg64HighWrite r (key + 4) v) s (fun t =>
        t.m.reg.held.get none (requesterKey r) = some (key, v.toNat) ∧ t.m.reg.shadow = s.m.reg.shadow
          ∧ t.m.reg.live = s.m.reg.live ∧ t.m.reg.regs = s.m.reg.regs ∧ t.hbm = s.hbm)
      ∧ Completes (.reg64LowWrite r key v) s (fun t =>
        t.m.sh pgPcie PCIE_Q_CQ_BASE_LO.ADDR q = v.toNat
          ∧ t.m.sh pgPcie PCIE_Q_CQ_BASE_HI.ADDR q = (match s.m.reg.held.get none (requesterKey r) with
            | some (o, h) => if o = key then h % 2 ^ 32 else 0
            | none => 0)
          ∧ (∀ h, t.m.reg.held.get none (requesterKey r) ≠ some (key, h))
          ∧ (∀ k, k ≠ fieldKey pgPcie PCIE_Q_CQ_BASE_LO.ADDR q → k ≠ fieldKey pgPcie PCIE_Q_CQ_BASE_HI.ADDR q →
            ∀ d, Store.get d t.m.reg.shadow k = Store.get d s.m.reg.shadow k)
          ∧ t.m.reg.live = s.m.reg.live ∧ t.m.reg.regs = s.m.reg.regs ∧ t.hbm = s.hbm))
    ∧ (∀ p k (o : Fin 4096), s.arrives r p = true → pageKind p = some k →
      (k.isLow o = true → Completes (.reg64LowRead r ⟨4096 * p + o, 4⟩) s fun t =>
        t.m.reg.answer.get 0 (requesterKey r) = (s.admitted r p).m.readWord p o
          ∧ t.m.reg.latch.get none (requesterKey r) = some (4096 * p + o, (s.admitted r p).m.readWord p (o + 4))
          ∧ (∀ j, j ≠ r → t.m.reg.latch.get none (requesterKey j) = s.m.reg.latch.get none (requesterKey j))
          ∧ KeepsRest s t [])
      ∧ (4 ≤ o.val → k.isLow (o.val - 4) = true → k.isLow o = false →
        (∀ h, s.m.reg.latch.get none (requesterKey r) = some (4096 * p + o - 4, h) →
          Completes (.reg64HighRead r ⟨4096 * p + o, 4⟩) s fun t =>
            t.m.reg.answer.get 0 (requesterKey r) = h ∧ t.m.reg.latch.get none (requesterKey r) = none
              ∧ (∀ j, j ≠ r → t.m.reg.latch.get none (requesterKey j) = s.m.reg.latch.get none (requesterKey j))
              ∧ KeepsRest s t [])
        ∧ ((∀ h, s.m.reg.latch.get none (requesterKey r) ≠ some (4096 * p + o - 4, h)) →
          Completes (.reg64HighRead r ⟨4096 * p + o, 4⟩) s fun t =>
            t.m.reg.answer.get 0 (requesterKey r) = (s.admitted r p).m.readWord p o
              ∧ t.m.reg.latch = s.m.reg.latch ∧ KeepsRest s t [])))
    ∧ (∀ p (bits : Word), s.arrives r p = true →
      (mayIrq r p = true →
        Completes (.irqForce r p bits) s (fun t =>
          t.m.reg.irqStat.get 0 p = (s.m.reg.irqStat.get 0 p ||| (bits.toNat &&& 0xFFFFFF03))
            ∧ (∀ j, j ≠ p → t.m.reg.irqStat.get 0 j = s.m.reg.irqStat.get 0 j) ∧ (∀ j, t.m.reg.irqEn.get 0 j
              = s.m.reg.irqEn.get 0 j) ∧ KeepsRest s t [])
        ∧ Completes (.irqStatusClear r p bits) s (fun t =>
          t.m.reg.irqStat.get 0 p = (s.m.reg.irqStat.get 0 p &&& (0xFFFFFFFF ^^^ bits.toNat))
            ∧ (∀ j, j ≠ p → t.m.reg.irqStat.get 0 j = s.m.reg.irqStat.get 0 j) ∧ KeepsRest s t []))
      ∧ (mayIrq r p = false → Completes (.irqForce r p bits) s stands ∧ Completes (.irqStatusClear r p bits) s stands))
    ∧ (∀ p k, s.arrives r p = true → pageKind p = some k → k.hasCntClr = true → Completes (.cntClr r p) s fun t =>
      (∀ f ∈ k.counters, ∀ b < 65536, t.m.rd p f b = resetValue p f b) ∧ OtherPages s t [p])
    ∧ (∀ p, s.arrives r p = true →
      (s.m.mayReset r p = false → Completes (.softReset r p) s stands)
      ∧ (s.m.mayReset r p = true → p = pgFlt → Completes (.softReset r p) s fun t =>
        t.m.reg.irqStat.get 0 p = 0 ∧ t.m.reg.irqEn.get 0 p = 0 ∧ t.m.rd p FLT_SRC_SEL.SOURCE = 0 ∧ t.m.flt.log = s.m.flt.log
          ∧ (∀ k, keyPage k ≠ p → ∀ d, Store.get d t.m.reg.regs k = Store.get d s.m.reg.regs k)
          ∧ t.m.reg.live = s.m.reg.live ∧ t.hbm = s.hbm)
      ∧ (s.m.mayReset r p = true → p = pgCmp → Completes (.softReset r p) s fun t =>
        t.m.reg.irqStat.get 0 p = 1 ∧ t.m.reg.irqEn.get 0 p = 0 ∧ t.m.rd p COMMIT_STATUS.STATE = 2
          ∧ t.m.rd p COMMIT_STATUS.APPLY_COUNT = 1 ∧ t.m.shadowOf p = [] ∧ t.m.reg.live.window (pageLo p) (pageHi p) = []
          ∧ t.m.reg.commits.get none p = none ∧ t.m.codec = s.m.codec ∧ t.hbm = s.hbm)
      ∧ (s.m.mayReset r p = true → pageHasShadow p = true →
        ((s.admitted r p).m.softReset p (r == .mgt)).appliesAtOnce p [] = false → Completes (.softReset r p) s fun t =>
          t.m.reg.irqStat.get 0 p = 0 ∧ t.m.reg.irqEn.get 0 p = 0 ∧ t.m.shadowOf p = [] ∧ t.hbm = s.hbm
            ∧ ∃ c, t.m.reg.commits.get none p = some c ∧ c.snap = []))

/-- R25–R28, R30, R35, R494, R508: a snapshot is judged, refused with its register, or accepted and pending; it applies at its commit
point in full; a group is VALIDATING until its last verdict comes back, and then accepted or aborted as a whole. -/
def Obligations.Commits : Prop :=
  ∀ (s : State) (r : Requester),
    let stands := fun (t : State) => t.m.reg = s.m.reg ∧ t.hbm = s.hbm ∧ t.pending = s.pending
    let applied := fun (t : State) (p : Nat) (snap : Store Nat) =>
      (∀ k, keyPage k = p → ∀ d, Store.get d t.m.reg.live k = Store.get d snap k)
        ∧ (∀ k, keyPage k ≠ p → ∀ d, Store.get d t.m.reg.live k = Store.get d s.m.reg.live k)
        ∧ t.m.reg.shadow = s.m.reg.shadow ∧ t.m.reg.commits.get none p = none ∧ t.m.rd p COMMIT_STATUS.STATE = 2
        ∧ t.m.rd p COMMIT_STATUS.APPLY_COUNT
          = (s.m.rd p COMMIT_STATUS.APPLY_COUNT + 1) % 2 ^ COMMIT_STATUS.APPLY_COUNT.width ∧ t.m.irqBit p 0 = true
        ∧ t.hbm = s.hbm
    (∀ p (g : Fin 16), s.arrives r p = true →
      let m := (s.admitted r p).m.wr p COMMIT.GROUP g
      let snap := s.m.shadowOf p
      (jdlBarred r p = true → Completes (.commitGo r p g) s stands)
      ∧ (jdlBarred r p = false → p = pgSaf → r ≠ .mgt → Completes (.commitGo r p g) s fun t =>
        t.m.rd p COMMIT_STATUS.CODE = 4 ∧ t.m.rd p COMMIT.GROUP = s.m.rd p COMMIT.GROUP ∧ t.m.irqBit p 1 = true
          ∧ OtherPages s t [p])
      ∧ (jdlBarred r p = false → p ≠ pgSaf ∨ r = .mgt → s.m.validating p = true → Completes (.commitGo r p g) s fun t =>
        t.m.rd p COMMIT_STATUS.CODE = 5 ∧ t.m.rd p COMMIT.GROUP = g ∧ t.m.irqBit p 1 = true
          ∧ t.m.reg.commits = s.m.reg.commits ∧ OtherPages s t [p])
      ∧ (jdlBarred r p = false → p ≠ pgSaf ∨ r = .mgt → s.m.validating p = false →
        (pageHasShadow p = false → Completes (.commitGo r p g) s fun t =>
          t.m.rd p COMMIT.GROUP = g ∧ KeepsRest s t [fieldKey p COMMIT.GROUP 0])
        ∧ (∀ b, pageHasShadow p = true → m.judgeSnap p snap = some b → Completes (.commitGo r p g) s fun t =>
          t.m.rd p COMMIT_STATUS.CODE = b.code % 2 ^ COMMIT_STATUS.CODE.width
            ∧ t.m.rd p ERR_INFO.OFFSET = b.off % 2 ^ ERR_INFO.OFFSET.width
            ∧ t.m.rd p ERR_INFO.REASON = b.reason % 2 ^ ERR_INFO.REASON.width
            ∧ t.m.rd p ERR_INFO.AUX = b.aux % 2 ^ ERR_INFO.AUX.width
            ∧ t.m.rd p COMMIT_STATUS.STATE
              = (if (s.m.reg.commits.get none p).isSome then s.m.rd p COMMIT_STATUS.STATE else 3)
            ∧ t.m.irqBit p 1 = true ∧ t.m.reg.commits = s.m.reg.commits
            ∧ KeepsRest s t [fieldKey p COMMIT.GROUP 0, fieldKey p COMMIT_STATUS.STATE 0, fieldKey p COMMIT_STATUS.CODE 0,
              fieldKey p ERR_INFO.AUX 0, fieldKey p ERR_INFO.REASON 0, fieldKey p ERR_INFO.OFFSET 0])
        ∧ (pageHasShadow p = true → m.judgeSnap p snap = none → (m.acceptCommit p snap false).appliesAtOnce p snap = false →
          Completes (.commitGo r p g) s fun t =>
            (∃ c, t.m.reg.commits.get none p = some c ∧ c.snap = snap ∧ c.group = false) ∧ t.m.rd p COMMIT_STATUS.STATE = 1
              ∧ t.m.rd p COMMIT.GROUP = g ∧ OtherPages s t [p, pgDisp])
        ∧ (∀ k, pageKind p = some k → k = .chn ∨ k = .cmp ∨ k = .dcm → m.judgeSnap p snap = none →
          s.m.reg.shadow.sorted = true → Completes (.commitGo r p g) s fun t =>
            applied t p snap ∧ t.m.rd p COMMIT.GROUP = g)))
    ∧ (∀ p, s.m.reg.commits.get none p = none → Completes (.commitApplied p) s fun t => t = s)
    ∧ (∀ p c, s.m.reg.commits.get none p = some c → c.snap.sorted = true → (∀ e ∈ c.snap, keyPage e.1 = p) →
      (s.m.commitDue p = false ∨ s.m.validating p = true → Completes (.commitApplied p) s fun t => t = s)
      ∧ (p = pgBud → s.m.periodOffset.isSome = true → s.m.validating p = false → Completes (.commitApplied p) s fun t =>
        applied t p c.snap ∧ t.m.rd p COMMIT_STATUS.SUPERSEDED = c.superseded.toNat
          ∧ t.m.rd p BUD_STATUS.ENFORCING = t.m.lv p BUD_CTRL.ENFORCE % 2)
      ∧ (p = pgPwr → s.m.rd pgPwr PWR_STATE.MOVING = 0 → s.m.validating p = false → Completes (.commitApplied p) s fun t =>
        applied t p c.snap ∧ (s.m.rd pgPwr PWR_STATE.STATE < 4 → s.m.power.move = none →
          snapGet c.snap pgPwr PWR_TARGET.STATE ≠ s.m.rd pgPwr PWR_STATE.STATE →
          t.m.power.move = some (snapGet c.snap pgPwr PWR_TARGET.STATE) ∧ t.m.rd pgPwr PWR_STATE.MOVING = 1))
      ∧ (p = pgSys → Completes .regionMapApply s fun t =>
        applied t p c.snap ∧ t.m.rd p COMMIT_STATUS.SUPERSEDED = c.superseded.toNat))
    ∧ (s.m.reg.commits.get none pgSys = none → Completes .regionMapApply s fun t => t = s)
    ∧ (∀ g : Fin 16, s.arrives r pgSys = true →
      let m := (s.admitted r pgSys).m
      let here := (m.groupPages g).filter fun p => pageIsland p == 36
      let there := (m.groupPages g).filter fun p => pageIsland p != 36
      let refused := here.filter fun p => (m.judgeSnap p (m.shadowOf p)).isSome
      (g = 0 ∨ s.m.feature 3 = false ∨ s.m.reg.group.isSome = true → Completes (.sysGroupCommit r g) s stands)
      ∧ (g ≠ 0 → s.m.feature 3 = true → s.m.reg.group = none →
        (there ≠ [] → Completes (.sysGroupCommit r g) s fun t =>
          t.m.rd pgSys SYS_GROUP_STATUS.STATE = 1 ∧ t.m.rd pgSys SYS_GROUP_STATUS.GROUP = g
            ∧ t.m.rd pgSys SYS_GROUP_STATUS.PAGE = 0
            ∧ (t.m.reg.group.map GroupCommit.pages) = some (m.groupPages g)
            ∧ (t.m.reg.group.map GroupCommit.waiting) = some there
            ∧ (t.m.reg.group.map fun c => c.refused.map Prod.fst) = some refused
            ∧ (∀ q ∈ m.groupPages g, t.m.validating q = true ∧ t.m.rd q COMMIT_STATUS.STATE = 1)
            ∧ t.m.reg.live = s.m.reg.live ∧ t.m.reg.shadow = s.m.reg.shadow ∧ t.hbm = s.hbm)
        ∧ (∀ p l, there = [] → refused = p :: l → Completes (.sysGroupCommit r g) s fun t =>
          t.m.rd pgSys SYS_GROUP_STATUS.STATE = 3 ∧ t.m.rd pgSys SYS_GROUP_STATUS.GROUP = g
            ∧ t.m.rd pgSys SYS_GROUP_STATUS.PAGE = l.foldl Nat.min p % 2 ^ SYS_GROUP_STATUS.PAGE.width
            ∧ t.m.irqBit pgSys 9 = true ∧ t.m.reg.group = none
            ∧ (∀ j ∈ m.groupPages g, t.m.reg.commits.get none j = none) ∧ t.m.reg.live = s.m.reg.live
            ∧ t.m.reg.shadow = s.m.reg.shadow ∧ t.hbm = s.hbm)
        ∧ (there = [] → refused = [] → Completes (.sysGroupCommit r g) s fun t =>
          t.m.rd pgSys SYS_GROUP_STATUS.STATE = 2 ∧ t.m.rd pgSys SYS_GROUP_STATUS.GROUP = g
            ∧ t.m.rd pgSys SYS_GROUP_STATUS.PAGE = 0 ∧ t.m.irqBit pgSys 9 = true ∧ t.m.reg.group = none)))
    ∧ (∀ (src : Island) e p bad g, s.m.net.transit.find? (fun e => e.src == src.val && e.dst == 36) = some e →
      e.body = .verdict p bad → e.act = none → s.m.arrival src 36 = none → s.m.armed 2 36 = 0 → s.m.hostif.waiting = [] →
      s.m.reg.group = some g →
      (g.waiting.erase p ≠ [] → Completes (.mortarMessage src 36 false) s fun t =>
        (t.m.reg.group.map GroupCommit.waiting) = some (g.waiting.erase p) ∧ KeepsRest s t [])
      ∧ (g.waiting.erase p = [] → g.refused = [] → bad = none → Completes (.mortarMessage src 36 false) s fun t =>
        t.m.rd pgSys SYS_GROUP_STATUS.STATE = 2 ∧ t.m.rd pgSys SYS_GROUP_STATUS.PAGE = 0 ∧ t.m.irqBit pgSys 9 = true
          ∧ t.m.reg.group = none)
      ∧ (∀ b, g.waiting.erase p = [] → bad = some b → g.pages.contains p = true → Completes (.mortarMessage src 36 false) s fun t =>
        t.m.rd pgSys SYS_GROUP_STATUS.STATE = 3 ∧ t.m.irqBit pgSys 9 = true ∧ t.m.reg.group = none
          ∧ (∀ j ∈ g.pages, t.m.reg.commits.get none j = none) ∧ t.m.reg.live = s.m.reg.live
          ∧ t.m.reg.shadow = s.m.reg.shadow ∧ t.hbm = s.hbm))

/-! ## The mortar, the budgets, the HBM and the ledger (spec/01) -/

/-- R16, R23, R40–R42: the next message of a pair passes its joint, waits, is discarded and reported, or is held or dropped by its
budget; a period starts at its instant; PEAK is cleared. -/
def Obligations.MortarAndBudgets : Prop :=
  ∀ s : State,
    (∀ (src dst : Island) (corrupt : Bool), s.m.hostif.waiting = [] →
      (s.m.net.transit.find? (fun e => e.src == src.val && e.dst == dst.val) = none →
        Completes (.mortarMessage src dst corrupt) s fun t => t = s)
      ∧ (∀ e, s.m.net.transit.find? (fun e => e.src == src.val && e.dst == dst.val) = some e →
        ((s.m.arrival src dst).isSome = true → (s.deliver e).isSome = true → Completes (.mortarMessage src dst corrupt) s fun t =>
          t = s)
        ∧ (e.body.isPayload = false → s.m.arrival src dst = none ∨ s.deliver e = none →
          let left := s.onM fun m => m.leave src dst
          (corrupt = true ∨ 0 < s.m.armed 2 dst → Completes (.mortarMessage src dst corrupt) s fun t =>
            t.m.reporting (792 + dst) ∧ t.m.net.arrived = s.m.net.arrived ∧ t.m.net.transit.length = s.m.net.transit.length
              ∧ (0 < s.m.armed 2 dst → t.m.armed 2 dst = s.m.armed 2 dst - 1) ∧ KeepsRest s t [])
          ∧ (corrupt = false → s.m.armed 2 dst = 0 →
            (e.act = none → s.deliver e = none → Completes (.mortarMessage src dst corrupt) s fun t =>
              t.m.net.arrived = s.m.net.arrived ++ [e] ∧ t.m.net.transit.length + 1 = s.m.net.transit.length
                ∧ KeepsRest s t [])
            ∧ (∀ u, e.act = none → left.deliver e = some u → u.m.hostif.waiting = [] →
              Completes (.mortarMessage src dst corrupt) s fun t => t = u)
            ∧ (∀ a, e.act = some a → (s.m.charge a (e.costs s.m)).1 = true → s.deliver e = none →
              Completes (.mortarMessage src dst corrupt) s fun t =>
                t.m.net.arrived = s.m.net.arrived ++ [e] ∧ t.m.net.transit.length + 1 = s.m.net.transit.length
                  ∧ KeepsRest s t [])
            ∧ (∀ a, e.act = some a → (s.m.charge a (e.costs s.m)).1 = false → e.realTime = false →
              Completes (.mortarMessage src dst corrupt) s fun t =>
                t.m.net.transit = s.m.net.transit ∧ t.m.net.arrived = s.m.net.arrived
                  ∧ t.m.net.held.get 0 (64 * src.val + dst.val) = 1 ∧ OtherPages s t [pgBud])
            ∧ (∀ a g, e.act = some a → (s.m.charge a (e.costs s.m)).1 = false → e.realTime = true → e.body = .rects g →
              Completes (.mortarMessage src dst corrupt) s fun t =>
                t.m.net.arrived = s.m.net.arrived ∧ t.m.net.transit.length + 1 = s.m.net.transit.length
                  ∧ t.m.rd (pgDen g.engine) DEN_REPORT_DROPS.COUNT
                    = Nat.min (s.m.rd (pgDen g.engine) DEN_REPORT_DROPS.COUNT + 1) (2 ^ DEN_REPORT_DROPS.COUNT.width - 1)
                  ∧ t.hbm = s.hbm)))))
    ∧ (∀ res : Fin 78, s.m.periodDue res = false → Completes (.budgetPeriodStart res) s fun t => t = s)
    ∧ (∀ res : Fin 78, s.m.periodDue res = true → s.m.net.held = [] → s.m.net.writes = [] → s.m.hostif.waiting = [] →
      s.m.hostif.window = [] → (res.val < 4 → (s.m.st res).waiting = []) → Completes (.budgetPeriodStart res) s fun t =>
      (∀ a : Fin 64,
        t.m.rd pgBud BUD_USED.USED (entryNo res a) = s.m.net.used.get 0 (entryNo res a) % 2 ^ BUD_USED.USED.width
          ∧ (s.m.net.used.get 0 (entryNo res a) ≠ 0 → t.m.rd pgBud BUD_PEAK.PEAK (entryNo res a)
            = Nat.max (s.m.rd pgBud BUD_PEAK.PEAK (entryNo res a)) (s.m.net.used.get 0 (entryNo res a) % 2 ^ 24) % 2 ^ 24)
          ∧ (s.m.net.used.get 0 (entryNo res a) = 0 → s.m.rd pgBud BUD_PEAK.PEAK (entryNo res a) < 2 ^ 24 →
            t.m.rd pgBud BUD_PEAK.PEAK (entryNo res a) = s.m.rd pgBud BUD_PEAK.PEAK (entryNo res a))
          ∧ t.m.net.used.get 0 (entryNo res a) = 0 ∧ t.m.net.misfit.get 0 (entryNo res a) = 0)
        ∧ (∀ (other : Fin 78) (a : Fin 64), other ≠ res →
          t.m.net.used.get 0 (entryNo other a) = s.m.net.used.get 0 (entryNo other a)
            ∧ t.m.rd pgBud BUD_USED.USED (entryNo other a) = s.m.rd pgBud BUD_USED.USED (entryNo other a))
        ∧ t.m.rd pgBud BUD_PERIOD.PERIOD = s.m.rawTick / 2048 % 2 ^ BUD_PERIOD.PERIOD.width ∧ t.m.periodDue res = false
        ∧ OtherPages s t [pgBud])
    ∧ (∀ r : Requester, s.arrives r pgBud = true → Completes (.peakClr r) s fun t =>
      (∀ b < 65536, t.m.rd pgBud BUD_PEAK.PEAK b = 0 ∧ t.m.rd pgBud BUD_USED.USED b = s.m.rd pgBud BUD_USED.USED b)
        ∧ OtherPages s t [pgBud])

/-- R16, R23, R32, R34, R36, R41, R50–R54, R464: accesses of the HBM, in and outside their region, waiting behind their pair or for
their budget, and what a failing read leaves; repairs and retirements; the spare ledger. -/
def Obligations.HbmAndLedger : Prop :=
  ∀ s : State,
    (∀ (q : HbmReq) (act : Fin 64) (ecc : Ecc),
      let g := s.m.region q.region
      let dst := 32 + g.stackOf q.ofs
      let waits := fun (t : State) =>
        (∃ e, t.m.net.transit = s.m.net.transit ++ [e] ∧ e.body = .hbm (.hbmAccess q act ecc)) ∧ t.hbm = s.hbm
      let hit := fun (t : State) => t.m.rd pgSys SYS_REG_STATUS.UNMAPPED_HITS q.region
          = Nat.min (s.m.rd pgSys SYS_REG_STATUS.UNMAPPED_HITS q.region + 1) (2 ^ SYS_REG_STATUS.UNMAPPED_HITS.width - 1)
        ∧ t.m.reporting 852
      (s.m.pairBusy q.src dst = true → Completes (.hbmAccess q act ecc) s fun t => waits t ∧ t.m.reg = s.m.reg)
      ∧ (s.m.pairBusy q.src dst = false → 0 < s.m.armed 2 dst → Completes (.hbmAccess q act ecc) s fun t =>
        t.m.reporting (792 + dst) ∧ t.hbm = s.hbm ∧ t.m.reg = s.m.reg)
      ∧ (s.m.pairBusy q.src dst = false → s.m.armed 2 dst = 0 →
        ((s.m.charge act (hbmCosts q s.m)).1 = false → Completes (.hbmAccess q act ecc) s fun t =>
          waits t ∧ OtherPages s t [pgBud])
        ∧ ((s.m.charge act (hbmCosts q s.m)).1 = true →
          (∀ d, q.write = some d → Completes (.hbmAccess q act ecc) s fun t =>
            (g.holds q.ofs d.length = true → g.inside = true → readBytes t.hbm g q.ofs d.length = d)
              ∧ (g.holds q.ofs d.length = true → ∀ u, q.ofs ≤ 32 * u → 32 * u + 32 ≤ q.ofs + d.length →
                t.hbm.poison.get 0 (g.address (32 * u) / 32) = 0)
              ∧ KeepsOutside s t g q.ofs (q.ofs + d.length)
              ∧ (g.holds q.ofs d.length = true → t.m.reg = s.m.reg) ∧ (g.holds q.ofs d.length = false → hit t))
          ∧ (q.write = none → (∀ st : Fin 4, s.m.armed 0 st = 0) →
            (ecc = .clean → Completes (.hbmAccess q act ecc) s fun t =>
              t.m.hostif.reply = readBytes s.hbm g q.ofs q.len ∧ t.m.hostif.poison = poisoned s.hbm g q.ofs q.len ∧ t.hbm = s.hbm
                ∧ (g.holds q.ofs q.len = true → t.m.reg = s.m.reg) ∧ (g.holds q.ofs q.len = false → hit t))
            ∧ (ecc ≠ .clean → g.holds q.ofs q.len = true → 0 < q.len →
              let a := q.ofs / 32 * 32
              Completes (.hbmAccess q act ecc) s fun t =>
                t.m.hostif.reply = readBytes s.hbm g q.ofs q.len
                  ∧ t.m.hostif.poison = (poisoned s.hbm g q.ofs q.len || ecc == .double)
                  ∧ t.hbm.cells = s.hbm.cells ∧ t.m.reg = s.m.reg
                  ∧ t.m.reporting (channelSource (g.stackOf a) (channelOf (g.address a % 25769803776)))
                  ∧ (if ecc = .double then t.hbm.poison.get 0 (g.address a / 32) = 1 else t.hbm = s.hbm))))))
    ∧ (∀ (stack : Fin 4) (channel : Fin 32),
      let k := s.m.st stack
      let src := channelSource stack channel
      let logical := 32 * stack.val + channel.val
      let entry := fun (t : State) (kind out inn : Nat) => t.m.safety.unsaved = s.m.safety.unsaved ++ [⟨s.m.now,
          s.m.rd pgSaf SAF_WALL.SECONDS, kind, if s.m.safety.request = some (kind, logical) then 3 else 1, logical, out, inn,
          if s.m.rd pgFlt FLT_SRC_STATE.LATCHED src = 1 then s.m.rd pgFlt FLT_REC_SYND.SYNDROME src else 0, 0⟩]
        ∧ t.m.rd pgFlt FLT_SRC_STATE.BUCKET src = 0 ∧ t.m.rd pgFlt FLT_SRC_STATE.SEVERE src = 0
        ∧ (∀ j, j ≠ stack.val → t.m.st j = s.m.st j) ∧ OtherPages s t [pgFlt, pgMgt, pgBud]
      let goesOn := fun (t : State) => (t.m.st stack).repairs = k.repairs ∧ (t.m.st stack).used = k.used
        ∧ (t.m.st stack).retired = k.retired ∧ (t.m.st stack).waiting.length = k.waiting.length ∧ t.m.safety = s.m.safety
        ∧ OtherPages s t [pgBud]
      let barred := s.m.enforcing = true ∧ s.m.lv pgBud BUD_LIMIT.ALLOW (entryNo stack 63) ≠ 1
      (∀ w, k.order channel true = some w → s.m.enforcing = false ∨ w.left = 0 → Completes (.hbmRepairSwitch stack channel) s
        fun t => (t.m.st stack).repairs = k.repairs ++ [(channel.val, w.range.getD 0, w.block)] ∧ (t.m.st stack).used = k.used
          ∧ (t.m.st stack).retired = k.retired ∧ (t.m.st stack).waiting.length + 1 = k.waiting.length
          ∧ entry t 7 (w.range.getD 0) w.block)
      ∧ (∀ w, k.order channel true = some w → barred → w.left ≠ 0 → Completes (.hbmRepairSwitch stack channel) s goesOn)
      ∧ (k.order channel true = none → Completes (.hbmRepairSwitch stack channel) s goesOn)
      ∧ (∀ w, k.order channel false = some w → k.canRetire channel = true → s.m.enforcing = false ∨ w.left = 0 →
        let blocks := (k.free (some channel.val)).take 384
        Completes (.pseudoChannelRetire stack channel) s fun t =>
          (t.m.st stack).retired = some channel.val ∧ (t.m.st stack).waiting.length + 1 = k.waiting.length
            ∧ (t.m.st stack).used = k.used ++ blocks ∧ (t.m.st stack).repairs = k.repairs
            ∧ t.m.net.capLost.get 0 stack = s.m.net.capLost.get 0 stack + 600
            ∧ entry t 8 channel (blocks.headD 0))
      ∧ (∀ w, k.order channel false = some w → k.canRetire channel = true → barred → w.left ≠ 0 →
        Completes (.pseudoChannelRetire stack channel) s goesOn)
      ∧ (∀ w, k.order channel false = some w → k.canRetire channel = false → Completes (.pseudoChannelRetire stack channel) s
        fun t => (t.m.st stack).waiting.length + 1 = k.waiting.length ∧ (t.m.st stack).used = k.used
          ∧ (t.m.st stack).retired = k.retired ∧ t.m.reporting 14 ∧ OtherPages s t [pgBud])
      ∧ (k.order channel false = none → Completes (.pseudoChannelRetire stack channel) s goesOn))
    ∧ (∀ ok, s.m.safety.unsaved = [] → Completes (.ledgerAppend ok) s fun t => t = s)
    ∧ (∀ ok e l, s.m.safety.unsaved = e :: l →
      (16384 ≤ s.m.safety.ledger.length → Completes (.ledgerAppend ok) s fun t =>
        t.m.safety.unsaved = l ∧ t.m.safety.ledger = s.m.safety.ledger ∧ t.m.reporting 13
          ∧ t.m.rd pgSaf SAF_LEDGER_COUNT.UNRECORDED = Nat.min (s.m.rd pgSaf SAF_LEDGER_COUNT.UNRECORDED + 1)
            (2 ^ SAF_LEDGER_COUNT.UNRECORDED.width - 1)
          ∧ KeepsRest s t [fieldKey pgSaf SAF_LEDGER_COUNT.UNRECORDED 0])
      ∧ (s.m.safety.ledger.length < 16384 → ok = true → Completes (.ledgerAppend ok) s fun t =>
        t.m.safety.unsaved = l ∧ t.m.safety.ledger = s.m.safety.ledger ++ [e.sealed s.m.safety.ledger.length]
          ∧ t.m.rd pgSaf SAF_LEDGER_COUNT.ENTRIES = s.m.safety.ledger.length + 1
          ∧ KeepsRest s t [fieldKey pgSaf SAF_LEDGER_COUNT.ENTRIES 0])
      ∧ (s.m.safety.ledger.length < 16384 → ok = false → Completes (.ledgerAppend ok) s fun t =>
        t.m.safety = s.m.safety ∧ t.m.reporting 13 ∧ KeepsRest s t []))

/-! ## Steps, reset and memory -/

/-- R475 and the chapters' reset columns, R11, R66, R496, R501: every field reads its reset value, no commit, message or command waits,
no interrupt is shown or enabled, start-up stands at step 1, no feature is in force, and the spare ledger is empty: so the invariants of StepInvariants hold at reset. -/
def Obligations.ResetState : Prop :=
  let m := State.reset.m
  State.reset.pending = [] ∧ State.reset.hbm.wf = true
    ∧ (∀ p f b, m.rd p f b = resetValue p f b ∧ m.lv p f b = resetValue p f b ∧ m.sh p f b = resetValue p f b)
    ∧ (∀ p, m.reg.irqStat.get 0 p = 0 ∧ m.reg.irqEn.get 0 p = 0 ∧ m.reg.commits.get none p = none)
    ∧ m.net.transit = [] ∧ m.net.arrived = [] ∧ m.now = 0 ∧ m.clk.counting = false
    ∧ m.rd pgPwr PWR_STATE.STATE = 5 ∧ m.rd pgPwr PWR_START.STEP = 1 ∧ m.rd pgPwr PWR_STATUS.READY = 0
    ∧ m.rd pgPwr PWR_REF_WAIT.MS = 2000 ∧ m.rd pgPcie PCIE_BAR2.LOG2_SIZE = 30
    ∧ (∀ b, m.feature b = false) ∧ (∀ l : Fin 10, m.loopState l = 0) ∧ (∀ d : Fin 5, m.courseState d = 0)
    ∧ (∀ x : Fin 4, m.runState x = 0 ∧ m.rd (pgCnv x) CTRL.ENABLE = 0) ∧ (∀ n : Fin 8, m.driveState n = 0)
    ∧ (∀ q : Fin 64, m.queueState q = 0) ∧ m.volState = 0 ∧ m.jdl.ir = 1 ∧ m.jdl.req = none
    ∧ (∀ k : Fin 16, m.rd pgStr STR_STATUS.STATE k = 0) ∧ m.safeStopped = false
    ∧ m.safety.ledger = [] ∧ m.rd pgFlt FLT_SRC_THRESH.N 10 = 1 ∧ m.rd pgFlt FLT_SRC_WINDOW.MS 292 = 3600000

/-- The queue: a step is the command at its front, on the state with the rest of the queue, and every command answers a next state.
With an empty queue a tick passes (log entry 1, a design choice): the oscillator counts, and TIME64 where it counts. -/
def Obligations.FrontCommand : Prop :=
  ∀ s : State,
    (∀ c rest, step { s with pending := c :: rest } = exec c { s with pending := rest } ∧ ∃ t, exec c s = .next t)
    ∧ (s.m.power.vin = true → Steps { s with pending := [] } fun t =>
      t.m.clk.ticks = s.m.clk.ticks + 1 ∧ t.pending = []
        ∧ (s.m.codec.lanes = [] → s.m.codec.dlanes = [] → t.hbm = s.hbm)
        ∧ (s.m.clk.counting = true → s.m.rawTick + 1 ≠ 2 ^ 56 → t.m.clk.time = s.m.clk.time + 256)
        ∧ (s.m.clk.counting = false → t.m.clk.time = s.m.clk.time))
    ∧ (s.m.power.vin = false → Steps { s with pending := [] } fun t => t.m = s.m ∧ t.pending = [] ∧ t.hbm = s.hbm)

/-- R36, R53: every step keeps the HBM in canonical form, takes no command from the queue but its front, and never overwrites the
spare ledger, which stays within its 16,384 entries. -/
def Obligations.StepInvariants : Prop :=
  ∀ s t : State, s.hbm.wf = true → s.m.safety.ledger.length ≤ 16384 → step s = .next t →
    t.hbm.wf = true ∧ t.pending = s.pending.tail ∧ s.m.safety.ledger <+: t.m.safety.ledger
      ∧ t.m.safety.ledger.length ≤ 16384

/-- Memories in canonical form that read alike are equal, byte for byte and mark for mark. -/
def Obligations.CanonicalEqual : Prop :=
  ∀ h h' : Hbm, h.wf = true → h'.wf = true → (∀ a, h.byte a = h'.byte a) →
    (∀ u, h.poison.get 0 u = h'.poison.get 0 u) → h = h'
end

