-- ==== Sys2Proof/Laws/Store.lean ====
section
/-! SUPPORT. The laws of stores: what a read sees after a write, and that writes keep the canonical form. -/

namespace Sys2Proof.Machine

variable {α : Type}

@[simp] theorem Store.get_nil (d : α) (k : Nat) : Store.get d [] k = d := rfl

theorem Store.get_insert_same (d v : α) (k : Nat) (m : Store α) : Store.get d (Store.insert k v m) k = v := by
  induction m with
  | nil => simp [Store.insert, Store.get]
  | cons a m ih =>
    obtain ⟨j, w⟩ := a
    simp only [Store.insert]
    split
    · simp [Store.get]
    · split
      · simp [Store.get]
      · next h => simp [Store.get, h, ih]

theorem Store.get_insert_ne (d v : α) {k n : Nat} (h : k ≠ n) (m : Store α) :
    Store.get d (Store.insert k v m) n = Store.get d m n := by
  induction m with
  | nil => simp [Store.insert, Store.get, h]
  | cons a m ih =>
    obtain ⟨j, w⟩ := a
    simp only [Store.insert]
    split
    · simp [Store.get, h]
    · split
      · next hj => subst hj; simp [Store.get, h]
      · simp [Store.get, ih]

theorem Store.get_erase_same (d : α) (k : Nat) (m : Store α) : Store.get d (Store.erase k m) k = d := by
  induction m with
  | nil => rfl
  | cons a m ih =>
    obtain ⟨j, w⟩ := a
    simp only [Store.erase]
    split
    · exact ih
    · next h => simp [Store.get, h, ih]

theorem Store.get_erase_ne (d : α) {k n : Nat} (h : k ≠ n) (m : Store α) :
    Store.get d (Store.erase k m) n = Store.get d m n := by
  induction m with
  | nil => rfl
  | cons a m ih =>
    obtain ⟨j, w⟩ := a
    simp only [Store.erase]
    split
    · next hj => subst hj; simp [Store.get, h, ih]
    · simp [Store.get, ih]

/-! ## The canonical form, entry by entry -/

theorem Store.sorted_cons {j : Nat} {w : α} {m : Store α} :
    Store.sorted ((j, w) :: m) = true ↔ (∀ p ∈ m, j < p.1) ∧ m.sorted = true := by
  induction m generalizing j w with
  | nil => simp [Store.sorted]
  | cons a m ih =>
    obtain ⟨k, x⟩ := a
    have hi := @ih k x
    simp only [Store.sorted, Bool.and_eq_true, decide_eq_true_eq, List.mem_cons, forall_eq_or_imp]
    constructor
    · rintro ⟨h1, h2⟩
      exact ⟨⟨h1, fun p hp => Nat.lt_trans h1 ((hi.mp h2).1 p hp)⟩, h2⟩
    · rintro ⟨⟨h1, _⟩, h2⟩
      exact ⟨h1, h2⟩

theorem Store.mem_insert {p : Nat × α} {k : Nat} {v : α} {m : Store α} (h : p ∈ Store.insert k v m) : p = (k, v) ∨ p ∈ m := by
  induction m with
  | nil => simp [Store.insert] at h; exact .inl h
  | cons a m ih =>
    obtain ⟨j, w⟩ := a
    simp only [Store.insert] at h
    split at h
    · simpa using h
    · split at h
      · rcases List.mem_cons.mp h with h | h
        · exact .inl h
        · exact .inr (List.mem_cons_of_mem _ h)
      · rcases List.mem_cons.mp h with h | h
        · exact .inr (h ▸ List.mem_cons_self)
        · exact (ih h).imp id (List.mem_cons_of_mem _)

theorem Store.mem_erase {p : Nat × α} {k : Nat} {m : Store α} (h : p ∈ Store.erase k m) : p ∈ m := by
  induction m with
  | nil => simp [Store.erase] at h
  | cons a m ih =>
    obtain ⟨j, w⟩ := a
    simp only [Store.erase] at h
    split at h
    · exact List.mem_cons_of_mem _ (ih h)
    · rcases List.mem_cons.mp h with h | h
      · exact h ▸ List.mem_cons_self
      · exact List.mem_cons_of_mem _ (ih h)

theorem Store.sorted_insert {k : Nat} {v : α} {m : Store α} (h : m.sorted = true) : (Store.insert k v m).sorted = true := by
  induction m with
  | nil => rfl
  | cons a m ih =>
    obtain ⟨j, w⟩ := a
    obtain ⟨h1, h2⟩ := Store.sorted_cons.mp h
    simp only [Store.insert]
    split
    · next hk =>
      refine Store.sorted_cons.mpr ⟨fun p hp => ?_, h⟩
      rcases List.mem_cons.mp hp with hp | hp
      · exact hp ▸ hk
      · exact Nat.lt_trans hk (h1 p hp)
    · split
      · next hj => exact Store.sorted_cons.mpr ⟨hj ▸ h1, h2⟩
      · next hk hj =>
        refine Store.sorted_cons.mpr ⟨fun p hp => ?_, ih h2⟩
        rcases Store.mem_insert hp with hp | hp
        · subst hp; simp only; omega
        · exact h1 p hp

theorem Store.sorted_erase {k : Nat} {m : Store α} (h : m.sorted = true) : (Store.erase k m).sorted = true := by
  induction m with
  | nil => rfl
  | cons a m ih =>
    obtain ⟨j, w⟩ := a
    obtain ⟨h1, h2⟩ := Store.sorted_cons.mp h
    simp only [Store.erase]
    split
    · exact ih h2
    · exact Store.sorted_cons.mpr ⟨fun p hp => h1 p (Store.mem_erase hp), ih h2⟩

/-! ## Writes -/

section
variable [DecidableEq α]

/-- A read after a write to the same number gives the value written. -/
@[simp] theorem Store.get_set_same (d v : α) (k : Nat) (m : Store α) : Store.get d (Store.set d m k v) k = v := by
  unfold Store.set
  split
  · next h => rw [Store.get_erase_same, h]
  · exact Store.get_insert_same d v k m

/-- A write leaves every other number alone, whatever default it is read with. -/
theorem Store.get_set_ne (d d' v : α) {k n : Nat} (h : k ≠ n) (m : Store α) :
    Store.get d' (Store.set d m k v) n = Store.get d' m n := by
  unfold Store.set
  split
  · exact Store.get_erase_ne d' h m
  · exact Store.get_insert_ne d' v h m

/-- Every write keeps the canonical form. -/
theorem Store.wf_set {d v : α} {k : Nat} {m : Store α} (h : Store.wf d m = true) : Store.wf d (Store.set d m k v) = true := by
  simp only [Store.wf, Bool.and_eq_true, List.all_eq_true, decide_eq_true_eq] at h ⊢
  unfold Store.set
  split
  · exact ⟨Store.sorted_erase h.1, fun p hp => h.2 p (Store.mem_erase hp)⟩
  · next hv =>
    refine ⟨Store.sorted_insert h.1, fun p hp => ?_⟩
    rcases Store.mem_insert hp with hp | hp
    · subst hp; exact hv
    · exact h.2 p hp

end

end Sys2Proof.Machine
end

