-- ==== Sys2Proof/Laws/State.lean ====
section
/-! SUPPORT. What each shared update of the state leaves alone: one lemma per update, true by rfl, so that no later proof
unfolds a record update. -/

namespace Sys2Proof.Machine

@[simp] theorem Module.wr_frame (m : Module) (p : Nat) (f : Fld) (v b : Nat) :
    (m.wr p f v b).net = m.net ∧ (m.wr p f v b).clk = m.clk ∧ (m.wr p f v b).fresh = m.fresh ∧
    (m.wr p f v b).hostif = m.hostif ∧ (m.wr p f v b).conv = m.conv ∧ (m.wr p f v b).wide = m.wide ∧
    (m.wr p f v b).brick = m.brick ∧ (m.wr p f v b).course = m.course ∧ (m.wr p f v b).evtIn = m.evtIn ∧
    (m.wr p f v b).unit = m.unit ∧ (m.wr p f v b).trg = m.trg ∧ (m.wr p f v b).cap = m.cap ∧
    (m.wr p f v b).play = m.play ∧ (m.wr p f v b).den = m.den ∧ (m.wr p f v b).disp = m.disp ∧
    (m.wr p f v b).codec = m.codec ∧ (m.wr p f v b).stream = m.stream ∧ (m.wr p f v b).port = m.port ∧
    (m.wr p f v b).volume = m.volume ∧ (m.wr p f v b).core = m.core ∧ (m.wr p f v b).flt = m.flt ∧
    (m.wr p f v b).jdl = m.jdl ∧ (m.wr p f v b).power = m.power ∧ (m.wr p f v b).safety = m.safety ∧
    (m.wr p f v b).stack = m.stack ∧ (m.wr p f v b).reg.shadow = m.reg.shadow ∧ (m.wr p f v b).reg.live = m.reg.live ∧
    (m.wr p f v b).reg.wrote = m.reg.wrote ∧ (m.wr p f v b).reg.commits = m.reg.commits ∧
    (m.wr p f v b).reg.irqStat = m.reg.irqStat ∧ (m.wr p f v b).reg.irqEn = m.reg.irqEn ∧
    (m.wr p f v b).reg.route = m.reg.route ∧ (m.wr p f v b).reg.latch = m.reg.latch ∧
    (m.wr p f v b).reg.held = m.reg.held ∧ (m.wr p f v b).reg.answer = m.reg.answer := by
  refine ⟨?_, ?_, ?_, ?_, ?_, ?_, ?_, ?_, ?_, ?_, ?_, ?_, ?_, ?_, ?_, ?_, ?_, ?_, ?_, ?_, ?_, ?_, ?_, ?_, ?_, ?_, ?_, ?_, ?_, ?_, ?_, ?_, ?_, ?_, ?_⟩ <;> rfl

@[simp] theorem Module.wlv_frame (m : Module) (p : Nat) (f : Fld) (v b : Nat) :
    (m.wlv p f v b).net = m.net ∧ (m.wlv p f v b).clk = m.clk ∧ (m.wlv p f v b).fresh = m.fresh ∧
    (m.wlv p f v b).hostif = m.hostif ∧ (m.wlv p f v b).conv = m.conv ∧ (m.wlv p f v b).wide = m.wide ∧
    (m.wlv p f v b).brick = m.brick ∧ (m.wlv p f v b).course = m.course ∧ (m.wlv p f v b).evtIn = m.evtIn ∧
    (m.wlv p f v b).unit = m.unit ∧ (m.wlv p f v b).trg = m.trg ∧ (m.wlv p f v b).cap = m.cap ∧
    (m.wlv p f v b).play = m.play ∧ (m.wlv p f v b).den = m.den ∧ (m.wlv p f v b).disp = m.disp ∧
    (m.wlv p f v b).codec = m.codec ∧ (m.wlv p f v b).stream = m.stream ∧ (m.wlv p f v b).port = m.port ∧
    (m.wlv p f v b).volume = m.volume ∧ (m.wlv p f v b).core = m.core ∧ (m.wlv p f v b).flt = m.flt ∧
    (m.wlv p f v b).jdl = m.jdl ∧ (m.wlv p f v b).power = m.power ∧ (m.wlv p f v b).safety = m.safety ∧
    (m.wlv p f v b).stack = m.stack ∧ (m.wlv p f v b).reg.regs = m.reg.regs ∧
    (m.wlv p f v b).reg.shadow = m.reg.shadow ∧ (m.wlv p f v b).reg.wrote = m.reg.wrote ∧
    (m.wlv p f v b).reg.commits = m.reg.commits ∧ (m.wlv p f v b).reg.irqStat = m.reg.irqStat ∧
    (m.wlv p f v b).reg.irqEn = m.reg.irqEn ∧ (m.wlv p f v b).reg.route = m.reg.route ∧
    (m.wlv p f v b).reg.latch = m.reg.latch ∧ (m.wlv p f v b).reg.held = m.reg.held ∧
    (m.wlv p f v b).reg.answer = m.reg.answer := by
  refine ⟨?_, ?_, ?_, ?_, ?_, ?_, ?_, ?_, ?_, ?_, ?_, ?_, ?_, ?_, ?_, ?_, ?_, ?_, ?_, ?_, ?_, ?_, ?_, ?_, ?_, ?_, ?_, ?_, ?_, ?_, ?_, ?_, ?_, ?_, ?_⟩ <;> rfl

@[simp] theorem Module.wsh_frame (m : Module) (p : Nat) (f : Fld) (v b : Nat) :
    (m.wsh p f v b).net = m.net ∧ (m.wsh p f v b).clk = m.clk ∧ (m.wsh p f v b).fresh = m.fresh ∧
    (m.wsh p f v b).hostif = m.hostif ∧ (m.wsh p f v b).conv = m.conv ∧ (m.wsh p f v b).wide = m.wide ∧
    (m.wsh p f v b).brick = m.brick ∧ (m.wsh p f v b).course = m.course ∧ (m.wsh p f v b).evtIn = m.evtIn ∧
    (m.wsh p f v b).unit = m.unit ∧ (m.wsh p f v b).trg = m.trg ∧ (m.wsh p f v b).cap = m.cap ∧
    (m.wsh p f v b).play = m.play ∧ (m.wsh p f v b).den = m.den ∧ (m.wsh p f v b).disp = m.disp ∧
    (m.wsh p f v b).codec = m.codec ∧ (m.wsh p f v b).stream = m.stream ∧ (m.wsh p f v b).port = m.port ∧
    (m.wsh p f v b).volume = m.volume ∧ (m.wsh p f v b).core = m.core ∧ (m.wsh p f v b).flt = m.flt ∧
    (m.wsh p f v b).jdl = m.jdl ∧ (m.wsh p f v b).power = m.power ∧ (m.wsh p f v b).safety = m.safety ∧
    (m.wsh p f v b).stack = m.stack ∧ (m.wsh p f v b).reg.regs = m.reg.regs ∧ (m.wsh p f v b).reg.live = m.reg.live ∧
    (m.wsh p f v b).reg.wrote = m.reg.wrote ∧ (m.wsh p f v b).reg.commits = m.reg.commits ∧
    (m.wsh p f v b).reg.irqStat = m.reg.irqStat ∧ (m.wsh p f v b).reg.irqEn = m.reg.irqEn ∧
    (m.wsh p f v b).reg.route = m.reg.route ∧ (m.wsh p f v b).reg.latch = m.reg.latch ∧
    (m.wsh p f v b).reg.held = m.reg.held ∧ (m.wsh p f v b).reg.answer = m.reg.answer := by
  refine ⟨?_, ?_, ?_, ?_, ?_, ?_, ?_, ?_, ?_, ?_, ?_, ?_, ?_, ?_, ?_, ?_, ?_, ?_, ?_, ?_, ?_, ?_, ?_, ?_, ?_, ?_, ?_, ?_, ?_, ?_, ?_, ?_, ?_, ?_, ?_⟩ <;> rfl

@[simp] theorem Module.bump_frame (m : Module) (p : Nat) (f : Fld) (n b : Nat) :
    (m.bump p f n b).net = m.net ∧ (m.bump p f n b).clk = m.clk ∧ (m.bump p f n b).fresh = m.fresh ∧
    (m.bump p f n b).hostif = m.hostif ∧ (m.bump p f n b).conv = m.conv ∧ (m.bump p f n b).wide = m.wide ∧
    (m.bump p f n b).brick = m.brick ∧ (m.bump p f n b).course = m.course ∧ (m.bump p f n b).evtIn = m.evtIn ∧
    (m.bump p f n b).unit = m.unit ∧ (m.bump p f n b).trg = m.trg ∧ (m.bump p f n b).cap = m.cap ∧
    (m.bump p f n b).play = m.play ∧ (m.bump p f n b).den = m.den ∧ (m.bump p f n b).disp = m.disp ∧
    (m.bump p f n b).codec = m.codec ∧ (m.bump p f n b).stream = m.stream ∧ (m.bump p f n b).port = m.port ∧
    (m.bump p f n b).volume = m.volume ∧ (m.bump p f n b).core = m.core ∧ (m.bump p f n b).flt = m.flt ∧
    (m.bump p f n b).jdl = m.jdl ∧ (m.bump p f n b).power = m.power ∧ (m.bump p f n b).safety = m.safety ∧
    (m.bump p f n b).stack = m.stack ∧ (m.bump p f n b).reg.shadow = m.reg.shadow ∧
    (m.bump p f n b).reg.live = m.reg.live ∧ (m.bump p f n b).reg.wrote = m.reg.wrote ∧
    (m.bump p f n b).reg.commits = m.reg.commits ∧ (m.bump p f n b).reg.irqStat = m.reg.irqStat ∧
    (m.bump p f n b).reg.irqEn = m.reg.irqEn ∧ (m.bump p f n b).reg.route = m.reg.route ∧
    (m.bump p f n b).reg.latch = m.reg.latch ∧ (m.bump p f n b).reg.held = m.reg.held ∧
    (m.bump p f n b).reg.answer = m.reg.answer := by
  refine ⟨?_, ?_, ?_, ?_, ?_, ?_, ?_, ?_, ?_, ?_, ?_, ?_, ?_, ?_, ?_, ?_, ?_, ?_, ?_, ?_, ?_, ?_, ?_, ?_, ?_, ?_, ?_, ?_, ?_, ?_, ?_, ?_, ?_, ?_, ?_⟩ <;> rfl

@[simp] theorem Module.step_frame (m : Module) (p : Nat) (f : Fld) (n b : Nat) :
    (m.step p f n b).net = m.net ∧ (m.step p f n b).clk = m.clk ∧ (m.step p f n b).fresh = m.fresh ∧
    (m.step p f n b).hostif = m.hostif ∧ (m.step p f n b).conv = m.conv ∧ (m.step p f n b).wide = m.wide ∧
    (m.step p f n b).brick = m.brick ∧ (m.step p f n b).course = m.course ∧ (m.step p f n b).evtIn = m.evtIn ∧
    (m.step p f n b).unit = m.unit ∧ (m.step p f n b).trg = m.trg ∧ (m.step p f n b).cap = m.cap ∧
    (m.step p f n b).play = m.play ∧ (m.step p f n b).den = m.den ∧ (m.step p f n b).disp = m.disp ∧
    (m.step p f n b).codec = m.codec ∧ (m.step p f n b).stream = m.stream ∧ (m.step p f n b).port = m.port ∧
    (m.step p f n b).volume = m.volume ∧ (m.step p f n b).core = m.core ∧ (m.step p f n b).flt = m.flt ∧
    (m.step p f n b).jdl = m.jdl ∧ (m.step p f n b).power = m.power ∧ (m.step p f n b).safety = m.safety ∧
    (m.step p f n b).stack = m.stack ∧ (m.step p f n b).reg.shadow = m.reg.shadow ∧
    (m.step p f n b).reg.live = m.reg.live ∧ (m.step p f n b).reg.wrote = m.reg.wrote ∧
    (m.step p f n b).reg.commits = m.reg.commits ∧ (m.step p f n b).reg.irqStat = m.reg.irqStat ∧
    (m.step p f n b).reg.irqEn = m.reg.irqEn ∧ (m.step p f n b).reg.route = m.reg.route ∧
    (m.step p f n b).reg.latch = m.reg.latch ∧ (m.step p f n b).reg.held = m.reg.held ∧
    (m.step p f n b).reg.answer = m.reg.answer := by
  refine ⟨?_, ?_, ?_, ?_, ?_, ?_, ?_, ?_, ?_, ?_, ?_, ?_, ?_, ?_, ?_, ?_, ?_, ?_, ?_, ?_, ?_, ?_, ?_, ?_, ?_, ?_, ?_, ?_, ?_, ?_, ?_, ?_, ?_, ?_, ?_⟩ <;> rfl

@[simp] theorem Module.wr64_frame (m : Module) (p : Nat) (lo hi : Fld) (v b : Nat) :
    (m.wr64 p lo hi v b).net = m.net ∧ (m.wr64 p lo hi v b).clk = m.clk ∧ (m.wr64 p lo hi v b).fresh = m.fresh ∧
    (m.wr64 p lo hi v b).hostif = m.hostif ∧ (m.wr64 p lo hi v b).conv = m.conv ∧ (m.wr64 p lo hi v b).wide = m.wide ∧
    (m.wr64 p lo hi v b).brick = m.brick ∧ (m.wr64 p lo hi v b).course = m.course ∧
    (m.wr64 p lo hi v b).evtIn = m.evtIn ∧ (m.wr64 p lo hi v b).unit = m.unit ∧ (m.wr64 p lo hi v b).trg = m.trg ∧
    (m.wr64 p lo hi v b).cap = m.cap ∧ (m.wr64 p lo hi v b).play = m.play ∧ (m.wr64 p lo hi v b).den = m.den ∧
    (m.wr64 p lo hi v b).disp = m.disp ∧ (m.wr64 p lo hi v b).codec = m.codec ∧
    (m.wr64 p lo hi v b).stream = m.stream ∧ (m.wr64 p lo hi v b).port = m.port ∧
    (m.wr64 p lo hi v b).volume = m.volume ∧ (m.wr64 p lo hi v b).core = m.core ∧ (m.wr64 p lo hi v b).flt = m.flt ∧
    (m.wr64 p lo hi v b).jdl = m.jdl ∧ (m.wr64 p lo hi v b).power = m.power ∧ (m.wr64 p lo hi v b).safety = m.safety ∧
    (m.wr64 p lo hi v b).stack = m.stack ∧ (m.wr64 p lo hi v b).reg.shadow = m.reg.shadow ∧
    (m.wr64 p lo hi v b).reg.live = m.reg.live ∧ (m.wr64 p lo hi v b).reg.wrote = m.reg.wrote ∧
    (m.wr64 p lo hi v b).reg.commits = m.reg.commits ∧ (m.wr64 p lo hi v b).reg.irqStat = m.reg.irqStat ∧
    (m.wr64 p lo hi v b).reg.irqEn = m.reg.irqEn ∧ (m.wr64 p lo hi v b).reg.route = m.reg.route ∧
    (m.wr64 p lo hi v b).reg.latch = m.reg.latch ∧ (m.wr64 p lo hi v b).reg.held = m.reg.held ∧
    (m.wr64 p lo hi v b).reg.answer = m.reg.answer := by
  refine ⟨?_, ?_, ?_, ?_, ?_, ?_, ?_, ?_, ?_, ?_, ?_, ?_, ?_, ?_, ?_, ?_, ?_, ?_, ?_, ?_, ?_, ?_, ?_, ?_, ?_, ?_, ?_, ?_, ?_, ?_, ?_, ?_, ?_, ?_, ?_⟩ <;> rfl

@[simp] theorem Module.step64_frame (m : Module) (p : Nat) (lo hi : Fld) (n b : Nat) :
    (m.step64 p lo hi n b).net = m.net ∧ (m.step64 p lo hi n b).clk = m.clk ∧ (m.step64 p lo hi n b).fresh = m.fresh ∧
    (m.step64 p lo hi n b).hostif = m.hostif ∧ (m.step64 p lo hi n b).conv = m.conv ∧
    (m.step64 p lo hi n b).wide = m.wide ∧ (m.step64 p lo hi n b).brick = m.brick ∧
    (m.step64 p lo hi n b).course = m.course ∧ (m.step64 p lo hi n b).evtIn = m.evtIn ∧
    (m.step64 p lo hi n b).unit = m.unit ∧ (m.step64 p lo hi n b).trg = m.trg ∧ (m.step64 p lo hi n b).cap = m.cap ∧
    (m.step64 p lo hi n b).play = m.play ∧ (m.step64 p lo hi n b).den = m.den ∧ (m.step64 p lo hi n b).disp = m.disp ∧
    (m.step64 p lo hi n b).codec = m.codec ∧ (m.step64 p lo hi n b).stream = m.stream ∧
    (m.step64 p lo hi n b).port = m.port ∧ (m.step64 p lo hi n b).volume = m.volume ∧
    (m.step64 p lo hi n b).core = m.core ∧ (m.step64 p lo hi n b).flt = m.flt ∧ (m.step64 p lo hi n b).jdl = m.jdl ∧
    (m.step64 p lo hi n b).power = m.power ∧ (m.step64 p lo hi n b).safety = m.safety ∧
    (m.step64 p lo hi n b).stack = m.stack ∧ (m.step64 p lo hi n b).reg.shadow = m.reg.shadow ∧
    (m.step64 p lo hi n b).reg.live = m.reg.live ∧ (m.step64 p lo hi n b).reg.wrote = m.reg.wrote ∧
    (m.step64 p lo hi n b).reg.commits = m.reg.commits ∧ (m.step64 p lo hi n b).reg.irqStat = m.reg.irqStat ∧
    (m.step64 p lo hi n b).reg.irqEn = m.reg.irqEn ∧ (m.step64 p lo hi n b).reg.route = m.reg.route ∧
    (m.step64 p lo hi n b).reg.latch = m.reg.latch ∧ (m.step64 p lo hi n b).reg.held = m.reg.held ∧
    (m.step64 p lo hi n b).reg.answer = m.reg.answer := by
  refine ⟨?_, ?_, ?_, ?_, ?_, ?_, ?_, ?_, ?_, ?_, ?_, ?_, ?_, ?_, ?_, ?_, ?_, ?_, ?_, ?_, ?_, ?_, ?_, ?_, ?_, ?_, ?_, ?_, ?_, ?_, ?_, ?_, ?_, ?_, ?_⟩ <;> rfl

@[simp] theorem Module.setAnswer_frame (m : Module) (r : Requester) (v : Nat) :
    (m.setAnswer r v).net = m.net ∧ (m.setAnswer r v).clk = m.clk ∧ (m.setAnswer r v).fresh = m.fresh ∧
    (m.setAnswer r v).hostif = m.hostif ∧ (m.setAnswer r v).conv = m.conv ∧ (m.setAnswer r v).wide = m.wide ∧
    (m.setAnswer r v).brick = m.brick ∧ (m.setAnswer r v).course = m.course ∧ (m.setAnswer r v).evtIn = m.evtIn ∧
    (m.setAnswer r v).unit = m.unit ∧ (m.setAnswer r v).trg = m.trg ∧ (m.setAnswer r v).cap = m.cap ∧
    (m.setAnswer r v).play = m.play ∧ (m.setAnswer r v).den = m.den ∧ (m.setAnswer r v).disp = m.disp ∧
    (m.setAnswer r v).codec = m.codec ∧ (m.setAnswer r v).stream = m.stream ∧ (m.setAnswer r v).port = m.port ∧
    (m.setAnswer r v).volume = m.volume ∧ (m.setAnswer r v).core = m.core ∧ (m.setAnswer r v).flt = m.flt ∧
    (m.setAnswer r v).jdl = m.jdl ∧ (m.setAnswer r v).power = m.power ∧ (m.setAnswer r v).safety = m.safety ∧
    (m.setAnswer r v).stack = m.stack ∧ (m.setAnswer r v).reg.regs = m.reg.regs ∧
    (m.setAnswer r v).reg.shadow = m.reg.shadow ∧ (m.setAnswer r v).reg.live = m.reg.live ∧
    (m.setAnswer r v).reg.wrote = m.reg.wrote ∧ (m.setAnswer r v).reg.commits = m.reg.commits ∧
    (m.setAnswer r v).reg.irqStat = m.reg.irqStat ∧ (m.setAnswer r v).reg.irqEn = m.reg.irqEn ∧
    (m.setAnswer r v).reg.route = m.reg.route ∧ (m.setAnswer r v).reg.latch = m.reg.latch ∧
    (m.setAnswer r v).reg.held = m.reg.held := by
  refine ⟨?_, ?_, ?_, ?_, ?_, ?_, ?_, ?_, ?_, ?_, ?_, ?_, ?_, ?_, ?_, ?_, ?_, ?_, ?_, ?_, ?_, ?_, ?_, ?_, ?_, ?_, ?_, ?_, ?_, ?_, ?_, ?_, ?_, ?_, ?_⟩ <;> rfl

@[simp] theorem Module.send_frame (m : Module) (e : Envelope) :
    (m.send e).reg = m.reg ∧ (m.send e).clk = m.clk ∧ (m.send e).fresh = m.fresh ∧ (m.send e).hostif = m.hostif ∧
    (m.send e).conv = m.conv ∧ (m.send e).wide = m.wide ∧ (m.send e).brick = m.brick ∧ (m.send e).course = m.course ∧
    (m.send e).evtIn = m.evtIn ∧ (m.send e).unit = m.unit ∧ (m.send e).trg = m.trg ∧ (m.send e).cap = m.cap ∧
    (m.send e).play = m.play ∧ (m.send e).den = m.den ∧ (m.send e).disp = m.disp ∧ (m.send e).codec = m.codec ∧
    (m.send e).stream = m.stream ∧ (m.send e).port = m.port ∧ (m.send e).volume = m.volume ∧ (m.send e).core = m.core ∧
    (m.send e).flt = m.flt ∧ (m.send e).jdl = m.jdl ∧ (m.send e).power = m.power ∧ (m.send e).safety = m.safety ∧
    (m.send e).stack = m.stack := by
  refine ⟨?_, ?_, ?_, ?_, ?_, ?_, ?_, ?_, ?_, ?_, ?_, ?_, ?_, ?_, ?_, ?_, ?_, ?_, ?_, ?_, ?_, ?_, ?_, ?_, ?_⟩ <;> rfl

@[simp] theorem Module.post_frame (m : Module) (a d : Nat) (c : Cls) (b : Body) :
    (m.post a d c b).reg = m.reg ∧ (m.post a d c b).clk = m.clk ∧ (m.post a d c b).fresh = m.fresh ∧
    (m.post a d c b).hostif = m.hostif ∧ (m.post a d c b).conv = m.conv ∧ (m.post a d c b).wide = m.wide ∧
    (m.post a d c b).brick = m.brick ∧ (m.post a d c b).course = m.course ∧ (m.post a d c b).evtIn = m.evtIn ∧
    (m.post a d c b).unit = m.unit ∧ (m.post a d c b).trg = m.trg ∧ (m.post a d c b).cap = m.cap ∧
    (m.post a d c b).play = m.play ∧ (m.post a d c b).den = m.den ∧ (m.post a d c b).disp = m.disp ∧
    (m.post a d c b).codec = m.codec ∧ (m.post a d c b).stream = m.stream ∧ (m.post a d c b).port = m.port ∧
    (m.post a d c b).volume = m.volume ∧ (m.post a d c b).core = m.core ∧ (m.post a d c b).flt = m.flt ∧
    (m.post a d c b).jdl = m.jdl ∧ (m.post a d c b).power = m.power ∧ (m.post a d c b).safety = m.safety ∧
    (m.post a d c b).stack = m.stack := by
  refine ⟨?_, ?_, ?_, ?_, ?_, ?_, ?_, ?_, ?_, ?_, ?_, ?_, ?_, ?_, ?_, ?_, ?_, ?_, ?_, ?_, ?_, ?_, ?_, ?_, ?_⟩ <;> rfl

@[simp] theorem Module.postMgt_frame (m : Module) (a d : Nat) (c : Cls) (b : Body) :
    (m.postMgt a d c b).reg = m.reg ∧ (m.postMgt a d c b).clk = m.clk ∧ (m.postMgt a d c b).fresh = m.fresh ∧
    (m.postMgt a d c b).hostif = m.hostif ∧ (m.postMgt a d c b).conv = m.conv ∧ (m.postMgt a d c b).wide = m.wide ∧
    (m.postMgt a d c b).brick = m.brick ∧ (m.postMgt a d c b).course = m.course ∧ (m.postMgt a d c b).evtIn = m.evtIn ∧
    (m.postMgt a d c b).unit = m.unit ∧ (m.postMgt a d c b).trg = m.trg ∧ (m.postMgt a d c b).cap = m.cap ∧
    (m.postMgt a d c b).play = m.play ∧ (m.postMgt a d c b).den = m.den ∧ (m.postMgt a d c b).disp = m.disp ∧
    (m.postMgt a d c b).codec = m.codec ∧ (m.postMgt a d c b).stream = m.stream ∧ (m.postMgt a d c b).port = m.port ∧
    (m.postMgt a d c b).volume = m.volume ∧ (m.postMgt a d c b).core = m.core ∧ (m.postMgt a d c b).flt = m.flt ∧
    (m.postMgt a d c b).jdl = m.jdl ∧ (m.postMgt a d c b).power = m.power ∧ (m.postMgt a d c b).safety = m.safety ∧
    (m.postMgt a d c b).stack = m.stack := by
  refine ⟨?_, ?_, ?_, ?_, ?_, ?_, ?_, ?_, ?_, ?_, ?_, ?_, ?_, ?_, ?_, ?_, ?_, ?_, ?_, ?_, ?_, ?_, ?_, ?_, ?_⟩ <;> rfl

@[simp] theorem Module.takeArrival_frame (m : Module) (a d : Nat) :
    (m.takeArrival a d).reg = m.reg ∧ (m.takeArrival a d).clk = m.clk ∧ (m.takeArrival a d).fresh = m.fresh ∧
    (m.takeArrival a d).hostif = m.hostif ∧ (m.takeArrival a d).conv = m.conv ∧ (m.takeArrival a d).wide = m.wide ∧
    (m.takeArrival a d).brick = m.brick ∧ (m.takeArrival a d).course = m.course ∧ (m.takeArrival a d).evtIn = m.evtIn ∧
    (m.takeArrival a d).unit = m.unit ∧ (m.takeArrival a d).trg = m.trg ∧ (m.takeArrival a d).cap = m.cap ∧
    (m.takeArrival a d).play = m.play ∧ (m.takeArrival a d).den = m.den ∧ (m.takeArrival a d).disp = m.disp ∧
    (m.takeArrival a d).codec = m.codec ∧ (m.takeArrival a d).stream = m.stream ∧ (m.takeArrival a d).port = m.port ∧
    (m.takeArrival a d).volume = m.volume ∧ (m.takeArrival a d).core = m.core ∧ (m.takeArrival a d).flt = m.flt ∧
    (m.takeArrival a d).jdl = m.jdl ∧ (m.takeArrival a d).power = m.power ∧ (m.takeArrival a d).safety = m.safety ∧
    (m.takeArrival a d).stack = m.stack := by
  refine ⟨?_, ?_, ?_, ?_, ?_, ?_, ?_, ?_, ?_, ?_, ?_, ?_, ?_, ?_, ?_, ?_, ?_, ?_, ?_, ?_, ?_, ?_, ?_, ?_, ?_⟩ <;> rfl

@[simp] theorem Module.setCr_frame (m : Module) (c : Nat) (v : CoreSt) :
    (m.setCr c v).reg = m.reg ∧ (m.setCr c v).net = m.net ∧ (m.setCr c v).clk = m.clk ∧ (m.setCr c v).fresh = m.fresh ∧
    (m.setCr c v).hostif = m.hostif ∧ (m.setCr c v).conv = m.conv ∧ (m.setCr c v).wide = m.wide ∧
    (m.setCr c v).brick = m.brick ∧ (m.setCr c v).course = m.course ∧ (m.setCr c v).evtIn = m.evtIn ∧
    (m.setCr c v).unit = m.unit ∧ (m.setCr c v).trg = m.trg ∧ (m.setCr c v).cap = m.cap ∧ (m.setCr c v).play = m.play ∧
    (m.setCr c v).den = m.den ∧ (m.setCr c v).disp = m.disp ∧ (m.setCr c v).codec = m.codec ∧
    (m.setCr c v).stream = m.stream ∧ (m.setCr c v).port = m.port ∧ (m.setCr c v).volume = m.volume ∧
    (m.setCr c v).flt = m.flt ∧ (m.setCr c v).jdl = m.jdl ∧ (m.setCr c v).power = m.power ∧
    (m.setCr c v).safety = m.safety ∧ (m.setCr c v).stack = m.stack := by
  refine ⟨?_, ?_, ?_, ?_, ?_, ?_, ?_, ?_, ?_, ?_, ?_, ?_, ?_, ?_, ?_, ?_, ?_, ?_, ?_, ?_, ?_, ?_, ?_, ?_, ?_⟩ <;> rfl

@[simp] theorem Module.draw_frame (m : Module) (n : Nat) :
    (m.draw n).2.reg = m.reg ∧ (m.draw n).2.net = m.net ∧ (m.draw n).2.clk = m.clk ∧ (m.draw n).2.hostif = m.hostif ∧
    (m.draw n).2.conv = m.conv ∧ (m.draw n).2.wide = m.wide ∧ (m.draw n).2.brick = m.brick ∧
    (m.draw n).2.course = m.course ∧ (m.draw n).2.evtIn = m.evtIn ∧ (m.draw n).2.unit = m.unit ∧
    (m.draw n).2.trg = m.trg ∧ (m.draw n).2.cap = m.cap ∧ (m.draw n).2.play = m.play ∧ (m.draw n).2.den = m.den ∧
    (m.draw n).2.disp = m.disp ∧ (m.draw n).2.codec = m.codec ∧ (m.draw n).2.stream = m.stream ∧
    (m.draw n).2.port = m.port ∧ (m.draw n).2.volume = m.volume ∧ (m.draw n).2.core = m.core ∧
    (m.draw n).2.flt = m.flt ∧ (m.draw n).2.jdl = m.jdl ∧ (m.draw n).2.power = m.power ∧
    (m.draw n).2.safety = m.safety ∧ (m.draw n).2.stack = m.stack := by
  refine ⟨?_, ?_, ?_, ?_, ?_, ?_, ?_, ?_, ?_, ?_, ?_, ?_, ?_, ?_, ?_, ?_, ?_, ?_, ?_, ?_, ?_, ?_, ?_, ?_, ?_⟩ <;> rfl

@[simp] theorem Module.addWork_frame (m : Module) (i n : Nat) :
    (m.addWork i n).reg = m.reg ∧ (m.addWork i n).net = m.net ∧ (m.addWork i n).clk = m.clk ∧
    (m.addWork i n).fresh = m.fresh ∧ (m.addWork i n).hostif = m.hostif ∧ (m.addWork i n).conv = m.conv ∧
    (m.addWork i n).wide = m.wide ∧ (m.addWork i n).brick = m.brick ∧ (m.addWork i n).course = m.course ∧
    (m.addWork i n).evtIn = m.evtIn ∧ (m.addWork i n).unit = m.unit ∧ (m.addWork i n).trg = m.trg ∧
    (m.addWork i n).cap = m.cap ∧ (m.addWork i n).play = m.play ∧ (m.addWork i n).den = m.den ∧
    (m.addWork i n).disp = m.disp ∧ (m.addWork i n).codec = m.codec ∧ (m.addWork i n).stream = m.stream ∧
    (m.addWork i n).port = m.port ∧ (m.addWork i n).volume = m.volume ∧ (m.addWork i n).core = m.core ∧
    (m.addWork i n).flt = m.flt ∧ (m.addWork i n).jdl = m.jdl ∧ (m.addWork i n).safety = m.safety ∧
    (m.addWork i n).stack = m.stack := by
  refine ⟨?_, ?_, ?_, ?_, ?_, ?_, ?_, ?_, ?_, ?_, ?_, ?_, ?_, ?_, ?_, ?_, ?_, ?_, ?_, ?_, ?_, ?_, ?_, ?_, ?_⟩ <;> rfl

@[simp] theorem State.onM_hbm (s : State) (f : Module → Module) : (s.onM f).hbm = s.hbm := rfl
@[simp] theorem State.onM_pending (s : State) (f : Module → Module) : (s.onM f).pending = s.pending := rfl
@[simp] theorem State.onM_m (s : State) (f : Module → Module) : (s.onM f).m = f s.m := rfl

end Sys2Proof.Machine
end

