-- ==== Sys2Proof/Laws/Ops.lean ====
section
/-! SUPPORT. What the shared operations do: registers read after they are written, cores, counters, and the HBM. -/

namespace Sys2Proof.Machine

/-! ## Register fields -/

/-- The offset and the low bit of a field lie within a page and a word. -/
def Fld.small (f : Fld) : Bool := decide (f.off < 4096) && decide (f.lo < 32)

/-- Fields, banks and pages have numbers of their own. -/
theorem fieldKey_inj {p p' b b' : Nat} {f f' : Fld} (hf : f.small = true) (hf' : f'.small = true) (hb : b < 65536)
    (hb' : b' < 65536) (h : fieldKey p f b = fieldKey p' f' b') : p = p' ∧ f.off = f'.off ∧ f.lo = f'.lo ∧ b = b' := by
  simp only [Fld.small, Bool.and_eq_true, decide_eq_true_eq] at hf hf'
  unfold fieldKey at h
  omega

/-- Fields at different places have different numbers. -/
theorem fieldKey_ne {p p' b b' : Nat} {f f' : Fld} (hf : f.small = true) (hf' : f'.small = true) (hb : b < 65536)
    (hb' : b' < 65536) (h : ¬(p = p' ∧ f.off = f'.off ∧ f.lo = f'.lo ∧ b = b')) : fieldKey p f b ≠ fieldKey p' f' b' :=
  fun e => h (fieldKey_inj hf hf' hb hb' e)

/-- A field that has been written reads what was written, cut to its width. -/
@[simp] theorem Module.rd_wr_same (m : Module) (p : Nat) (f : Fld) (v b : Nat) :
    (m.wr p f v b).rd p f b = v % 2 ^ f.width := by
  simp [Module.rd, Module.wr]

/-- A write leaves every other field alone. -/
theorem Module.rd_wr_ne (m : Module) {p p' : Nat} {f f' : Fld} (v : Nat) {b b' : Nat}
    (h : fieldKey p f b ≠ fieldKey p' f' b') : (m.wr p f v b).rd p' f' b' = m.rd p' f' b' := by
  simp [Module.rd, Module.wr, Store.get_set_ne _ _ _ h]

@[simp] theorem Module.lv_wlv_same (m : Module) (p : Nat) (f : Fld) (v b : Nat) :
    (m.wlv p f v b).lv p f b = v % 2 ^ f.width := by
  simp [Module.lv, Module.wlv]

theorem Module.lv_wlv_ne (m : Module) {p p' : Nat} {f f' : Fld} (v : Nat) {b b' : Nat}
    (h : fieldKey p f b ≠ fieldKey p' f' b') : (m.wlv p f v b).lv p' f' b' = m.lv p' f' b' := by
  simp [Module.lv, Module.wlv, Store.get_set_ne _ _ _ h]

@[simp] theorem Module.sh_wsh_same (m : Module) (p : Nat) (f : Fld) (v b : Nat) :
    (m.wsh p f v b).sh p f b = v % 2 ^ f.width := by
  simp [Module.sh, Module.wsh]

theorem Module.sh_wsh_ne (m : Module) {p p' : Nat} {f f' : Fld} (v : Nat) {b b' : Nat}
    (h : fieldKey p f b ≠ fieldKey p' f' b') : (m.wsh p f v b).sh p' f' b' = m.sh p' f' b' := by
  simp [Module.sh, Module.wsh, Store.get_set_ne _ _ _ h]

@[simp] theorem Module.lv_wr (m : Module) (p p' : Nat) (f f' : Fld) (v b b' : Nat) :
    (m.wr p f v b).lv p' f' b' = m.lv p' f' b' := rfl

@[simp] theorem Module.sh_wr (m : Module) (p p' : Nat) (f f' : Fld) (v b b' : Nat) :
    (m.wr p f v b).sh p' f' b' = m.sh p' f' b' := rfl

@[simp] theorem Module.rd_wlv (m : Module) (p p' : Nat) (f f' : Fld) (v b b' : Nat) :
    (m.wlv p f v b).rd p' f' b' = m.rd p' f' b' := rfl

@[simp] theorem Module.rd_wsh (m : Module) (p p' : Nat) (f f' : Fld) (v b b' : Nat) :
    (m.wsh p f v b).rd p' f' b' = m.rd p' f' b' := rfl

@[simp] theorem Module.rd_setCr (m : Module) (c : Nat) (k : CoreSt) (p : Nat) (f : Fld) (b : Nat) :
    (m.setCr c k).rd p f b = m.rd p f b := rfl

@[simp] theorem Module.rd_send (m : Module) (e : Envelope) (p : Nat) (f : Fld) (b : Nat) : (m.send e).rd p f b = m.rd p f b := rfl

@[simp] theorem Module.rd_post (m : Module) (a d : Nat) (c : Cls) (y : Body) (p : Nat) (f : Fld) (b : Nat) :
    (m.post a d c y).rd p f b = m.rd p f b := rfl

/-- A saturating counter. -/
theorem Module.rd_bump_same (m : Module) (p : Nat) (f : Fld) (n b : Nat) :
    (m.bump p f n b).rd p f b = Nat.min (m.rd p f b + n) (2 ^ f.width - 1) := by
  have h : 0 < 2 ^ f.width := Nat.two_pow_pos _
  have h' : Nat.min (m.rd p f b + n) (2 ^ f.width - 1) ≤ 2 ^ f.width - 1 := Nat.min_le_right _ _
  rw [Module.bump, Module.rd_wr_same, Nat.mod_eq_of_lt]
  omega

/-! ## Interrupts and fault reports -/

@[simp] theorem Module.sendVector_reg (m : Module) (v : Nat) : (m.sendVector v).reg = m.reg := by
  unfold Module.sendVector; split <;> rfl

@[simp] theorem Module.setIrq_reg (m : Module) (p stat en : Nat) :
    (m.setIrq p stat en).reg = { m.reg with irqStat := m.reg.irqStat.set 0 p stat, irqEn := m.reg.irqEn.set 0 p en } := by
  unfold Module.setIrq; dsimp only; split <;> simp

/-- A raised interrupt changes nothing but the interrupt registers and what leaves for the host. -/
theorem Module.raise_rest (m : Module) (p b : Nat) :
    m.raise p b = { m with reg := (m.raise p b).reg, hostif := (m.raise p b).hostif } := by
  unfold Module.raise Module.raiseBits Module.setIrq; dsimp only
  split
  · unfold Module.sendVector; split <;> rfl
  · rfl

@[simp] theorem Module.rd_raise (m : Module) (p b p' : Nat) (f : Fld) (c : Nat) : (m.raise p b).rd p' f c = m.rd p' f c := by
  simp [Module.rd, Module.raise, Module.raiseBits]

@[simp] theorem Module.lv_raise (m : Module) (p b p' : Nat) (f : Fld) (c : Nat) : (m.raise p b).lv p' f c = m.lv p' f c := by
  simp [Module.lv, Module.raise, Module.raiseBits]

/-- IRQ_STATUS after a raise. -/
@[simp] theorem Module.irqStat_raise (m : Module) (p b : Nat) :
    (m.raise p b).reg.irqStat = m.reg.irqStat.set 0 p (m.reg.irqStat.get 0 p ||| 2 ^ b) := by
  simp [Module.raise, Module.raiseBits]

theorem bit_eq_testBit (n i : Nat) : bit n i = n.testBit i := by
  simp [bit, Nat.testBit_eq_decide_div_mod_eq, beq_eq_decide]

/-- A bit that has been raised is set. -/
theorem Module.irqBit_raise (m : Module) (p b : Nat) : bit ((m.raise p b).reg.irqStat.get 0 p) b = true := by
  rw [Module.irqStat_raise, Store.get_set_same, bit_eq_testBit, Nat.testBit_or, Nat.testBit_two_pow_self, Bool.or_true]

@[simp] theorem Module.rd_draw (m : Module) (n p : Nat) (f : Fld) (b : Nat) : (m.draw n).2.rd p f b = m.rd p f b := rfl

/-- A report draws a free value for its syndrome and sends one message. -/
theorem Module.report_eq (m : Module) (island source : Nat) :
    m.report island source =
      ({ m with fresh := m.fresh + 1 } : Module).send ⟨island, 58, .evt, none, 0, [], false,
        .fault ⟨source, Config.free m.fresh % 2 ^ 32, m.now, true, false, false⟩⟩ := rfl

@[simp] theorem Module.rd_report (m : Module) (i n p : Nat) (f : Fld) (b : Nat) : (m.report i n).rd p f b = m.rd p f b := rfl

@[simp] theorem Module.reg_report (m : Module) (i n : Nat) : (m.report i n).reg = m.reg := rfl

/-! ## Cores -/

@[simp] theorem Module.cr_setCr_same (m : Module) (c : Nat) (v : CoreSt) : (m.setCr c v).cr c = v := by
  simp [Module.cr, Module.setCr]

theorem Module.cr_setCr_ne (m : Module) {c d : Nat} (v : CoreSt) (h : c ≠ d) : (m.setCr c v).cr d = m.cr d := by
  simp [Module.cr, Module.setCr, Store.get_set_ne _ _ _ h]

@[simp] theorem Module.cr_wr (m : Module) (p : Nat) (f : Fld) (v b c : Nat) : (m.wr p f v b).cr c = m.cr c := rfl

/-! ## Register accesses -/

/-- What a charge may change: the usage counts, the marks of what did not fit, and the BUD_WAITS counters. -/
theorem Module.count_rest (m : Module) (a : Nat) (c : Nat × Nat) :
    m.count a c = { m with net := { m.net with used := (m.count a c).net.used } } := rfl

theorem Module.foldl_count_rest (a : Nat) (l : List (Nat × Nat)) (m : Module) :
    l.foldl (fun m c => m.count a c) m =
      { m with net := { m.net with used := (l.foldl (fun m c => m.count a c) m).net.used } } := by
  induction l generalizing m with
  | nil => rfl
  | cons c l ih =>
    rw [List.foldl_cons, ih (m.count a c)]
    rfl

/-- A charge that passes counts usage and changes nothing else. -/
theorem Module.charge_rest {m m' : Module} {a : Nat} {costs : List (Nat × Nat)} (h : m.charge a costs = (true, m')) :
    m' = { m with net := { m.net with used := m'.net.used } } := by
  unfold Module.charge at h
  split at h
  · simp at h
  · have := congrArg Prod.snd h
    simp only at this
    rw [← this]
    exact Module.foldl_count_rest a costs m

/-- An access that passes has been charged, and counts usage alone. -/
theorem Module.chargeAccess_rest {m : Module} {r : Requester} {p : Nat} (h : (m.chargeAccess r p).1 = true) :
    (m.chargeAccess r p).2 = { m with net := { m.net with used := (m.chargeAccess r p).2.net.used } } := by
  unfold Module.chargeAccess at h ⊢
  split
  · rfl
  · next hw =>
    rw [if_neg hw] at h
    split
    · rfl
    · next hne =>
      rw [if_neg hne] at h
      split
      · rfl
      · next hb =>
        rw [if_neg hb] at h
        exact Module.charge_rest (Prod.ext h rfl)

/-- An access that passes does what it does, in the state it has been charged in. -/
theorem State.via_arrives {s : State} {c : Instr} {r : Requester} {p : Nat} {w : Bool} (f : State → State)
    (h : (s.m.reaches r p && s.m.claimed p && (s.m.chargeAccess r p).1) = true) :
    s.via c r p f w = f { s with m := (s.m.chargeAccess r p).2 } := by
  simp only [Bool.and_eq_true] at h
  obtain ⟨⟨h1, h2⟩, h3⟩ := h
  unfold State.via
  simp only [h1, h2, Bool.not_true, Bool.false_eq_true, if_false]
  split
  · next m hm => rw [hm] at h3; simp at h3
  · next m hm => rw [hm]

/-! ## Memory (R32, R34, R36) -/

/-- A byte that has been written reads what was written. -/
@[simp] theorem Hbm.byte_put_same (h : Hbm) (a : Nat) (v : Byte) : (h.put a v).byte a = v := by
  simp [Hbm.byte, Hbm.put]

/-- A write of one byte leaves every other byte alone. -/
theorem Hbm.byte_put_ne (h : Hbm) {a n : Nat} (v : Byte) (hn : a ≠ n) : (h.put a v).byte n = h.byte n := by
  simp [Hbm.byte, Hbm.put, Store.get_set_ne _ _ _ hn]

theorem Hbm.wf_iff {h : Hbm} : h.wf = true ↔ Store.wf (0 : Byte) h.cells = true ∧ Store.wf 0 h.poison = true := by
  simp [Hbm.wf, Memory.wf]

theorem Hbm.wf_put {h : Hbm} {a : Nat} {v : Byte} (k : h.wf = true) : (h.put a v).wf = true :=
  Hbm.wf_iff.mpr ⟨Store.wf_set (Hbm.wf_iff.mp k).1, (Hbm.wf_iff.mp k).2⟩

theorem wf_writeBytes {h : Hbm} (r : Region) (ofs : Nat) (data : List Byte) (k : h.wf = true) :
    (writeBytes h r ofs data).wf = true := by
  induction data generalizing h ofs with
  | nil => exact k
  | cons b l ih =>
    simp only [writeBytes]
    apply ih
    split
    · exact Hbm.wf_put k
    · exact k

theorem wf_foldl_poison (c : Nat → Bool) (f : Nat → Nat) (v : Nat) (l : List Nat) {h : Hbm} (k : h.wf = true) :
    (l.foldl (fun (h : Hbm) i => if c i then { h with poison := h.poison.set 0 (f i) v } else h) h).wf = true := by
  induction l generalizing h with
  | nil => exact k
  | cons i l ih =>
    rw [List.foldl_cons]
    apply ih
    split
    · exact Hbm.wf_iff.mpr ⟨(Hbm.wf_iff.mp k).1, Store.wf_set (Hbm.wf_iff.mp k).2⟩
    · exact k

theorem wf_clearPoison {h : Hbm} (r : Region) (ofs len : Nat) (k : h.wf = true) : (clearPoison h r ofs len).wf = true := by
  unfold clearPoison
  split
  · exact k
  · exact wf_foldl_poison (fun i => r.holds ((ceilDiv ofs 32 + i) * 32) 32) _ _ _ k

theorem wf_markPoison {h : Hbm} (r : Region) (ofs len : Nat) (k : h.wf = true) : (markPoison h r ofs len).wf = true :=
  wf_foldl_poison (fun i => r.holds ((ofs / 32 + i) * 32) 1) _ _ _ k

/-- Every write by a unit keeps the canonical form. -/
theorem State.wf_hbmWrite {s : State} (island r ofs : Nat) (data : List Byte) (k : s.hbm.wf = true) :
    (s.hbmWrite island r ofs data).hbm.wf = true := by
  unfold State.hbmWrite
  dsimp only
  split <;> exact wf_clearPoison _ _ _ (wf_writeBytes _ _ _ k)

/-- A read by a unit changes no byte. -/
@[simp] theorem State.hbmRead_hbm (s : State) (island r ofs len : Nat) : (s.hbmRead island r ofs len).2.hbm = s.hbm := by
  unfold State.hbmRead
  dsimp only
  split <;> rfl

/-! ## CRC-32C -/

@[simp] theorem strictly_eq (n : Nat) (f : Nat → Nat) : strictly n f = f n := by cases n <;> rfl

@[simp] theorem crcFold_nil (c : Nat) : crcFold c [] = c := by rw [crcFold]

/-- A byte enters the register. -/
theorem crcFold_cons (c : Nat) (b : Byte) (l : List Byte) : crcFold c (b :: l) = crcFold (crcBits 8 (c ^^^ b.toNat)) l := by
  rw [crcFold, strictly_eq]

/-- Two stretches of bytes enter it one after the other. -/
theorem crcFold_append (c : Nat) (l k : List Byte) : crcFold c (l ++ k) = crcFold (crcFold c l) k := by
  induction l generalizing c with
  | nil => rw [List.nil_append, crcFold_nil]
  | cons b l ih => rw [List.cons_append, crcFold_cons, crcFold_cons, ih]

end Sys2Proof.Machine
end

