-- ==== Sys2Proof/Tests/Slice0.lean ====
section
/-! SUPPORT. Tests: for each statement states and operands that meet its hypotheses, clause by clause; ill-formed terms that
WellFormed refuses; and results worked out by hand from the spec. -/

namespace Sys2Proof.Tests

set_option Elab.async false

open Sys2Proof Sys2Proof.Machine

/-! ## States -/

/-- The machine after reset. -/
def rst : State := State.reset
/-- The module after start-up, with the host's access open and every feature in force. -/
def up : State := rst.onM fun m =>
  let m := (m.wr pgPwr PWR_START.STEP 8).wr pgSys (SYS_FEATURES_IN_FORCE.FEATURES 0) 0xFFFFFFFF
  { m with hostif := { m.hostif with loaded := true, config := [(1, 6)] } }
/-- A register field set, and the live value of one. -/
def w (p : Nat) (f : Fld) (v : Nat) (b : Nat := 0) (s : State) : State := s.onM fun m => m.wr p f v b
def wl (p : Nat) (f : Fld) (v : Nat) (b : Nat := 0) (s : State) : State := s.onM fun m => m.wlv p f v b
/-- A message has arrived. -/
def got (s : State) (src dst : Nat) (b : Body) : State :=
  s.onM fun m => { m with net.arrived := m.net.arrived ++ [⟨src, dst, .evt, none, 0, [], false, b⟩] }
/-- A core, changed; a core that runs; and one with some registers and accumulators set. -/
def onCr (c : Nat) (f : CoreSt → CoreSt) (s : State) : State := s.onM fun m => m.setCr c (f (m.cr c))
def run_ (c : Nat) (s : State) : State := s.onM fun m => m.setCoreState c coreRunning
def regs0 : List (Nat × Nat) := [(0, 5), (1, 0x7FFFFFFF), (2, 0x80000000), (3, 0xFFFFFFFF), (4, 9), (9, 77),
  (16, 0x100), (17, 0x204), (24, 4), (25, 0xFFFFFFFC), (33, 0x200), (41, 16), (50, 20), (51, 0x400)]
def coreOf (c : Nat) (s : State) : State :=
  onCr c (fun k => (regs0.foldl (fun k x => k.setIn false x.1 x.2)
    { k with pc := 0x40, acc := [(0, 7), (1, 2^80-5), (3, 2^79-1)], seen := [(0, 6), (1, 2^70), (3, 2^79-1)] })) (run_ c s)
/-- An instruction of core c fetched without error, and a state whose next instruction word is `v`. -/
def qq (c : CoreNo) : Issue := ⟨c, .clean, .clean⟩
def wd (c : Nat) (v : Nat) (s : State) : State := onCr c (fun k => { k with imem := k.imem.set 0 k.pc v }) s

namespace T1

def sRef : State := rst.onM fun m => m.wr pgClk CLK_REF_STATUS.PRESENT 1
def sEver : State := rst.onM fun m => m.wr pgClk CLK_LOOP_STATUS.EVER_LOCKED 1 5
def sRefOk : State := sRef.onM fun m => m.wr pgClk CLK_REF_STATUS.IN_RANGE 1
def sLocked (l : Nat) : State := sRefOk.onM fun m => m.wr pgClk CLK_LOOP_STATUS.STATE 1 l
def sHold (l : Nat) : State := sRefOk.onM fun m => m.wr pgClk CLK_LOOP_STATUS.STATE 2 l
def z1 : State := got rst 56 7 (.loopState 3 2)
def zMark : State := got rst 54 4 (.timeMark 0)
def sLate : State := rst.onM fun m => { m with clk.counting := true, clk.time := BitVec.ofNat 64 (2^64 - 256) }
def sArmed (mode : Nat) : State := sRefOk.onM fun m => (m.wr pgTb TB_ALIGN_STATUS.STATE 1).wlv pgTb TB_ALIGN_CTRL.MODE mode
def sE0 : State := (sArmed 1).onM fun m => { m with clk.alignE0 := true }
def sAligned : State := got (rst.onM fun m => let m := m.wlv pgTb TB_ALIGN_CTRL.MODE 1; { m with clk.alignWait := [27] }) 27 54 .alignDone
def sPulse : State := (sArmed 2).onM fun m => m.wr pgClk CLK_LOOP_STATUS.STATE 1 0
def z2 : State := got rst 54 27 .alignArmed
def z3 : State := got rst 54 27 .alignReleased

/-- The clauses of ReferenceDeclarations have states that meet their hypotheses. -/
theorem test_witness_ReferenceDeclarations :
    (rst.m.rd pgClk CLK_REF_STATUS.PRESENT = 0) ∧
    (sRef.m.rd pgClk CLK_REF_STATUS.PRESENT = 1) ∧ (sRef.m.rd pgClk CLK_REF_STATUS.IN_RANGE = 0) ∧ (sRef.m.clk.partWindow = false) ∧
    (sRefOk.m.rd pgClk CLK_REF_STATUS.PRESENT = 1) ∧ (2500 < Int.natAbs 2501) ∧
    (sRefOk.m.rd pgClk CLK_REF_STATUS.PRESENT = 1) ∧ (2500 < (-2501).natAbs) := by
  decide +kernel

/-- The clauses of LoopTransitions have states that meet their hypotheses. -/
theorem test_witness_LoopTransitions :
    (rst.m.loopState 5 = 0 ∨ rst.m.loopState 5 = 3) ∧ (Int.natAbs 3 ≤ rst.m.lv pgClk CLK_LOOP_LOCK.WINDOW 5) ∧
    (rst.m.loopState 9 = 0 ∨ rst.m.loopState 9 = 3) ∧ ((-3).natAbs ≤ rst.m.lv pgClk CLK_LOOP_LOCK.WINDOW 9) ∧
    ((sLocked 9).m.loopState 9 = 1) ∧ ((sLocked 9).m.lv pgClk CLK_LOOP_LOCK.WINDOW 9 < Int.natAbs 100000000) ∧
    ((sHold 5).m.loopState 5 = 2) ∧ ((sHold 5).m.lv pgClk CLK_LOOP_LOSS.FORCE_HOLDOVER 5 = 0) ∧ (5 = 0 → (sHold 5).m.refValid = true) ∧
    ((sHold 0).m.loopState 0 = 2) ∧ ((sHold 0).m.lv pgClk CLK_LOOP_LOSS.FORCE_HOLDOVER = 0) ∧ (0 = 0 → (sHold 0).m.refValid = true) ∧
    ((sHold 3).m.loopState 3 = 2) ∧ ((sHold 3).m.lv pgClk CLK_LOOP_LOSS.FORCE_HOLDOVER 3 = 0) ∧ (3 = 0 → (sHold 3).m.refValid = true) ∧
    (z1.m.arrival 56 7 = some (Body.loopState 3 2)) := by
  decide +kernel

/-- The clauses of TimeBase have states that meet their hypotheses. -/
theorem test_witness_TimeBase :
    (sEver.m.clk.counting = false) ∧ (sEver.m.rd pgClk CLK_LOOP_STATUS.EVER_LOCKED 5 = 1 ∨ sEver.m.rd pgClk CLK_LOOP_STATUS.FREE_RUN 5 = 1) ∧
    (zMark.m.arrival 54 4 = some (Body.timeMark 0)) ∧ (4 < 4 → zMark.m.loopState (4 + 1) = 1) ∧ (Store.get 0 zMark.m.clk.skew 4 + -3 ≠ 0) ∧
    (sLate.m.clk.counting = true) ∧ (sLate.m.power.vin = true) ∧ (sLate.m.rawTick + 1 = 2 ^ 56) ∧
    ((sArmed 3).m.rd pgTb TB_ALIGN_STATUS.STATE = 1) ∧ ((sArmed 3).m.lv pgTb TB_ALIGN_CTRL.MODE = 3 ∨ (sArmed 3).m.lv pgTb TB_ALIGN_CTRL.MODE ≠ 0 ∧ (sArmed 3).m.clk.alignE0 = true) ∧
    (sE0.m.rd pgTb TB_ALIGN_STATUS.STATE = 1) ∧ (sE0.m.lv pgTb TB_ALIGN_CTRL.MODE = 3 ∨ sE0.m.lv pgTb TB_ALIGN_CTRL.MODE ≠ 0 ∧ sE0.m.clk.alignE0 = true) := by
  decide +kernel

/-- The clauses of Aligning have states that meet their hypotheses. -/
theorem test_witness_Aligning :
    (z2.m.arrival 54 (24 + 3) = some Body.alignArmed) ∧
    (sAligned.m.arrival (24 + 3) 54 = some Body.alignDone) ∧ (sAligned.m.clk.alignWait = [24 + 3]) ∧ (sAligned.m.lv pgTb TB_ALIGN_CTRL.MODE = 1 ∨ sAligned.m.lv pgTb TB_ALIGN_CTRL.MODE = 2) ∧
    (sPulse.m.lv pgTb TB_ALIGN_CTRL.MODE = 2) ∧ (sPulse.m.rd pgTb TB_ALIGN_STATUS.STATE = 1) ∧ (sPulse.m.refValid = true) ∧ (sPulse.m.clk.alignPulse = false) ∧
    ((sArmed 2).m.lv pgTb TB_ALIGN_CTRL.MODE = 1 ∨ (sArmed 2).m.lv pgTb TB_ALIGN_CTRL.MODE = 2) ∧ ((sArmed 2).m.rd pgTb TB_ALIGN_STATUS.STATE = 1) ∧ ((sArmed 2).m.refValid = true) ∧
    (z3.m.arrival 54 (24 + 3) = some Body.alignReleased) := by
  decide +kernel

end T1

namespace T2

def sLim : State := up.onM fun m => m.wr (pgCnv 2) CNV_LIMITER.ACTIVE 1
def run (x st : Nat) (s : State) : State := s.onM fun m => m.wr (pgCnv x) CNV_STATUS.RUN_STATE st
def onCv (x : Nat) (f : Conv → Conv) (s : State) : State := s.onM fun m => m.setCv x (f (m.cv x))
def raw : List RawSample := List.replicate 1087 ⟨2047, false⟩
def z1 : State := got (run 1 1 (up.onM fun m => (m.wlv (pgCnv 1) CNV_RUN.START_SRC 1).wlv (pgCnv 1) CNV_RUN.START_EVT 7)) 55 1 (.startTick 7 4096)
def z2 : State := onCv 1 (fun c => { c with startTick := some 8192 }) (run 1 1 up)
def z3 : State := onCv 1 (fun c => { c with stopping := true }) (run 1 2 up)
def sScan : State := run 0 2 (up.onM fun m => ((m.wlv (pgCnv 0) CNV_SCAN_CTRL.LENGTH 2).wlv (pgCnv 0) CNV_SCAN_TIME.REPEAT 3 1).wlv (pgCnv 0) CNV_SCAN_CFG.SOURCE 1 1)
def z4 : State := got up 2 26 (.entryMark ⟨0,1,2,3,false,false⟩)
def sInj : State := run 0 2 (up.onM fun m => (((m.wr (pgCnv 0) CNV_INJ_SW_CFG.SOURCE 4).wr (pgCnv 0) CNV_INJ_SW_TIME.REPEAT 3).wr (pgCnv 0) CNV_INJ_SW_TIME.SETTLE 1))
def sInjBad : State := sInj.onM fun m => m.wr (pgCnv 0) CNV_INJ_SW_CFG.SOURCE 5
def sInjTrg : State := got (sInj.onM fun m => m.wlv (pgCnv 0) CNV_INJ_TRG_TIME.REPEAT 3) 24 0 (.injectReq 0)
def inj1 : Injection := ⟨true, 2, 3, 4, 5, 6⟩
def z5 : State := onCv 0 (fun c => { c with inj := some inj1 }) sInj
def z6 : State := onCv 0 (fun c => { c with injected := true }) sInj

/-- The clauses of FrontEnd have states that meet their hypotheses. -/
theorem test_witness_FrontEnd :
    (up.m.rd (pgCnv 2) CNV_LIMITER.ACTIVE = 0) ∧
    (sLim.m.rd (pgCnv 2) CNV_LIMITER.ACTIVE = 1) := by
  decide +kernel

/-- The clauses of ConverterRuns have states that meet their hypotheses. -/
theorem test_witness_ConverterRuns :
    (z1.m.arrival 55 1 = some (Body.startTick 7 4096)) ∧ (z1.m.runState 1 = 1) ∧ (z1.m.lv (pgCnv 1) CNV_RUN.START_SRC = 1) ∧ (z1.m.lv (pgCnv 1) CNV_RUN.START_EVT = 7) ∧ ((z1.m.cv 1).startTick = none) ∧ (z1.m.tick ≤ 4096) ∧
    (z2.m.runState 1 = 1) ∧ ((z2.m.cv 1).startTick = some 8192) ∧
    (z3.m.runState 1 = 2) ∧ ((z3.m.cv 1).stopping = true) ∧
    (up.arrives Requester.host (pgCnv 1) = true) ∧ (up.m.gated (pgCnv 1) = false) ∧ (up.m.safeAt 1 = false) ∧
    ((run 1 2 up).arrives Requester.mgt (pgCnv 1) = true) ∧ ((run 1 2 up).m.runState 1 = 2) := by
  decide +kernel

/-- The clauses of ScanAndInjection have states that meet their hypotheses. -/
theorem test_witness_ScanAndInjection_1 :
    (z4.m.arrival 2 (24 + 2) = some (Body.entryMark { index := 0, entry := 1, source := 2, atten := 3, injected := false, resumed := false })) ∧
    (sInj.arrives Requester.host (pgCnv 0) = true) ∧ (sInj.m.rd (pgCnv 0) CNV_INJ_SW_CFG.SOURCE < 5) ∧ (sInj.m.rd (pgCnv 0) CNV_INJ_SW_TIME.SETTLE ≠ 0) ∧ (sInj.m.rd (pgCnv 0) CNV_INJ_SW_TIME.REPEAT ≠ 0) ∧ (sInj.m.injectRefusal 0 = 0) ∧
    (sInjBad.arrives (Requester.core 3) (pgCnv 0) = true) ∧ (5 ≤ sInjBad.m.rd (pgCnv 0) CNV_INJ_SW_CFG.SOURCE ∨ sInjBad.m.rd (pgCnv 0) CNV_INJ_SW_TIME.SETTLE = 0) ∧
    (sInjTrg.m.arrival (24 + 0) 0 = some (Body.injectReq 0)) ∧ (sInjTrg.m.injectRefusal 0 = 0) ∧ (sInjTrg.m.lv (pgCnv 0) CNV_INJ_TRG_TIME.REPEAT ≠ 0) ∧
    ((z5.m.cv 0).inj = some inj1) ∧ (z5.m.runState 0 = 2) ∧ ((z5.m.cv 0).injected = false) ∧ ((z5.m.cv 0).stopping = false) ∧
    (z6.m.runState 0 = 2) ∧ ((z6.m.cv 0).injected = true) ∧ ((z6.m.cv 0).stopping = false) := by
  decide +kernel

/-- The clauses of ScanAndInjection have states that meet their hypotheses. -/
theorem test_witness_ScanAndInjection_2 :
    (sScan.m.runState 0 = 2) ∧ ((sScan.m.cv 0).injected = false) ∧ ((sScan.m.cv 0).inj = none) ∧ ((sScan.m.cv 0).stopping = false) ∧ (sScan.m.rd (pgCnv 0) CNV_SCAN_STATUS.ENTRY + 1 < sScan.m.lv (pgCnv 0) CNV_SCAN_CTRL.LENGTH) ∧ (sScan.m.lv (pgCnv 0) CNV_SCAN_TIME.REPEAT (sScan.m.rd (pgCnv 0) CNV_SCAN_STATUS.ENTRY + 1) ≠ 0) := by
  decide +kernel

/-- The clauses of SampleMessages have states that meet their hypotheses. -/
theorem test_witness_SampleMessages :
    ((run 3 2 up).m.runState 3 = 2) ∧ (95 ≤ raw.length) := by
  decide +kernel

end T2

namespace T3

def run (x st : Nat) (s : State) : State := s.onM fun m => m.wr (pgCnv x) CNV_STATUS.RUN_STATE st
def onCv (x : Nat) (f : Conv → Conv) (s : State) : State := s.onM fun m => m.setCv x (f (m.cv x))
def counting (k : Nat) (s : State) : State := s.onM fun m => { m with clk.counting := true, clk.time := BitVec.ofNat 64 (256 * k) }
def sRot : State := onCv 1 (fun c => { c with position := 5, bg := ⟨true, false, 100, 100, 100⟩ }) ((w (pgCnv 1) CTRL.ENABLE 1 0 (wl pgCal CAL_BG_CTRL.BG_EN 15 0 (counting 12500007 up))))
def swap1 : SwapInfo := ⟨1,2,3,4,5,6,none,false,false⟩
def z1 : State := got up 2 26 (.swapMark swap1)
def z2 : State := got up 2 6 (.swapMark swap1)
def sSubst : State := onCv 3 (fun c => { c with substDue := [(7, 9)] }) up
def sOn : State := w (pgCnv 2) CTRL.ENABLE 1 0 up
def at_ (n : Nat) (s : State) : State := onCv 2 (fun c => { c with step := n, stepAt := s.m.clk.ticks, fgStart := s.m.clk.ticks, fullTicks := 2000000 }) s
def sBusy : State := w pgCal CAL_FG_STATUS.STEP 3 2 sOn
def late_ (s : State) : State := s.onM fun m => { m with clk.ticks := m.clk.ticks + 4000000000000 }
def sPassed : State := onCv 2 (fun c => { c with passed := true }) (at_ 2 sOn)
def res0 : CalResult := ⟨[], [], 0, 0, -20000⟩
def resBad : CalResult := ⟨[], [], 0, 0, 0⟩
def sStored : State := run 2 3 (onCv 2 (fun c => { c with stored := true, before := 2, resumeAt := 8192, storedGen := 4 }) (at_ 7 sOn))
def sEnded : State := onCv 2 (fun c => { c with stored := false, ended := true }) sStored
def z3 : State := got (at_ 7 sOn) 2 57 (.storeRequest 2)
def z3b : State := got sOn 2 57 (.storeRequest 2)
def sStoring (n : Nat) : State := w pgCal CAL_STORE_STATUS.STORE_STATE n 0 ((at_ 7 sOn).onM fun m => { m with safety.stores := [2, 3] })
def progd (n : Nat) : State := (sStoring n).onM fun m => m.programBody 2
def read_ : State := (progd 2).onM fun m => m.programHeader 2

/-- The clauses of Rotation have states that meet their hypotheses. -/
theorem test_witness_Rotation :
    (sRot.m.stepTick 1 = some 12500000) ∧ ((sRot.m.takeBg 1 12500000).rotates 1 = true) ∧ (((sRot.m.takeBg 1 12500000).cv 1).readyTick ≤ 12500000) ∧
    (sRot.m.rotates 1 = true) ∧ (sRot.m.nextPosition 1 < 64) ∧
    (z1.m.arrival 2 (24 + 2) = some (Body.swapMark swap1)) ∧
    (z2.m.arrival 2 (4 + 2) = some (Body.swapMark swap1)) ∧
    ((sSubst.m.cv 3).substDue = [(7, 9)]) ∧ (sSubst.m.stepTick 3 ≠ some sSubst.m.tick) ∧ (sSubst.m.rd (pgCnv 3) CNV_SLICE_STATUS.ROTATION_STOPPED = 0) ∧ (0 < sSubst.m.rd (pgCnv 3) CNV_SLICE_STATUS.SPARES_LEFT) := by
  decide +kernel

/-- The clauses of ForegroundCalibration have states that meet their hypotheses. -/
theorem test_witness_ForegroundCalibration_1 :
    (sOn.arrives Requester.host pgCal = true) ∧ (bit (4) 2 = true) ∧ (sOn.m.rd pgCal CAL_FG_STATUS.STEP 2 = 0) ∧ (sOn.m.rd (pgCnv 2) CTRL.ENABLE ≠ 0) ∧ ((sOn.m.cv 2).failed = false) ∧
    (sBusy.arrives Requester.mgt pgCal = true) ∧ (bit (4) 2 = true) ∧ (sBusy.m.rd pgCal CAL_FG_STATUS.STEP 2 ≠ 0) ∧
    (((at_ 1 sOn).m.cv 2).step = 1) ∧ ((at_ 1 sOn).m.calAsked 2 = false) ∧ ((at_ 1 sOn).m.rd (pgCnv 2) CNV_INJECT_STATUS.STATE = 0) ∧
    (((late_ (at_ 2 sOn)).m.cv 2).step = 2) ∧ (((late_ (at_ 2 sOn)).m.cv 2).passed = false) ∧ (((late_ (at_ 2 sOn)).m.cv 2).stepOver (late_ (at_ 2 sOn)).m.clk.ticks = true) ∧ ((late_ (at_ 2 sOn)).m.runState 2 ≠ 3) ∧
    ((sPassed.m.cv 2).step = 2) ∧ ((sPassed.m.cv 2).passed = true) ∧
    (((run 2 2 sPassed).m.cv 2).step = 2) ∧ (((run 2 2 sPassed).m.cv 2).passed = true) := by
  decide +kernel

/-- The clauses of ForegroundCalibration have states that meet their hypotheses. -/
theorem test_witness_ForegroundCalibration_2 :
    (3 ≤ ((at_ 3 sOn).m.cv 2).step) ∧ (((at_ 3 sOn).m.cv 2).step ≤ 5) ∧ (((at_ 3 sOn).m.cv 2).ended = false) ∧ (((at_ 3 sOn).m.cv 2).stepOver (at_ 3 sOn).m.clk.ticks = false) ∧ (((at_ 3 sOn).m.cv 2).runOver (at_ 3 sOn).m.clk.ticks = false) ∧
    (3 ≤ ((at_ 5 sOn).m.cv 2).step) ∧ (((at_ 5 sOn).m.cv 2).step ≤ 5) ∧ (((at_ 5 sOn).m.cv 2).ended = false) ∧ (((at_ 5 sOn).m.cv 2).stepOver (at_ 5 sOn).m.clk.ticks = false) ∧ (((at_ 5 sOn).m.cv 2).runOver (at_ 5 sOn).m.clk.ticks = false) ∧
    (((at_ 6 sOn).m.cv 2).step = 6) ∧ (((at_ 6 sOn).m.cv 2).ended = false) ∧ (((at_ 6 sOn).m.cv 2).stepOver (at_ 6 sOn).m.clk.ticks = false) ∧ (((at_ 6 sOn).m.cv 2).runOver (at_ 6 sOn).m.clk.ticks = false) ∧ (residualReason res0 ((at_ 6 sOn).m.cv 2) (toSigned 16 ((at_ 6 sOn).m.rd pgSaf SAF_TEMP.NOW 2)) = 0) ∧
    (((run 2 3 (at_ 6 sOn)).m.cv 2).step = 6) ∧ (((run 2 3 (at_ 6 sOn)).m.cv 2).ended = false) ∧ (((run 2 3 (at_ 6 sOn)).m.cv 2).stepOver (run 2 3 (at_ 6 sOn)).m.clk.ticks = false) ∧ (((run 2 3 (at_ 6 sOn)).m.cv 2).runOver (run 2 3 (at_ 6 sOn)).m.clk.ticks = false) ∧ (residualReason resBad ((run 2 3 (at_ 6 sOn)).m.cv 2) (toSigned 16 ((run 2 3 (at_ 6 sOn)).m.rd pgSaf SAF_TEMP.NOW 2)) ≠ 0) ∧ ((run 2 3 (at_ 6 sOn)).m.runState 2 = 3) := by
  decide +kernel

/-- The clauses of ForegroundCalibration have states that meet their hypotheses. -/
theorem test_witness_ForegroundCalibration_3 :
    ((if true = true then ((late_ (run 2 3 (at_ 7 sOn))).m.cv 2).runOver (late_ (run 2 3 (at_ 7 sOn))).m.clk.ticks else ((late_ (run 2 3 (at_ 7 sOn))).m.cv 2).stepOver (late_ (run 2 3 (at_ 7 sOn))).m.clk.ticks) = true) ∧ (3 ≤ ((late_ (run 2 3 (at_ 7 sOn))).m.cv 2).step) ∧ (((late_ (run 2 3 (at_ 7 sOn))).m.cv 2).stored = false) ∧ (((late_ (run 2 3 (at_ 7 sOn))).m.cv 2).ended = false) ∧ ((late_ (run 2 3 (at_ 7 sOn))).m.headerBegun 2 = false) ∧ ((late_ (run 2 3 (at_ 7 sOn))).m.runState 2 = 3) ∧
    ((if false = true then ((late_ (run 2 3 (at_ 4 sOn))).m.cv 2).runOver (late_ (run 2 3 (at_ 4 sOn))).m.clk.ticks else ((late_ (run 2 3 (at_ 4 sOn))).m.cv 2).stepOver (late_ (run 2 3 (at_ 4 sOn))).m.clk.ticks) = true) ∧ (3 ≤ ((late_ (run 2 3 (at_ 4 sOn))).m.cv 2).step) ∧ (((late_ (run 2 3 (at_ 4 sOn))).m.cv 2).stored = false) ∧ (((late_ (run 2 3 (at_ 4 sOn))).m.cv 2).ended = false) ∧ ((late_ (run 2 3 (at_ 4 sOn))).m.headerBegun 2 = false) ∧ ((late_ (run 2 3 (at_ 4 sOn))).m.runState 2 = 3) ∧
    (sStored.m.runState 2 = 3) ∧ ((sStored.m.cv 2).stored = true) ∧ ((sStored.m.cv 2).before = 2) ∧ ((sStored.m.cv 2).cutStop = false) ∧
    (sEnded.m.runState 2 = 3) ∧ ((sEnded.m.cv 2).stored = false) ∧ ((sEnded.m.cv 2).ended = true) ∧ ((sEnded.m.cv 2).before = 2) ∧ ((sEnded.m.cv 2).cutStop = false) := by
  decide +kernel

/-- The clauses of CalibrationStore have states that meet their hypotheses. -/
theorem test_witness_CalibrationStore :
    (z3.m.arrival 2 57 = some (Body.storeRequest 2)) ∧ ((z3.m.cv 2).storing = true) ∧
    (z3b.m.arrival 2 57 = some (Body.storeRequest 2)) ∧ ((z3b.m.cv 2).storing = false) ∧
    ((sStoring 1).m.safety.stores.head? = some 2) ∧ ((sStoring 1).m.storeState = 1) ∧
    ((sStoring 2).m.safety.stores.head? = some 2) ∧ ((sStoring 2).m.storeState = 2) ∧
    ((w pgCal CAL_STORE_STATUS.STORE_STATE 3 0 (progd 2)).m.safety.stores.head? = some 2) ∧ ((w pgCal CAL_STORE_STATUS.STORE_STATE 3 0 (progd 2)).m.storeState = 3) ∧
    (read_.m.safety.stores.head? = some 2) ∧ (read_.m.storeState = 4) ∧ ((read_.m.slot read_.m.targetSlot).valid = true) ∧
    ((sStoring 4).m.safety.stores.head? = some 2) ∧ ((sStoring 4).m.storeState = 4) := by
  decide +kernel

end T3

namespace T4

def onEv (n : Nat) (f : EvtIn → EvtIn) (s : State) : State := s.onM fun m => m.setEv n (f (m.ev n))
def onIu (n : Nat) (f : UnitSt → UnitSt) (s : State) : State := s.onM fun m => m.setIu n (f (m.iu n))
def sEv : State := wl pgEvt EVT_IN_CFG.EN 1 3 (wl pgEvt EVT_IN_CFG.EDGE 2 3 (wl pgEvt EVT_IN_CFG.COURSES 9 3 (up.onM fun m => { m with clk.time := 4096 * 256, clk.ticks := 30000000 })))
def stamped (l : List Nat) : State := onEv 3 (fun e => { e with stamps := l.map fun z => (z, z == 20000) }) sEv
def sOff : State := wl pgEvt EVT_IN_CFG.EN 0 3 sEv
def sHeld : State := onEv 3 (fun e => { e with holdEnd := some (4096*256+100000) }) sEv
def sDead : State := onEv 3 (fun e => { e with last := some 1048500 }) sEv
def sHold (k : Nat) : State := onEv k (fun e => { e with holdEnd := some 20, passed := true }) sEv
def sHoldOn : State := wl pgEvt EVT_IN_HOLDOFF.HOLDOFF_EN 1 1 (sHold 1)
def sBuilding : State := w pgEvt EVT_STATUS.CD_BUILDING 1 0 sEv
def z1 : State := stamped [16384, 20000, 40000]
def sUnit (st : Nat) (gate : Bool) (edges : List UnitEdge) (start : Option Nat) : State :=
  onIu 2 (fun t => { t with edges := edges, gate := gate, start := start, swEnd := some 40 })
    (w pgEvt EVT_IU_STATUS.STATE st 2 (w pgEvt EVT_IU_STATUS.GATE_OPEN gate.toNat 2 (w pgEvt EVT_IU_SEL.UNIT 2 0
      (wl pgEvt EVT_IU_CFG.MODE 1 2 (wl pgEvt EVT_IU_CFG.GATE_SRC 1 2 (wl pgEvt EVT_IU_CFG.START_EVT 1 2 
       (wl pgEvt EVT_IU_CFG.STOP_EVT 5 2 sEv)))))))
def e1 : UnitEdge := ⟨500, 1, true, false, true, 7⟩
def e5 : UnitEdge := ⟨502, 5, true, false, false, 8⟩
def e8 : UnitEdge := ⟨502, 8, true, false, false, 8⟩
def e9 : UnitEdge := ⟨502, 8, false, false, false, 8⟩
def z2 : State := sUnit 2 true [e1] none
def z3 : State := sUnit 3 true [e5] (some 500)
def z6 : State := sUnit 1 false [e8] none
def z7 : State := sUnit 3 true [e9] (some 500)
def sIdle : State := sUnit 1 false [e1] none
def z4 : State := sUnit 2 true [] none
def z5 : State := sUnit 3 true [] (some 500)

/-- The clauses of EventInputs have states that meet their hypotheses. -/
theorem test_witness_EventInputs_1 :
    (sEv.m.lv pgEvt EVT_IN_CFG.EN 3 = 1) ∧ ((sEv.m.ev 3).holdEnd = none) ∧ (sEv.m.lv pgEvt EVT_IN_HOLDOFF.HOLDOFF_EN 3 = 0) ∧ (sEv.m.lv pgEvt EVT_IN_CFG.EDGE 3 = 2) ∧ ((sEv.m.ev 3).count % 2 ^ sEv.m.lv pgEvt EVT_IN_CFG.PRESCALE 3 = 0) ∧ ((sEv.m.ev 3).last = none) ∧
    (sOff.m.lv pgEvt EVT_IN_CFG.EN 3 = 0) ∧ ((sOff.m.ev 3).holdEnd = none) ∧
    (sHeld.m.lv pgEvt EVT_IN_CFG.EN 3 = 1) ∧ ((sHeld.m.ev 3).holdEnd = some 1148576) ∧ (sHeld.m.tick * 256 + 0 < 1148576) ∧
    (sDead.m.lv pgEvt EVT_IN_CFG.EN 3 = 1) ∧ ((sDead.m.ev 3).holdEnd = none) ∧ (sDead.m.lv pgEvt EVT_IN_HOLDOFF.HOLDOFF_EN 3 = 0) ∧ (sDead.m.lv pgEvt EVT_IN_CFG.EDGE 3 = 2) ∧ ((sDead.m.ev 3).count % 2 ^ sDead.m.lv pgEvt EVT_IN_CFG.PRESCALE 3 = 0) ∧ ((sDead.m.ev 3).last = some 1048500) ∧ (sDead.m.tick * 256 + 7 < 1048500 + 512) ∧
    (((sHold 1).m.ev 1).holdEnd = some 20) ∧ (20 / 256 ≤ (sHold 1).m.tick) ∧ (((sHold 1).m.ev 1).passed = true) := by
  decide +kernel

/-- The clauses of EventInputs have states that meet their hypotheses. -/
theorem test_witness_EventInputs_2 :
    ((sHoldOn.m.ev 1).holdEnd = some 20) ∧ (20 / 256 ≤ sHoldOn.m.tick) ∧ ((sHoldOn.m.ev 1).passed ≠ false) ∧ (sHoldOn.m.lv pgEvt EVT_IN_HOLDOFF.HOLDOFF_EN 1 = 1) ∧
    ((z1.m.ev 3).stamps = [(16384, false), (20000, true), (40000, false)]) ∧ ((16384 / 16384 + 1) * 64 ≤ z1.m.tick) ∧
    (up.arrives Requester.jdl pgEvt = true) ∧ (up.m.rd pgEvt EVT_STATUS.CD_BUILDING = 0) ∧
    (sBuilding.m.rd pgEvt EVT_STATUS.CD_BUILDING = 1) ∧ (sBuilding.m.clk.cdStart + 20000000 ≤ sBuilding.m.clk.ticks) := by
  decide +kernel

/-- The clauses of IntervalUnits have states that meet their hypotheses. -/
theorem test_witness_IntervalUnits_1 :
    (z2.m.lv pgEvt EVT_IU_CFG.MODE 2 = 1) ∧ ((z2.m.iu 2).gate = true) ∧ (z2.m.iuState 2 = 2) ∧ (e1.arrived + 8 ≤ z2.m.clk.ticks) ∧ ((z2.m.iu 2).edges = [e1]) ∧ (e1.dead = false) ∧ (z2.m.edgeRank 2 e1 = 1) ∧ ((z2.m.iu 2).after = none) ∧
    (z3.m.lv pgEvt EVT_IU_CFG.MODE 2 = 1) ∧ ((z3.m.iu 2).gate = true) ∧ (z3.m.iuState 2 = 3) ∧ (e5.arrived + 8 ≤ z3.m.clk.ticks) ∧ ((z3.m.iu 2).edges = [e5]) ∧ (e5.dead = false) ∧ (z3.m.edgeRank 2 e5 ≠ 0) ∧ (e5.input = z3.m.lv pgEvt EVT_IU_CFG.STOP_EVT 2) ∧ ((z3.m.iu 2).start = some 500) ∧ (500 + 1 < e5.stamp) ∧ (z3.m.lv pgEvt EVT_IU_CFG.STOPS 2 ≤ (z3.m.iu 2).stops.length + 1) ∧ ((z3.m.iu 2).fifo.length < 64) ∧ (z3.m.lv pgEvt EVT_IU_CFG.REPEAT 2 = 0) := by
  decide +kernel

/-- The clauses of IntervalUnits have states that meet their hypotheses. -/
theorem test_witness_IntervalUnits_2 :
    (z6.m.lv pgEvt EVT_IU_CFG.MODE 2 = 1) ∧ ((z6.m.iu 2).gate = false) ∧ (z6.m.iuState 2 = 1) ∧ (e8.arrived + 8 ≤ z6.m.clk.ticks) ∧ ((z6.m.iu 2).edges = [e8]) ∧ (e8.dead = false) ∧ (e8.input = 8) ∧ (e8.rise = true) ∧
    (z7.m.lv pgEvt EVT_IU_CFG.MODE 2 = 1) ∧ ((z7.m.iu 2).gate = true) ∧ (z7.m.iuState 2 = 3) ∧ (e9.arrived + 8 ≤ z7.m.clk.ticks) ∧ ((z7.m.iu 2).edges = [e9]) ∧ (e9.dead = false) ∧ (e9.input = 8) ∧ (e9.rise = false) ∧ ((z7.m.iu 2).fifo.length < 64) ∧
    (sIdle.arrives Requester.host pgEvt = true) ∧ (sIdle.m.iuSel = 2) ∧ (sIdle.m.lv pgEvt EVT_IU_CFG.GATE_SRC 2 = 1) ∧ (sIdle.m.rd pgEvt EVT_IU_STATUS.GATE_OPEN 2 = 0) ∧ (sIdle.m.lv pgEvt EVT_IU_CFG.MODE 2 ≠ 0) := by
  decide +kernel

/-- The clauses of IntervalUnits have states that meet their hypotheses. -/
theorem test_witness_IntervalUnits_3 :
    (z4.arrives Requester.host pgEvt = true) ∧ (z4.m.iuSel = 2) ∧ (z4.m.lv pgEvt EVT_IU_CFG.GATE_SRC 2 = 1) ∧ (z4.m.rd pgEvt EVT_IU_STATUS.GATE_OPEN 2 = 1) ∧
    ((z5.m.iu 2).swEnd = some 40) ∧ (40 ≤ z5.m.tick) ∧
    (z5.m.lv pgEvt EVT_IU_CFG.MODE 2 = 1) ∧ (z5.m.iuState 2 = 3) ∧ ((z5.m.iu 2).start = some 500) ∧ ((z5.m.iu 2).edges = []) ∧ ((500 + 256 * z5.m.lv pgEvt EVT_IU_TIMEOUT.TICKS 2) / 256 + 8 ≤ z5.m.tick) ∧ ((z5.m.iu 2).fifo.length < 64) ∧
    (z5.arrives Requester.host pgEvt = true) := by
  decide +kernel

end T4

namespace T5

def onTg (n : Nat) (f : TrgSt → TrgSt) (s : State) : State := s.onM fun m => m.setTg n (f (m.tg n))
def onCpt (n : Nat) (f : CapSt → CapSt) (s : State) : State := s.onM fun m => m.setCpt n (f (m.cpt n))
def sCrs : State := w (pgCrs 2) CRS_STATUS.RUN_STATE 2 0 (wl (pgTrg 2) TRG_COND_CFG.TYPE 5 3 (wl (pgTrg 2) TRG_COND_CFG.UNIT 6 3 (wl (pgTrg 2) TRG_COND_CFG.TYPE 6 4 (up.onM fun m => { m with clk.time := 25600000, clk.ticks := 5000 }))))
def n1 : Notice := ⟨0, 6, false, false, false, [25000000]⟩
def z1 : State := got (onTg 2 (fun t => { t with running := true }) sCrs) 55 26 (.notice n1)
def sTg : State := onTg 2 (fun t => { t with running := true, nextSlot := 900 }) sCrs
def soft1 : Atom := ⟨900, 900 * 256, 900, false, false, false, false, .soft 16⟩
def sFire : State := wl (pgTrg 2) TRG_ST_MASKS.GO_MASK 16 0 (wl (pgTrg 2) TRG_ST_CTRL.TRIGGER 1 0 (wl (pgTrg 2) TRG_ST_CTRL.NEXT 3 0 (onTg 2 (fun t => { t with atoms := [soft1] }) sTg)))
def sExpire : State := wl (pgTrg 2) TRG_ST_CTRL.TIMEOUT_EN 1 0 (wl (pgTrg 2) TRG_ST_CTRL.TIMEOUT_TO 5 0 (wl (pgTrg 2) TRG_ST_TIMEOUT.TICKS 900 0 sTg))
def sHolding : State := onTg 2 (fun t => { t with hold := some (700, 0) }) sTg
def z2 : State := got up 2 26 (.injectDone 2 0)
def z3 : State := got up 2 26 (.injectDone 2 3)
def seg1 : Seg := { Seg.open_ 0 with trig := some (5, 3), close := some 1, closedAt := 100 }
def body1 : List Byte := List.replicate 124 9
def sRec : State := onCpt 7 (fun c => { c with segs := [seg1] }) (wl pgBud BUD_CTRL.ENFORCE 0 0 (wl pgAcq ACQ_CAP_REGION.REGION 9 7 (wl pgAcq ACQ_CAP_SEG_SIZE.SIZE 1 7 (wl pgSys SYS_REG_SIZE.SIZE 4 9 (wl pgSys SYS_REG_CTRL.STACKS 5 9 (wl pgSys SYS_REG_CTRL.MAPPED 1 9 sCrs))))))
def seg2 : Seg := { seg1 with filed := some body1 }
def sFiled : State := onCpt 7 (fun c => { c with segs := [seg2] }) sRec
def sRing : State := w pgAcq ACQ_CAP_SEL.CAPTURE 7 0 (w pgAcq ACQ_CAP_LEN.LEN 4 7 (w pgAcq ACQ_CAP_USED.SEGMENTS 3 7 (w pgAcq ACQ_CAP_READ.SEGMENT 3 7 sRec)))
def seg3 : Seg := { seg2 with headed := true }
def sHeaded : State := onCpt 7 (fun c => { c with segs := [seg3, seg1] }) (wl pgBud BUD_CTRL.ENFORCE 1 0 sRec)

/-- The clauses of TriggerEngine have states that meet their hypotheses. -/
theorem test_witness_TriggerEngine_1 :
    (z1.m.arrival 55 (courseIsland 2) = some (Body.notice n1)) ∧ (n1.stamps = [25000000]) ∧ (z1.m.takesItems 2 = true) ∧ ((z1.m.tg 2).running = false ∨ (z1.m.tg 2).start.getD 0 ≤ z1.m.unwrap 25000000 / 256) ∧
    (sTg.m.mayEvaluate 2 = true) ∧ ((sTg.m.tg 2).hold = none) ∧ ((sTg.m.tg 2).atoms = []) ∧ (∀ i < 16, sTg.m.cnd 2 i TRG_COND_CFG.TYPE ≠ 7) ∧ (sTg.m.timeoutDue 2 = false) ∧
    (sFire.m.mayEvaluate 2 = true) ∧ (900 ≤ sFire.m.tick) ∧ ((sFire.m.tg 2).hold = none) ∧ ((sFire.m.tg 2).log.length < 256) ∧ ((sFire.m.tg 2).atoms = [{ slot := (sFire.m.tg 2).nextSlot, instant := (sFire.m.tg 2).nextSlot * 256, ready := 900, taint := false, holdover := false, drop := false, restart := false, kind := AtomKind.soft 16 }]) ∧ (∀ (j : Fin 16), sFire.m.cnd 2 (↑j) TRG_COND_CFG.TYPE ≠ 7 ∧ (sFire.m.cnd 2 (↑j) TRG_COND_CFG.TYPE = 6 ∧ bit 16 ↑j = true ↔ j = 4)) ∧ (bit (sFire.m.lv (pgTrg 2) TRG_ST_MASKS.GO_MASK (sFire.m.seqState 2)) 4 = true) ∧ (bit (sFire.m.lv (pgTrg 2) TRG_ST_MASKS.RESET_MASK (sFire.m.seqState 2)) 4 = false) ∧ (sFire.m.lv (pgTrg 2) TRG_ST_COUNT.COUNT (sFire.m.seqState 2) ≤ sFire.m.rd (pgTrg 2) TRG_SEQ_STATUS.COUNT_NOW + 1) ∧ (sFire.m.lv (pgTrg 2) TRG_ST_CTRL.TRIGGER (sFire.m.seqState 2) = 1) ∧ (sFire.m.lv (pgTrg 2) TRG_ST_CTRL.INJECT (sFire.m.seqState 2) = 0) ∧ (sFire.m.lv (pgTrg 2) TRG_ST_CTRL.CROSS (sFire.m.seqState 2) = 0) ∧ (sFire.m.capsOf 2 = []) := by
  decide +kernel

/-- The clauses of TriggerEngine have states that meet their hypotheses. -/
theorem test_witness_TriggerEngine_2 :
    (sExpire.m.timeoutDue 2 = true) ∧ ((sExpire.m.tg 2).atoms = []) ∧ (∀ i < 16, sExpire.m.cnd 2 i TRG_COND_CFG.TYPE ≠ 7) ∧
    (sHolding.m.mayEvaluate 2 = true) ∧ (sHolding.m.holdOver 2 (sHolding.m.tg 2).nextSlot = true) ∧
    (sTg.arrives Requester.host (pgTrg 2) = true) ∧ (100000 = if 2 = 4 then (sTg.m.tg 2).nextSlot else sTg.m.tick) ∧ (sTg.m.takesItems 2 = true) ∧ (2 = 4 ∨ (sTg.m.tg 2).running = false ∨ (sTg.m.tg 2).start.getD 0 ≤ 100000) ∧
    (z2.m.arrival 2 (24 + 2) = some (Body.injectDone 2 0)) ∧
    (z3.m.arrival 2 (24 + 2) = some (Body.injectDone 2 3)) ∧
    (up.arrives Requester.host (pgTrg 4) = true) := by
  decide +kernel

/-- The clauses of Records have states that meet their hypotheses. -/
theorem test_witness_Records_1 :
    (List.find? (fun g => g.close.isSome && g.filed.isNone) (sRec.m.cpt 7).segs = some seg1) ∧ (seg1.closedAt + 256 ≤ sRec.m.clk.ticks) ∧
    ((sFiled.m.cpt 7).segs = [seg2]) ∧ (seg2.filed = some body1) ∧ (body1.length = 124) ∧ (sFiled.m.capState 7 < 2) ∧ ((sFiled.m.cpt 7).stall = []) ∧ (sFiled.m.rd pgAcq ACQ_CAP_STATUS.LEN_PENDING 7 ≠ 1) ∧ (sFiled.m.writesHeld (sFiled.m.capIsland 7) = false) ∧ (seg2.headed = true ∨ sFiled.m.enforcing = false) ∧
    (sRing.arrives Requester.host pgAcq = true) ∧ (sRing.m.rd pgAcq ACQ_CAP_SEL.CAPTURE = 7) ∧ (sRing.m.streaming 7 = false) ∧ (sRing.m.released 7 (1) = some 2) ∧ (sRing.m.capState 7 < 2) ∧ ((sRing.m.cpt 7).stall = []) ∧
    (sRing.arrives Requester.host pgAcq = true) ∧ (sRing.m.rd pgAcq ACQ_CAP_SEL.CAPTURE = 7) ∧ (sRing.m.streaming 7 = false) ∧ (sRing.m.released 7 (4) = none) := by
  decide +kernel

/-- The clauses of Records have states that meet their hypotheses. -/
theorem test_witness_Records_2 :
    ((sHeaded.m.cpt 7).segs = [seg3, seg1]) ∧ (seg3.filed = some body1) ∧ (body1.length = 124) ∧ (sHeaded.m.capState 7 < 2) ∧ ((sHeaded.m.cpt 7).stall = []) ∧ (sHeaded.m.rd pgAcq ACQ_CAP_STATUS.LEN_PENDING 7 ≠ 1) ∧ (sHeaded.m.writesHeld (sHeaded.m.capIsland 7) = false) ∧ (seg3.headed = true ∨ sHeaded.m.enforcing = false) := by
  decide +kernel

end T5

namespace T6

def onDn (n : Nat) (f : DenSt → DenSt) (s : State) : State := s.onM fun m => m.setDn n (f (m.dn n))
def up2 : State := up.onM fun m => { m with clk.time := 2560 * 256, clk.ticks := 9000 }
def sp1 : Spectrum := ⟨2560, 0, 1, false, false, 0, 0, 0, 3, 0, 0, 0, 8, 0, 0, 16, none, 1, 0, 0, false, ⟨[1,2,3,4,5,6,7,8], []⟩⟩
def spC : Spectrum := { sp1 with complex := true }
def dcfg : DenCfg := ⟨0, 1, 0, 4, 8, 0, 8, 1, 0, false, 0, 0, 2048, 5, 3, [(0,7,0,3), (0,0,0,0)], false, 9, 3, 1, false, 9, 0, 4, 0, 100⟩
def fr1 : DenFrame := ⟨0, 2048, 0, dcfg, false, 0, [], [], 0, 0, 0, 0, none, false, 50, none⟩
def sDen (sp : Spectrum) (s : State := up) : State := onDn 5 (fun d => { d with on := true, inbox := [(29, sp)], frames := [fr1], next := 2048, folding := [fr1] }) s
def a1 : State := sDen spC
def a2 : State := sDen sp1
def a3 : State := sDen sp1 up2
def fr2 : DenFrame := fr1.draw sp1
def sFold : State := onDn 5 (fun d => { d with folding := [fr2] }) a3
def pub1 : Publication := ⟨2, 9, 64, 400, 5, List.replicate 64 7, false⟩
def pub2 : Publication := { pub1 with headed := true }
def sPub : State := onDn 5 (fun d => { d with pub := some pub1, newest := some pub1 }) (wl pgBud BUD_CTRL.ENFORCE 0 0 (wl pgSys SYS_REG_SIZE.SIZE 4 9 (wl pgSys SYS_REG_CTRL.STACKS 5 9 (wl pgSys SYS_REG_CTRL.MAPPED 1 9 up))))
def z1 : State := got sPub 30 29 (.lock 5)
def sPub2 : State := onDn 5 (fun d => { d with pub := some pub2, newest := some pub1 }) up
def sSpare : State := onDn 5 (fun d => { d with switching := some 2048 }) a3
def onDisp (f : DispSt → DispSt) (s : State) : State := s.onM fun m => { m with disp := f m.disp }
def sRaster : State := onDisp (fun d => { d with vblank := some 0, sent := 1, still := 5 }) (w pgDisp CTRL.ENABLE 1 0 (wl pgDisp DISP_LINK.OUT_EN 1 0 (wl pgDisp DISP_PCLK.KHZ 600000 0 (wl pgDisp DISP_H_ACT.ACTIVE 4 0 (wl pgDisp DISP_V_ACT.ACTIVE 2 0 (wl pgDisp DISP_BG.RGB 0x123456 0 (up2.onM fun m => { m with clk.ticks := 90000000 })))))))
def sAborted : State := onDisp (fun d => { d with aborted := true }) sRaster
def sTodo : State := onDisp (fun d => { d with todo := [0, 3] }) sRaster
def sStill : State := onDisp (fun d => { d with still := 1000, blank := 10^18 }) (wl pgDisp DISP_LINK.ADAPTIVE_EN 1 0 sRaster)
def sPlug : State := w pgDisp DISP_LINK_STATUS.HPD 1 0 sRaster

/-- The clauses of DensityFrames have states that meet their hypotheses. -/
theorem test_witness_DensityFrames :
    ((a1.m.dn 5).inbox = [(29, spC)]) ∧ (a1.m.unwrap spC.time / 256 < ((a1.m.framesAt 5 (a1.m.unwrap spC.time / 256)).dn 5).next) ∧ (spC.complex = true) ∧
    ((a2.m.dn 5).inbox = [(29, sp1)]) ∧ (a2.m.unwrap sp1.time / 256 < ((a2.m.framesAt 5 (a2.m.unwrap sp1.time / 256)).dn 5).next) ∧ (sp1.complex = false) ∧ ((a2.m.dn 5).first ≤ a2.m.unwrap sp1.time / 256) ∧ (List.find? (fun f => f.has (a2.m.unwrap sp1.time / 256)) ((a2.m.framesAt 5 (a2.m.unwrap sp1.time / 256)).dn 5).frames = some fr1) ∧ (fr1.cfg.takes sp1 = true) ∧ (fr1.cfg.valFirst + fr1.cfg.valCount ≤ sp1.count) ∧ ((a2.m.dn 5).drawing = []) ∧
    ((a3.m.dn 5).on = true) ∧ ((a3.m.dn 5).frames = [fr1]) ∧ (fr1.stop + fr1.cfg.close ≤ a3.m.tick) ∧
    ((sFold.m.dn 5).folding = [fr2]) ∧ (fr2.foldEnd ≤ sFold.m.clk.ticks) ∧ ((sFold.m.dn 5).pub = none) ∧ (fr2.cfg.pub = false) ∧ (fr2.cfg.wf = false) ∧
    (z1.m.arrival 30 (z1.m.denIsland 5) = some (Body.lock 5)) ∧
    (sPub.arrives Requester.host (pgDen 5) = true) := by
  decide +kernel

/-- The clauses of PublicationAndSpare have states that meet their hypotheses. -/
theorem test_witness_PublicationAndSpare :
    ((sPub.m.dn 5).pub = some pub1) ∧ (pub1.headed = false) ∧ (sPub.m.net.writes = []) ∧ (sPub.m.enforcing = false) ∧ (pub1.header.length = 64) ∧
    ((sPub2.m.dn 5).pub = some pub2) ∧ (pub2.headed = true) ∧ (sPub2.m.stretchHeld (sPub2.m.denIsland 5) pub2.region pub2.ofs pub2.bytes = false) ∧
    ((sSpare.m.dn 5).switching = some 2048) ∧ ((sSpare.m.dn 5).on = true → 2048 ≤ sSpare.m.tick ∧ 2048 ≤ ((sSpare.m.framesAt 5 (2048 - 1)).dn 5).next) := by
  decide +kernel

/-- The clauses of Composition have states that meet their hypotheses. -/
theorem test_witness_Composition :
    (∀ (l : Fin 8), sRaster.m.lv (pgLayer ↑l) LAYER_CFG.TYPE = 0) ∧ (sRaster.m.rasterRuns = true) ∧ (sRaster.m.vblankDue = true) ∧ (∀ p ∈ rasterPages, Store.get none sRaster.m.reg.commits p = none) ∧ (sRaster.m.safeAt 30 = false) ∧ (sRaster.m.disp.vblank ≠ none) ∧ (sRaster.m.disp.aborted = false) ∧ (sRaster.m.disp.todo = []) ∧
    (∀ (l : Fin 8), sAborted.m.lv (pgLayer ↑l) LAYER_CFG.TYPE = 0) ∧ (sAborted.m.rasterRuns = true) ∧ (sAborted.m.vblankDue = true) ∧ (∀ p ∈ rasterPages, Store.get none sAborted.m.reg.commits p = none) ∧ (sAborted.m.safeAt 30 = false) ∧ (sAborted.m.disp.aborted = true) ∧ (0 < sAborted.m.lv pgDisp DISP_V_ACT.ACTIVE) ∧ (sAborted.m.lv pgDisp DISP_V_ACT.ACTIVE ≤ 2160) ∧
    (∀ (l : Fin 8), sTodo.m.lv (pgLayer ↑l) LAYER_CFG.TYPE = 0) ∧ (sTodo.m.disp.todo = [0, 3]) ∧ (sTodo.m.disp.work = none) ∧ (sTodo.m.lv pgDisp DISP_H_ACT.ACTIVE ≤ 4096) := by
  decide +kernel

/-- The clauses of DisplayLink have states that meet their hypotheses. -/
theorem test_witness_DisplayLink :
    (sRaster.m.rasterRuns = true) ∧ (sRaster.m.disp.vblank ≠ none) ∧ (sRaster.m.safeAt 31 = false) ∧ (sRaster.m.disp.aborted = false) ∧ (sRaster.m.rasterLine.2 = false) ∧ (1 ≤ sRaster.m.rasterLine.1) ∧ (sRaster.m.disp.sent = 1) ∧
    (sStill.m.rasterRuns = true) ∧ (sStill.m.inBlank = true) ∧ (sStill.m.lv pgDisp DISP_LINK.ADAPTIVE_EN = 1) ∧ (sStill.m.disp.changed = false) ∧ (sStill.m.rd pgDisp DISP_LINE.EXTENDED = 0) ∧ (sStill.m.lv pgDisp DISP_REFRESH.STATIC_FRAMES ≤ sStill.m.disp.still) ∧
    (sRaster.m.rd pgDisp DISP_LINK_STATUS.HPD = 0) ∧
    (sPlug.m.rd pgDisp DISP_LINK_STATUS.HPD = 1) ∧ (sPlug.m.rasterRuns = true) ∧ (2 ≤ sPlug.m.lv pgDisp DISP_LINK.MAX_RATE) ∧ (4 ≤ sPlug.m.lv pgDisp DISP_LINK.MAX_LANES) ∧
    (sPlug.m.rd pgDisp DISP_LINK_STATUS.HPD = 1) ∧ (sPlug.m.rasterRuns = true) ∧ (0 ≤ sPlug.m.lv pgDisp DISP_LINK.MAX_RATE) ∧ (0 ≤ sPlug.m.lv pgDisp DISP_LINK.MAX_LANES) := by
  decide +kernel

end T6

namespace T7

def onLane (n : Nat) (f : LaneSt → LaneSt) (s : State) : State := s.onM fun m => m.setLane n (f (m.lane n))
def onDl (n : Nat) (f : DLaneSt → DLaneSt) (s : State) : State := s.onM fun m => m.setDlane n (f (m.dlane n))
def mem9 (s : State) : State := wl pgSys SYS_REG_SIZE.SIZE 4 9 (wl pgSys SYS_REG_CTRL.STACKS 5 9 (wl pgSys SYS_REG_CTRL.MAPPED 1 9 s))
def job1 (dst : Nat) (st : Bool) : Job := ⟨st, 9, 4096, 40, dst, 70, 5, 3⟩
def run1 (dst : Nat) (st : Bool) : LaneRun := ⟨job1 dst st, List.replicate 40 7, 40, [1,2,3,0,5], 5, 7, 8, 1, 0, none, false⟩
def run2 (dst : Nat) : LaneRun := { run1 dst true with sent := 2 }
def free (s : State) : State := wl pgBud BUD_CTRL.ENFORCE 0 0 s
def sJob (j : Job) : State := got (mem9 up) 24 46 (.job 11 j)
def sBusy (dst : Nat) (st : Bool) : State := onLane 11 (fun l => { l with run := some (run1 dst st) }) (sJob (job1 9 true))
def z1 : State := sBusy 9 true
def z2 : State := sJob (job1 8 true)
def z3 : State := sJob (job1 9 true)
def z3f : State := free z3
def sStall : State := (onLane 11 (fun l => { l with stalled := some 0, run := some (run2 9) }) z3f).onM fun m => { m with clk.ticks := 77 }
def z4 : State := sBusy 9 false
def z4b : State := sBusy 70 false
def z4c : State := sBusy 128 true
def sSub (reg : Nat) : State := w pgCmp CMP_SW_SRC.REGION reg 0 (w pgCmp CMP_SW_LEN.LEN 40 0 (w pgCmp CMP_SW_DST.REGION 9 0 z1))
def z5 : State := sSub 9
def z6 : State := sSub 8
def sSwitch : State := onLane 11 (fun l => { l with switching := true }) up
def sNoSpare : State := w pgCmp CMP_SPARES.SPARE_8 0 0 (w pgCmp CMP_SPARES.SPARE_25 0 0 sSwitch)
def dj (reg : Nat) (st : Bool) : DJob := ⟨reg, 0, 10, 9, 4096, 20, 0, false, 0, 4, st, 3⟩
def drun (st : Bool) : DRun := ⟨dj 9 st, [1], [3, 4, 5], 3, 0, true, 0, 0, false, 0, 0⟩
def drun2 (st : Bool) : DRun := ⟨dj 9 st, [1], [3, 4, 5], 1, 0, true, 0, 0, false, 0, 0⟩
def sDj (reg : Nat) : State := (got (mem9 up) 24 49 (.djob 3 (dj reg true))).onM fun m => { m with clk.ticks := 77 }
def sDbusy (st : Bool) : State := onDl 3 (fun l => { l with run := some (drun st) }) (sDj 9)
def y1 : State := sDbusy true
def y2 : State := sDj 8
def y3 : State := sDj 9
def y4 : State := free y3
def y5 : State := free (onDl 3 (fun l => { l with run := some (drun2 true), suspended := true }) (sDj 9))
def y6 : State := sDbusy false
def sDsub (reg : Nat) : State := w pgDcm DCM_SW_SRC.REGION reg 0 (w pgDcm DCM_SW_SRC_LEN.LEN 40 0 (w pgDcm DCM_SW_OUT_LEN.LEN 9 0 (w pgDcm DCM_SW_DST.REGION 9 0 (sDbusy true))))
def y7 : State := sDsub 9
def y8 : State := sDsub 8

/-- The clauses of Compression have states that meet their hypotheses. -/
theorem test_witness_Compression_1 :
    (z1.m.jobIslands 11 = [46]) ∧ (z1.m.arrival 24 46 = some (Body.job 11 (job1 9 true))) ∧ ((z1.m.lane 11).failed = false) ∧ (z1.m.jobRefusal 11 (job1 9 true) = none) ∧ ((z1.m.lane 11).run.isSome = true) ∧
    (z2.m.jobIslands 11 = [46]) ∧ (z2.m.arrival 24 46 = some (Body.job 11 (job1 8 true))) ∧ ((z2.m.lane 11).failed = false) ∧ (z2.m.jobRefusal 11 (job1 8 true) = some 2) ∧
    (z3.m.jobIslands 11 = [46]) ∧ (z3.m.arrival 24 46 = some (Body.job 11 (job1 9 true))) ∧ ((z3.m.lane 11).failed = false) ∧ (z3.m.jobRefusal 11 (job1 9 true) = none) ∧ ((z3.m.lane 11).run = none) ∧ ((z3.m.lane 11).queue = []) ∧ ((z3.m.lane 11).switching = false) ∧ ((job1 9 true).len ≠ 0) ∧
    ((run2 9).job.dst < 64) ∧ ((run2 9).nextOut ≠ 0) ∧ (z3f.m.enforcing = false) := by
  decide +kernel

/-- The clauses of Compression have states that meet their hypotheses. -/
theorem test_witness_Compression_2 :
    ((sStall.m.lane 11).run = some (run2 9)) ∧ ((sStall.m.lane 11).stalled = some 0) ∧ (sStall.m.enforcing = false) ∧ ((run2 9).payload.length - ((run2 9).sent + (run2 9).nextOut) ≤ 16384) ∧
    ((z1.m.lane 11).run = some (run1 9 true)) ∧ ((z1.m.lane 11).stalled = none) ∧ ((z1.m.lane 11).queue = []) ∧ ((run1 9 true).job.len ≤ (run1 9 true).used) ∧ ((run1 9 true).payload.length ≤ (run1 9 true).sent) ∧
    ((z4.m.lane 11).run = some (run1 9 false)) ∧ ((z4.m.lane 11).stalled = none) ∧ ((z4.m.lane 11).queue = []) ∧ ((run1 9 false).job.len ≤ (run1 9 false).used) ∧ ((run1 9 false).payload.length ≤ (run1 9 false).sent) ∧
    ((z4b.m.lane 11).run = some (run1 70 false)) ∧ ((z4b.m.lane 11).stalled = none) ∧ ((z4b.m.lane 11).queue = []) ∧ ((run1 70 false).job.len ≤ (run1 70 false).used) ∧ ((run1 70 false).payload.length ≤ (run1 70 false).sent) := by
  decide +kernel

/-- The clauses of Compression have states that meet their hypotheses. -/
theorem test_witness_Compression_3 :
    ((z4c.m.lane 11).run = some (run1 128 true)) ∧ ((z4c.m.lane 11).stalled = none) ∧ ((z4c.m.lane 11).queue = []) ∧ ((run1 128 true).job.len ≤ (run1 128 true).used) ∧ ((run1 128 true).payload.length ≤ (run1 128 true).sent) ∧
    (z5.arrives Requester.host pgCmp = true) ∧ ((z5.m.lane 11).failed = false) ∧ (z5.m.jobRefusal 11 z5.m.cmpJob = none) ∧ ((z5.m.lane 11).run.isSome = true) ∧
    (z6.arrives Requester.host pgCmp = true) ∧ ((z6.m.lane 11).failed = false) ∧ (z6.m.jobRefusal 11 z6.m.cmpJob = some 2) ∧
    ((sSwitch.m.lane 11).switching = true) ∧ ((sSwitch.m.lane 11).run = none) ∧ ((sSwitch.m.lane 11).failed = false) ∧ ((sSwitch.m.lane 11).queue = []) ∧ (sSwitch.m.laneSpare 11 = some 8) ∧
    ((sNoSpare.m.lane 11).switching = true) ∧ ((sNoSpare.m.lane 11).run = none) ∧ ((sNoSpare.m.lane 11).failed = false) ∧ ((sNoSpare.m.lane 11).queue = []) ∧ (sNoSpare.m.laneSpare 11 = none) := by
  decide +kernel

/-- The clauses of Decompression have states that meet their hypotheses. -/
theorem test_witness_Decompression_1 :
    (y1.m.arrival 24 49 = some (Body.djob 3 (dj 9 true))) ∧ ((y1.m.dlane 3).failed = false) ∧ (y1.m.djobRefusal 3 (dj 9 true) = none) ∧ ((y1.m.dlane 3).run.isSome = true) ∧
    (y2.m.arrival 24 49 = some (Body.djob 3 (dj 8 true))) ∧ ((y2.m.dlane 3).failed = false) ∧ (y2.m.djobRefusal 3 (dj 8 true) = some 2) ∧
    (y3.m.arrival 24 49 = some (Body.djob 3 (dj 9 true))) ∧ ((y3.m.dlane 3).failed = false) ∧ (y3.m.djobRefusal 3 (dj 9 true) = none) ∧ ((y3.m.dlane 3).run = none) ∧ ((y3.m.dlane 3).queue = []) ∧ ((dj 9 true).len ≠ 0) ∧ ((dj 9 true).outLen ≠ 0) ∧
    (y4.m.enforcing = false) ∧ (nextPiece (drun2 true).job.dstOfs (drun2 true).sent (drun2 true).output.length ≠ 0) ∧ ((drun2 true).sent + nextPiece (drun2 true).job.dstOfs (drun2 true).sent (drun2 true).output.length ≤ 4 * (y4.m.clk.ticks - (drun2 true).since)) ∧
    ((y5.m.dlane 3).run = some (drun2 true)) ∧ ((y5.m.dlane 3).suspended = true) ∧ (y5.m.enforcing = false) := by
  decide +kernel

/-- The clauses of Decompression have states that meet their hypotheses. -/
theorem test_witness_Decompression_2 :
    ((y1.m.dlane 3).run = some (drun true)) ∧ ((y1.m.dlane 3).suspended = false) ∧ ((y1.m.dlane 3).queue = []) ∧ ((drun true).ended = true) ∧ ((drun true).output.length ≤ (drun true).sent) ∧
    ((y6.m.dlane 3).run = some (drun false)) ∧ ((y6.m.dlane 3).suspended = false) ∧ ((y6.m.dlane 3).queue = []) ∧ ((drun false).ended = true) ∧ ((drun false).output.length ≤ (drun false).sent) ∧
    (y7.arrives Requester.host pgDcm = true) ∧ ((y7.m.dlane 3).failed = false) ∧ (y7.m.djobRefusal 3 y7.m.dcmJob = none) ∧ ((y7.m.dlane 3).run.isSome = true) ∧
    (y8.arrives Requester.host pgDcm = true) ∧ ((y8.m.dlane 3).failed = false) ∧ (y8.m.djobRefusal 3 y8.m.dcmJob = some 2) := by
  decide +kernel

end T7

namespace T8

def onPt (n : Nat) (f : PortSt → PortSt) (s : State) : State := s.onM fun m => m.setPt n (f (m.pt n))
def onSm (n : Nat) (f : StreamSt → StreamSt) (s : State) : State := s.onM fun m => m.setSm n (f (m.sm n))
def mem9 (s : State) : State := wl pgSys SYS_REG_SIZE.SIZE 4 9 (wl pgSys SYS_REG_CTRL.STACKS 5 9 (wl pgSys SYS_REG_CTRL.MAPPED 1 9 s))
def mem8 (s : State) : State := wl pgSys SYS_REG_BASE.BASE 8 8 (wl pgSys SYS_REG_SIZE.SIZE 4 8 (wl pgSys SYS_REG_CTRL.STACKS 5 8 (wl pgSys SYS_REG_CTRL.MAPPED 1 8 s)))
def en (n : Nat) (s : State) : State := wl (pgNvp n) NVP_CFG.EN 1 0 (wl (pgNvp n) NVP_CFG.MAX_SPEED 4 0 s)
def dst (n v : Nat) (s : State) : State := w (pgNvp n) NVP_DRIVE.STATE v 0 s
def sb : Superblock := ⟨77, 4, 12, 512, 1, []⟩
def ext : Extent := ⟨9, 1, 2, 16640, 512, 4, 2, 0, 3, 1, 0⟩
def sbBytes : List Byte := up.m.superBytes 2 0 sb
def di : DriveInfo := ⟨true, 0, true, 1, true, 1000000000, 0, 8, true, true, [1], [2], [3], [4], 7, 0, 300, sbBytes, []⟩
def fr (slot kind flags : Nat) : Frame := ⟨4, slot, 9, kind, flags, 5, 100, 0, 3, 9, 4096, [1,2,3], 2, 1, none, none⟩
def pl (cmds : Nat) (failed : Bool) : Placed := ⟨fr 3 2 0, 0, 16650, 2, cmds, failed, false⟩
def z0 : State := en 2 up
def z1 : State := dst 2 1 (en 2 up)
def z2 : State := onPt 2 (fun p => { p with queue := [fr 1 2 0], placed := [pl 2 false], info := some di, out := [⟨.flush, .frame 4, 0, 0⟩], todo := [⟨.flush, .volume, 0, 0⟩] }) (dst 2 3 (en 2 up))
def z3 : State := w pgStr STR_RETIRE.PCT 90 0 (dst 2 2 (en 2 up))
def diBad : DriveInfo := { di with mpsMin := 3 }
def z4 : State := (w pgStr STR_RETIRE.PCT 90 0 (w pgStr STR_RETIRE.POLL_S 0 0 (dst 2 3 (en 2 up)))).onM fun m => {m with clk.ticks := 4000}
def oc (c : DriveCmd) (o : CmdOwner) : OutCmd := ⟨c, o, 3, 0⟩
def sPl (c : Nat) (f : Bool) : State := (onPt 2 (fun p => { p with placed := [pl c f], out := [oc (.write 5 [1]) (.frame 4), oc .flush .checkpoint] }) (dst 2 3 (en 2 up)))
def z5 : State := sPl 1 false
def z5b : State := z5.onM fun m => {m with clk.ticks := 10000000009}
def dr (role : Nat) : DriveRec := ⟨[1], [2], [3], [4], role, 0, 7, 2, 100, 5, 0, 77⟩
def led (role : Nat) (s : State) : State := w (pgNvp 2) NVP_DRIVE.LEDGER 0 0 (s.onM fun m => m.setDrec 0 (dr role))
def z6 : State := led 2 (dst 2 3 (en 2 up))
def vol (s : State) : State := (wl pgStr STR_VOL_CFG.MEMBERS 4 0 (wl pgStr STR_VOL_CFG.SPARE_PORT 15 0 (led 1 (onPt 2 (fun p => { p with super0 := some sb, info := some di }) (dst 2 3 (en 2 s)))))).onM fun m => m.wr64 pgStr STR_VOL_ID_LO.ID STR_VOL_ID_HI.ID 77
def mr : MountRead := ⟨[up.m.extentBytes 0 ext, leBytes 64 0], []⟩
def v1 : State := vol up
def v1o : State := w pgStr STR_STATUS.STATE 1 4 v1
def mtd (s : State) : State := w pgStr STR_VOL_STATUS.STATE 2 0 s
def v2 : State := mtd v1
def v3 : State := w pgStr STR_STATUS.STATE 1 4 v2
def v4 : State := dst 5 3 v2
def v4b : State := led 0 (onPt 2 (fun p => { p with super0 := none }) v2)
def vjob (j : VolCmd) (o : CmdOwner) (st : Nat) (s : State) : State := (onPt 2 (fun p => { p with out := [oc (.zeros 1 2) o] }) s).onM fun m => { m with volume.job := some ⟨j, false, false, st⟩ }
def v5 : State := vjob .format .volume 2 v2
def v6 : State := vjob (.adopt 4) .volume 2 (w pgStr STR_VOL_STATUS.RETIRED 0x15 0 v2)
def v7 : State := vjob (.mount (some mr)) .volume 0 v1
def v8 : State := (w pgStr STR_VOL_STATUS.ACTIVE 4 0 v2).onM fun m => { m with clk.ticks := 8000000, volume.table := [ext], volume.changed := [0], volume.extBlocks := 512, volume.ckptAt := 0 }
def v8l : State := wl pgStr STR_VOL_CKPT.MS 1 0 v8
def ck5 : Ckpt := ⟨[2], 5, 3⟩
def v9 : State := (onPt 2 (fun p => { p with out := [oc (.zeros 1 2) .checkpoint] }) v8).onM fun m => { m with volume.ckpt := some ck5 }
def note : RecNote := ⟨2, 9, 1, 4096, none, 6, 2000000⟩
def sRec : State := w pgStr STR_STATUS.STATE 1 3 (wl pgStr STR_CAPTURES.CAPTURES 4 3 (got (mem9 up) 25 24 (.recordReady note)))
def sAsg (kind flags : Nat) : State := onSm 3 (fun x => { x with chunks := [fr 3 kind flags, fr 3 1 0] }) (wl pgStr STR_PORTS.PORTS 255 3 (wl pgStr STR_LANES.LANES 255 3 (w pgStr STR_VOL_STATUS.ACTIVE 4 0 v2)))
def a1 : State := sAsg 2 0
def a2 : State := sAsg 1 1
def a3 : State := wl pgStr STR_CFG.DEST 1 3 a1
def sQ : State := w (pgNvp 2) NVP_NSZE_LO.BLOCKS 1000000000 0 (onPt 2 (fun p => { p with queue := [fr 3 2 0], placed := [pl 1 false] }) (a1.onM fun m => { m with volume.table := [ext], volume.extBlocks := 512 }))
def sQn : State := w (pgNvp 2) NVP_NSZE_LO.BLOCKS 5 0 (onPt 2 (fun p => { p with queue := [fr 3 2 0], placed := [pl 1 false] }) (a1.onM fun m => { m with volume.table := [], volume.extBlocks := 512 }))
def sDn : State := got sQ 39 24 (.frameDone 4)
def sFl : State := got sQ 39 24 (.frameFailed 4)
def sEnd : State := onSm 3 (fun x => { x with ended := true, saved := 3, ending := some 4 }) (w pgStr STR_STATUS.STATE 2 3 up)
def sRd (res : Option (Nat × Nat)) : State := w (pgNvp 2) NVP_DRIVE.STATE 3 0 (wl pgStr STR_RB_STREAM.STREAM_ID 9 0 (wl pgStr STR_RB_CTRL.DST 9 0 (wl pgStr STR_RB_CTRL.SCRATCH 8 0 (wl pgStr STR_RB_SEG_SIZE.SIZE 2 0 (wl pgBud BUD_CTRL.ENFORCE 0 0 ((mem8 (mem9 up)).onM fun m => { m with volume.table := [ext], volume.read := ⟨true, 2, 1, none, true, res⟩ }))))))
def fh : Frame := { fr 3 1 2 with seq := 2, rawLen := 5 }
def fb : List Byte := fh.bytes (crc32c [1,2,3,4,5]) [1,2,3,4,5]
def fhd : FrameHead := (parseFrame fb).getD ⟨0,0,0,0,0,0,0,0⟩
def r1 : State := sRd none
def r2 : State := sRd (some (7,3))

/-- The clauses of Drives have states that meet their hypotheses. -/
theorem test_witness_Drives_1 :
    (VolumeQuiet z0.m) ∧ (z0.m.lv (pgNvp 2) NVP_CFG.EN = 1) ∧ (z0.m.driveState 2 = 0) ∧
    (VolumeQuiet z1.m) ∧ (z1.m.lv (pgNvp 2) NVP_CFG.EN = 1) ∧ (z1.m.driveState 2 < 2) ∧ (2 = 1 ∨ 2 = 2 ∨ 2 = 4) ∧
    (VolumeQuiet z2.m) ∧ (z2.m.lv (pgNvp 2) NVP_CFG.EN = 1) ∧ (z2.m.driveState 2 ≠ 0) ∧
    (VolumeQuiet z3.m) ∧ (z3.m.driveState 2 = 2) ∧ (z3.m.refuses diBad ≠ 0) ∧
    (VolumeQuiet z3.m) ∧ (z3.m.driveState 2 = 2) ∧ (z3.m.refuses di = 0) ∧ (z3.m.ledgerFor di = some (false, 0)) ∧ (di.crit = 0) ∧ (di.pctUsed < z3.m.rd pgStr STR_RETIRE.PCT) := by
  decide +kernel

/-- The clauses of Drives have states that meet their hypotheses. -/
theorem test_witness_Drives_2 :
    (VolumeQuiet z4.m) ∧ (z4.m.driveState 2 = 3 ∨ z4.m.driveState 2 = 5) ∧ ((z4.m.pt 2).polled + z4.m.rd pgStr STR_RETIRE.POLL_S * 2000000000 ≤ z4.m.clk.ticks) ∧ (0 = 0) ∧ (5 < z4.m.rd pgStr STR_RETIRE.PCT) ∧
    (VolumeQuiet z5.m) ∧ (2 ≤ z5.m.driveState 2) ∧ ((z5.m.pt 2).out = [oc (DriveCmd.write 5 [1]) (CmdOwner.frame 4), oc DriveCmd.flush CmdOwner.checkpoint]) ∧ ((oc (DriveCmd.write 5 [1]) (CmdOwner.frame 4)).cmd.opcode = 1) ∧ ((oc (DriveCmd.write 5 [1]) (CmdOwner.frame 4)).owner = CmdOwner.frame 4) ∧ ((z5.m.pt 2).placed = [pl 1 false]) ∧ ((pl 1 false).frame.tag = 4) ∧ ((pl 1 false).cmds = 1) ∧ ((pl 1 false).failed = false) ∧
    (VolumeQuiet z5b.m) ∧ (2 ≤ z5b.m.driveState 2) ∧ (((z5b.m.pt 2).out.any fun c => c.cmd.opcode == 1 && decide (c.since + 10000000000 ≤ z5b.m.clk.ticks)) = true) ∧
    (VolumeQuiet z6.m) ∧ (z6.arrives Requester.mgt (pgNvp 2) = true) ∧ ((z6.m.pt 2).retiring = none) ∧ (z6.m.roleOf 2 = 2) := by
  decide +kernel

/-- The clauses of Drives have states that meet their hypotheses. -/
theorem test_witness_Drives_3 :
    (VolumeQuiet z6.m) ∧ (Requester.host ≠ Requester.mgt) ∧ (z6.arrives Requester.host (pgNvp 2) = true) := by
  decide +kernel

/-- The clauses of VolumeCommands have states that meet their hypotheses. -/
theorem test_witness_VolumeCommands_1 :
    (v1o.arrives Requester.host pgStr = true) ∧ (v1o.m.feature 5 = true) ∧ (VolumeQuiet v1o.m) ∧ (v1o.m.streamOpen = true) ∧
    (v1.arrives Requester.host pgStr = true) ∧ (v1.m.feature 5 = true) ∧ (VolumeQuiet v1.m) ∧ (v1.m.streamOpen = false) ∧ (v1.m.admitted ≠ []) ∧
    (up.arrives Requester.host pgStr = true) ∧ (up.m.feature 5 = true) ∧ (VolumeQuiet up.m) ∧ (up.m.streamOpen = false) ∧ (up.m.admitted = []) ∧ (up.m.ioPending = false) ∧
    (v2.arrives Requester.host pgStr = true) ∧ (v2.m.feature 5 = true) ∧ (VolumeQuiet v2.m) ∧ (v2.m.mounted = true) ∧ (v2.m.streamOpen = false) := by
  decide +kernel

/-- The clauses of VolumeCommands have states that meet their hypotheses. -/
theorem test_witness_VolumeCommands_2 :
    (v3.arrives Requester.host pgStr = true) ∧ (v3.m.feature 5 = true) ∧ (VolumeQuiet v3.m) ∧ (v3.m.mounted = true) ∧ (v3.m.streamOpen = true) ∧
    (v2.arrives Requester.host pgStr = true) ∧ (v2.m.feature 5 = true) ∧ (VolumeQuiet v2.m) ∧ (v2.m.streamOpen = false) ∧ (v2.m.admitted ≠ []) ∧
    (v4.arrives Requester.host pgStr = true) ∧ (v4.m.feature 5 = true) ∧ (VolumeQuiet v4.m) ∧ (v4.m.mounted = true) ∧ (v4.m.driveState 5 = 3) ∧ (v4.m.isMember 5 = false) ∧ (v4.m.newestSuper 5 = none) := by
  decide +kernel

/-- The clauses of VolumeCommands have states that meet their hypotheses. -/
theorem test_witness_VolumeCommands_3 :
    (v4b.arrives Requester.host pgStr = true) ∧ (v4b.m.feature 5 = true) ∧ (VolumeQuiet v4b.m) ∧ (v4b.m.mounted = true) ∧ (v4b.m.driveState 2 = 3) ∧ (v4b.m.isMember 2 = false) ∧ (v4b.m.newestSuper 2 = none) ∧
    (2 ≤ v5.m.driveState 2) ∧ ((v5.m.pt 2).out = [oc (DriveCmd.zeros 1 2) CmdOwner.volume]) ∧ ((oc (DriveCmd.zeros 1 2) CmdOwner.volume).cmd.opcode = 1) ∧ ((oc (DriveCmd.zeros 1 2) CmdOwner.volume).owner = CmdOwner.volume) ∧ ((v5.m.setPt 2       (have __src := v5.m.pt 2;       { info := __src.info, super0 := __src.super0, super1 := __src.super1, queue := __src.queue, payloads := __src.payloads, placed := __src.placed, full := __src.full, retiring := __src.retiring, todo := __src.todo, out := [], polled := __src.polled })).ioPending =   false) ∧ (v5.m.volume.ckpt = none) ∧ (v5.m.volume.job = some { cmd := VolCmd.format, loaded := false, failed := false, state := 2 }) ∧
    (2 ≤ v6.m.driveState 2) ∧ ((v6.m.pt 2).out = [oc (DriveCmd.zeros 1 2) CmdOwner.volume]) ∧ ((oc (DriveCmd.zeros 1 2) CmdOwner.volume).cmd.opcode = 1) ∧ ((oc (DriveCmd.zeros 1 2) CmdOwner.volume).owner = CmdOwner.volume) ∧ ((v6.m.setPt 2       (have __src := v6.m.pt 2;       { info := __src.info, super0 := __src.super0, super1 := __src.super1, queue := __src.queue, payloads := __src.payloads, placed := __src.placed, full := __src.full, retiring := __src.retiring, todo := __src.todo, out := [], polled := __src.polled })).ioPending =   false) ∧ (v6.m.volume.ckpt = none) ∧ (v6.m.volume.job = some { cmd := VolCmd.adopt 4, loaded := false, failed := false, state := 2 }) := by
  decide +kernel

/-- The clauses of VolumeCommands have states that meet their hypotheses. -/
theorem test_witness_VolumeCommands_4 :
    (2 ≤ v7.m.driveState 2) ∧ ((v7.m.pt 2).out = [oc (DriveCmd.zeros 1 2) CmdOwner.volume]) ∧ ((oc (DriveCmd.zeros 1 2) CmdOwner.volume).cmd.opcode = 1) ∧ ((oc (DriveCmd.zeros 1 2) CmdOwner.volume).owner = CmdOwner.volume) ∧ ((v7.m.setPt 2       (have __src := v7.m.pt 2;       { info := __src.info, super0 := __src.super0, super1 := __src.super1, queue := __src.queue, payloads := __src.payloads, placed := __src.placed, full := __src.full, retiring := __src.retiring, todo := __src.todo, out := [], polled := __src.polled })).ioPending =   false) ∧ (v7.m.volume.ckpt = none) ∧ (v7.m.volume.job = some { cmd := VolCmd.mount (some mr), loaded := false, failed := false, state := 0 }) ∧ (List.foldl (fun b n => newer b (v7.m.newestSuper n)) none v7.m.admitted = some sb) ∧
    (v8l.m.volume.ckpt = none) ∧ (v8l.m.volumeUp = true) ∧ (v8l.m.powerFailing = false) ∧ (v8l.m.volumeDrives ≠ []) ∧ (v8l.m.volume.extra = []) ∧ (v8l.m.volume.ckptAt + v8l.m.lv pgStr STR_VOL_CKPT.MS * 2000000 ≤ v8l.m.clk.ticks) := by
  decide +kernel

/-- The clauses of VolumeCommands have states that meet their hypotheses. -/
theorem test_witness_VolumeCommands_5 :
    (2 ≤ v9.m.driveState 2) ∧ ((v9.m.pt 2).out = [oc (DriveCmd.zeros 1 2) CmdOwner.checkpoint]) ∧ ((oc (DriveCmd.zeros 1 2) CmdOwner.checkpoint).cmd.opcode = 1) ∧ ((oc (DriveCmd.zeros 1 2) CmdOwner.checkpoint).owner = CmdOwner.checkpoint) ∧ ((v9.m.setPt 2       (have __src := v9.m.pt 2;       { info := __src.info, super0 := __src.super0, super1 := __src.super1, queue := __src.queue, payloads := __src.payloads, placed := __src.placed, full := __src.full, retiring := __src.retiring, todo := __src.todo, out := [], polled := __src.polled })).ioPending =   false) ∧ (v9.m.volume.job = none) ∧ (v9.m.volume.ckpt = some ck5) ∧ (ck5.phase = 3) ∧ (v9.m.volume.again = false) := by
  decide +kernel

/-- The clauses of Streaming have states that meet their hypotheses. -/
theorem test_witness_Streaming_1 :
    (sRec.m.arrival (24 + 1) 24 = some (Body.recordReady note)) ∧ (sRec.m.streamOfCap note.capture = some 3) ∧
    (a1.m.powerFailing = false) ∧ ((a1.m.sm 3).flying = []) ∧ ((a1.m.sm 3).chunks = [fr 3 2 0, fr 3 1 0]) ∧ (a1.m.lv pgStr STR_CFG.DEST 3 = 0) ∧ (a1.m.portFor 3 (fr 3 2 0).notPort = some 2) ∧ ((fr 3 2 0).kind ≠ 1 ∨ bit (fr 3 2 0).flags 0 = false) ∧
    (a2.m.powerFailing = false) ∧ ((a2.m.sm 3).flying = []) ∧ ((a2.m.sm 3).chunks = [fr 3 1 1, fr 3 1 0]) ∧ (a2.m.lv pgStr STR_CFG.DEST 3 = 0) ∧ (a2.m.portFor 3 (fr 3 1 1).notPort = some 2) ∧ ((fr 3 1 1).kind = 1) ∧ (bit (fr 3 1 1).flags 0 = true) ∧ (a2.m.laneFor 3 (fr 3 1 1).notLane = some 0) ∧
    (a3.m.powerFailing = false) ∧ ((a3.m.sm 3).flying = []) ∧ ((a3.m.sm 3).chunks = [fr 3 2 0, fr 3 1 0]) ∧ (a3.m.lv pgStr STR_CFG.DEST 3 = 1) ∧ ((fr 3 2 0).kind ≠ 1) := by
  decide +kernel

/-- The clauses of Streaming have states that meet their hypotheses. -/
theorem test_witness_Streaming_2 :
    (sQ.m.driveState 2 = 3) ∧ (sQ.m.powerFailing = false) ∧ ((sQ.m.pt 2).queue = [fr 3 2 0]) ∧ ((fr 3 2 0).kind ≠ 1) ∧ (Option.map Prod.fst (sQ.m.extentFor 2 (fr 3 2 0).streamId (((fr 3 2 0).bytes (crc32c (fr 3 2 0).data) (fr 3 2 0).data).length / 4096)) = some 0) ∧
    (sQn.m.driveState 2 = 3) ∧ (sQn.m.powerFailing = false) ∧ ((sQn.m.pt 2).queue = [fr 3 2 0]) ∧ ((fr 3 2 0).kind ≠ 1) ∧ (sQn.m.extentFor 2 (fr 3 2 0).streamId (((fr 3 2 0).bytes (crc32c (fr 3 2 0).data) (fr 3 2 0).data).length / 4096) = none) ∧
    (sDn.m.arrival (37 + 2) 24 = some (Body.frameDone 4)) ∧ ((sDn.m.pt 2).placed = [pl 1 false]) ∧ ((pl 1 false).frame.tag = 4) ∧ (∀ y ∈ ([] : List Placed), y.done = false ∧ y.frame.tag ≠ 4) ∧ ((sDn.m.pt 2).retiring = none) ∧ ((pl 1 false).frame.slot < 16) ∧ ((sDn.m.sm (pl 1 false).frame.slot).ended = false) ∧ ((sDn.m.sm (pl 1 false).frame.slot).ending = none) ∧ (sDn.m.volume.table[(pl 1 false).extent]? = some ext) := by
  decide +kernel

/-- The clauses of Streaming have states that meet their hypotheses. -/
theorem test_witness_Streaming_3 :
    (sFl.m.arrival (37 + 2) 24 = some (Body.frameFailed 4)) ∧ (List.find? (fun x => x.frame.tag == 4) (sFl.m.pt 2).placed = some (pl 1 false)) ∧ ((sFl.m.pt 2).retiring = none) ∧ (sFl.m.volume.table[(pl 1 false).extent]? = some ext) ∧ (∀ y ∈ (sFl.m.pt 2).placed, y.frame.slot < 16) ∧
    ((sEnd.m.sm 3).ended = true) ∧ ((sEnd.m.sm 3).saved = 3) := by
  decide +kernel

/-- The clauses of Readback have states that meet their hypotheses. -/
theorem test_witness_Readback :
    (r1.m.volume.read.running = true) ∧ (r1.m.volume.read.waiting = none) ∧ (r1.m.volume.read.result = none) ∧ (r1.m.enforcing = false) ∧ (r1.m.holdsSeq r1.m.volume.read.seq = true) ∧ (parseFrame (List.take 32 fb ++ [1, 2, 3, 4, 5] ++ List.drop 37 fb) = some fhd) ∧ (fhd.payload (List.take 32 fb ++ [1, 2, 3, 4, 5] ++ List.drop 37 fb) = some [1, 2, 3, 4, 5]) ∧ (fhd.seq = r1.m.volume.read.seq) ∧ (fhd.stream = r1.m.lv pgStr STR_RB_STREAM.STREAM_ID) ∧ (fhd.kind = 1) ∧ (r1.m.volume.read.first = true → bit fhd.flags 1 = true) ∧ (bit fhd.flags 0 = false) ∧ (bit fhd.flags 2 = false) ∧ (fhd.recOfs * 4096 + fhd.rawLen ≤ r1.m.lv pgStr STR_RB_SEG_SIZE.SIZE * 4096) ∧
    (r1.m.volume.read.running = true) ∧ (r1.m.volume.read.waiting = none) ∧ (r1.m.volume.read.result = none) ∧ (r1.m.readFault (Option.map (fun x => x ++ [] ++ []) (some [1])) true = some 2) ∧
    (r2.m.volume.read.running = true) ∧ (r2.m.volume.read.waiting = none) ∧ (r2.m.volume.read.result = some (7, 3)) := by
  decide +kernel

end T8

namespace T9

def sA (c : Nat) : State := coreOf c up
def sB (c : Nat) : State := onCr c (fun k => { k with load := some (0, 99, false), aov := some false, wrote := none, after := some (.jump 0x80) }) (sA c)
def sC (c : Nat) : State := onCr c (fun k => { (k.setIn true 0 31).setIn true 48 0x500 with bank := true, load := some (1, 98, false) }) (sA c)
def w0 : State := wd 3 (wordR 1 4 1 2 0 true) (sA 3)
def w1 : State := wd 3 (wordR 2 0 1 3 0 true) (sB 3)
def w2 : State := wd 3 (wordI 3 0 1 0x1FFFF false) (sC 3)
def w3 : State := wd 3 (wordShift 0 1 1 (.reg 4) true) (sC 3)
def w4 : State := wd 3 (wordShift 0 1 1 (.imm 31) false) (sB 3)
def w5 : State := wd 3 (wordR 8 1 2 0 0 false) (sB 3)
def w6 : State := wd 3 (wordR 8 0 2 0 0 true) (sB 3)
def w7 : State := wd 3 (wordR 9 0 2 0 0 true) (sB 3)
def w8 : State := wd 3 (wordR 9 4 0 0 0 false) (sA 3)
def w9 : State := wd 3 (wordR 0xD 4 2 2 0 true) (sC 3)
def w10 : State := wd 3 (wordR 0xD 4 2 2 0 false) (sC 3)
def w11 : State := wd 3 (wordA 0x18 0 4 0 0 false) (sC 3)
def w12 : State := wd 3 (wordA 0x18 1 4 0 48 true) (sB 3)
def w13 : State := wd 3 (wordA 0x18 1 4 0 3 true) (sB 3)
def w14 : State := wd 3 (wordR 0xE 4 2 1 0) (sB 3)
def w15 : State := wd 3 (wordR 0xE 4 1 1 0) (sC 3)
def w16 : State := wd 3 (wordR 4 4 1 3 0) (sB 3)
def w17 : State := wd 3 (wordR 5 0 1 3 0) (sB 3)
def w18 : State := wd 3 (wordR 6 0 1 3 0) (sC 3)
def w19 : State := wd 3 (wordShift 1 0 1 (.imm 3)) (sC 3)
def w20 : State := wd 3 (wordShift 2 0 2 (.reg 4)) (sC 3)
def w21 : State := wd 3 (wordR 0xA 0 2 3 0) (sB 3)
def w22 : State := wd 3 (wordR 0xB 0 2 3 0) (sB 3)
def w23 : State := wd 3 (wordR 0xC 0 3 3 0) (sA 3)
def w24 : State := wd 3 (wordI 0x10 0 3 0xF00F) (sA 3)
def w25 : State := wd 3 (wordI 0x0F 0 0 0xF00F) (sB 3)
def w26 : State := wd 3 (wordOp 0 0) (sB 3)
def w27 : State := wd 3 (wordX 51 3) (sB 3)
def w28 : State := wd 17 (wordX 50 52) (sC 17)
def w29 : State := wd 3 (wordX 20 50) (sC 3)
def w30 : State := wd 3 (wordX 7 48) (sC 3)
def w31 : State := wd 3 (wordX 48 3) (sC 3)
def w32 : State := wd 17 (wordX 48 3) (sB 17)
def w33 : State := wd 3 (wordX 48 0) (sB 3)
def w34 : State := wd 17 (wordR 0x1C 0 4 0 0) (sB 17)
def w35 : State := wd 17 (wordR 0x1D 0 4 0 0) (sB 17)
def w36 : State := wd 17 (wordR 0x1E 0 1 0 0) (sB 17)
def w37 : State := wd 17 (wordR 0x1E 0 4 0 1) (sB 17)
def w38 : State := wd 3 (wordA 0x14 0 1 2 0 true) (sB 3)
def w39 : State := wd 3 (wordA 0x14 3 1 1 0 false) (sC 3)
def w40 : State := wd 3 (wordA 0x14 3 1 1 0 true) (sC 3)
def w41 : State := wd 3 (wordA 0x15 0 1 2 0 true) (sC 3)
def w42 : State := wd 3 (wordAccadd 1 1 false) (sA 3)
def w43 : State := wd 3 (wordAccadd 3 3 true) (sA 3)
def w44 : State := wd 3 (wordA 0x16 3 1 2 0 true) (sA 3)
def sV (c : Nat) : State := onCr c (fun k => k.setIn false 48 0x2000) (sB c)
def w45 : State := wd 3 (wordA 0x14 3 1 1 0 false) (sV 3)
def w46 : State := wd 3 (wordA 0x15 3 1 2 0 false) (sV 3)
def w47 : State := wd 3 (wordAccadd 3 3 false) (sV 3)
def w48 : State := wd 3 (wordA 0x19 0 5 0 0) (sV 3)
def w49 : State := wd 3 (wordA 0x19 1 5 0 (2*2^13)) (sV 3)
def w50 : State := wd 3 (wordA 0x19 1 0 0 (1*2^13)) (sV 3)
def w51 : State := wd 3 (wordA 0x19 1 1 0 (2^12)) (sV 3)
def w52 : State := wd 3 (wordA 0x19 1 1 0 (2^13+2^12)) (sC 3)
def w53 : State := wd 3 (wordA 0x19 1 1 0 (2*2^13+2^12)) (sC 3)
def sF : State := onCr 3 (fun k => { k.poke 0x100 [1,2,3,0xF4] with dmem := (k.poke 0x100 [1,2,3,0xF4]).dmem ++ [(0x204, 7)]}) (sB 3)
def w54 : State := wd 3 (wordF 0 0 1 false true false true) sF
def w55 : State := wd 3 (wordF 0 0 1 true true true false) sF
def w56 : State := wd 3 (wordF 0 1 1 false true false true) sF
def sFV : State := onCr 3 (fun k => { (k.setIn false 48 0x2000).poke 0x100 [0,0,0,0x40] with dmem := ((k.poke 0x100 [0,0,0,0x40]).poke 0x204 [7]).dmem, seen := [(3, 2^79-1)], acc := [(3, 2^79-1)]}) (sB 3)
def w57 : State := wd 3 (wordF 3 0 1 true true false false) sFV
def sV2 : State := onCr 3 (fun k => (k.setIn false 48 0x2800)) (sB 3)
def w58 : State := wd 3 (wordA 0x14 3 1 1 0 false) sV2

/-- The clauses of CoreArithmetic have states that meet their hypotheses. -/
theorem test_witness_CoreArithmetic_1 :
    (w0.ready 3 = true) ∧ (Store.get 0 (w0.m.cr 3).imem (w0.m.cr 3).pc = wordR 1 4 1 2 0 true) ∧
    (w1.ready 3 = true) ∧ (Store.get 0 (w1.m.cr 3).imem (w1.m.cr 3).pc = wordR 2 0 1 3 0 true) ∧
    (w2.ready 3 = true) ∧ (Store.get 0 (w2.m.cr 3).imem (w2.m.cr 3).pc = wordI 3 0 1 (131071)) ∧
    (w3.ready 3 = true) ∧ (Store.get 0 (w3.m.cr 3).imem (w3.m.cr 3).pc = wordShift 0 1 1 (Amount.reg 4) true) ∧
    (w4.ready 3 = true) ∧ (Store.get 0 (w4.m.cr 3).imem (w4.m.cr 3).pc = wordShift 0 1 1 (Amount.imm 31)) ∧
    (w5.ready 3 = true) ∧ (Store.get 0 (w5.m.cr 3).imem (w5.m.cr 3).pc = wordR 8 1 2 0 0) ∧
    (w6.ready 3 = true) ∧ (Store.get 0 (w6.m.cr 3).imem (w6.m.cr 3).pc = wordR 8 0 2 0 0 true) ∧
    (w7.ready 3 = true) ∧ (Store.get 0 (w7.m.cr 3).imem (w7.m.cr 3).pc = wordR 9 0 2 0 0 true) ∧
    (w8.ready 3 = true) ∧ (Store.get 0 (w8.m.cr 3).imem (w8.m.cr 3).pc = wordR 9 4 0 0 0) ∧
    (w9.ready 3 = true) ∧ (Store.get 0 (w9.m.cr 3).imem (w9.m.cr 3).pc = wordR 13 4 2 2 0 true) ∧
    (w10.ready 3 = true) ∧ (Store.get 0 (w10.m.cr 3).imem (w10.m.cr 3).pc = wordR 13 4 2 2 0) := by
  decide +kernel

/-- The clauses of CoreArithmetic have states that meet their hypotheses. -/
theorem test_witness_CoreArithmetic_2 :
    (w11.ready 3 = true) ∧ (Store.get 0 (w11.m.cr 3).imem (w11.m.cr 3).pc = wordA 24 0 4 0 0) ∧
    (w12.ready 3 = true) ∧ (Store.get 0 (w12.m.cr 3).imem (w12.m.cr 3).pc = wordA 24 1 4 0 48 true) ∧
    (w13.ready 3 = true) ∧ (Store.get 0 (w13.m.cr 3).imem (w13.m.cr 3).pc = wordA 24 1 4 0 3 true) ∧
    (w14.ready 3 = true) ∧ (Store.get 0 (w14.m.cr 3).imem (w14.m.cr 3).pc = wordR 14 4 2 1 0) ∧
    (w15.ready 3 = true) ∧ (Store.get 0 (w15.m.cr 3).imem (w15.m.cr 3).pc = wordR 14 4 1 1 0) := by
  decide +kernel

/-- The clauses of CoreLogic have states that meet their hypotheses. -/
theorem test_witness_CoreLogic_1 :
    (w16.ready 3 = true) ∧ (Store.get 0 (w16.m.cr 3).imem (w16.m.cr 3).pc = wordR 4 4 1 3 0) ∧
    (w17.ready 3 = true) ∧ (Store.get 0 (w17.m.cr 3).imem (w17.m.cr 3).pc = wordR 5 0 1 3 0) ∧
    (w18.ready 3 = true) ∧ (Store.get 0 (w18.m.cr 3).imem (w18.m.cr 3).pc = wordR 6 0 1 3 0) ∧
    (w19.ready 3 = true) ∧ (Store.get 0 (w19.m.cr 3).imem (w19.m.cr 3).pc = wordShift 1 0 1 (Amount.imm 3)) ∧
    (w20.ready 3 = true) ∧ (Store.get 0 (w20.m.cr 3).imem (w20.m.cr 3).pc = wordShift 2 0 2 (Amount.reg 4)) ∧
    (w21.ready 3 = true) ∧ (Store.get 0 (w21.m.cr 3).imem (w21.m.cr 3).pc = wordR 10 0 2 3 0) ∧
    (w22.ready 3 = true) ∧ (Store.get 0 (w22.m.cr 3).imem (w22.m.cr 3).pc = wordR 11 0 2 3 0) ∧
    (w23.ready 3 = true) ∧ (Store.get 0 (w23.m.cr 3).imem (w23.m.cr 3).pc = wordR 12 0 3 3 0) ∧
    (w24.ready 3 = true) ∧ (Store.get 0 (w24.m.cr 3).imem (w24.m.cr 3).pc = wordI 16 0 3 (61455)) ∧
    (w25.ready 3 = true) ∧ (Store.get 0 (w25.m.cr 3).imem (w25.m.cr 3).pc = wordI 15 0 0 (61455)) ∧
    (w26.ready 3 = true) ∧ (Store.get 0 (w26.m.cr 3).imem (w26.m.cr 3).pc = wordOp 0 0) := by
  decide +kernel

/-- The clauses of CoreLogic have states that meet their hypotheses. -/
theorem test_witness_CoreLogic_2 :
    (51 = 50 → 16 ≤ 3) ∧ (w27.ready 3 = true) ∧ (Store.get 0 (w27.m.cr 3).imem (w27.m.cr 3).pc = wordX 51 3) ∧
    (50 = 50 → 16 ≤ 17) ∧ (w28.ready 17 = true) ∧ (Store.get 0 (w28.m.cr 17).imem (w28.m.cr 17).pc = wordX 50 52) ∧
    (20 = 50 → 16 ≤ 3) ∧ (w29.ready 3 = true) ∧ (Store.get 0 (w29.m.cr 3).imem (w29.m.cr 3).pc = wordX 20 50) ∧
    (7 = 50 → 16 ≤ 3) ∧ (w30.ready 3 = true) ∧ (Store.get 0 (w30.m.cr 3).imem (w30.m.cr 3).pc = wordX 7 48) ∧
    (w31.ready 3 = true) ∧ (Store.get 0 (w31.m.cr 3).imem (w31.m.cr 3).pc = wordX 48 3) ∧
    (w32.ready 17 = true) ∧ (Store.get 0 (w32.m.cr 17).imem (w32.m.cr 17).pc = wordX 48 3) ∧
    (w33.ready 3 = true) ∧ (Store.get 0 (w33.m.cr 3).imem (w33.m.cr 3).pc = wordX 48 0) ∧
    (w34.ready 17 = true) ∧ (Store.get 0 (w34.m.cr 17).imem (w34.m.cr 17).pc = wordR 28 0 4 0 0) ∧
    (w35.ready 17 = true) ∧ (Store.get 0 (w35.m.cr 17).imem (w35.m.cr 17).pc = wordR 29 0 4 0 0) := by
  decide +kernel

/-- The clauses of CoreLogic have states that meet their hypotheses. -/
theorem test_witness_CoreLogic_3 :
    (w36.ready 17 = true) ∧ (Store.get 0 (w36.m.cr 17).imem (w36.m.cr 17).pc = wordR 30 0 1 0 0) ∧
    (w37.ready 17 = true) ∧ (Store.get 0 (w37.m.cr 17).imem (w37.m.cr 17).pc = wordR 30 0 4 0 1) := by
  decide +kernel

/-- The clauses of CoreAccumulators have states that meet their hypotheses. -/
theorem test_witness_CoreAccumulators_1 :
    (fits80 ((w38.m.cr 3).accIn 0 + (w38.m.cr 3).sd 1 * (w38.m.cr 3).sd 2) = true ∨ true = true ∨ bit (w38.m.cr 3).sr 13 = false) ∧ (w38.ready 3 = true) ∧ (Store.get 0 (w38.m.cr 3).imem (w38.m.cr 3).pc = wordA 20 0 1 2 0 true) ∧
    (fits80 ((w39.m.cr 3).accIn 3 + (w39.m.cr 3).sd 1 * (w39.m.cr 3).sd 1) = true ∨ false = true ∨ bit (w39.m.cr 3).sr 13 = false) ∧ (w39.ready 3 = true) ∧ (Store.get 0 (w39.m.cr 3).imem (w39.m.cr 3).pc = wordA 20 3 1 1 0) ∧
    (fits80 ((w40.m.cr 3).accIn 3 + (w40.m.cr 3).sd 1 * (w40.m.cr 3).sd 1) = true ∨ true = true ∨ bit (w40.m.cr 3).sr 13 = false) ∧ (w40.ready 3 = true) ∧ (Store.get 0 (w40.m.cr 3).imem (w40.m.cr 3).pc = wordA 20 3 1 1 0 true) ∧
    (fits80 ((w41.m.cr 3).accIn 0 - (w41.m.cr 3).sd 1 * (w41.m.cr 3).sd 2) = true ∨ true = true ∨ bit (w41.m.cr 3).sr 13 = false) ∧ (w41.ready 3 = true) ∧ (Store.get 0 (w41.m.cr 3).imem (w41.m.cr 3).pc = wordA 21 0 1 2 0 true) ∧
    (fits80 ((w42.m.cr 3).accIn 1 + toSigned 80 ((w42.m.cr 3).accSeen 1)) = true ∨ false = true ∨ bit (w42.m.cr 3).sr 13 = false) ∧ (w42.ready 3 = true) ∧ (Store.get 0 (w42.m.cr 3).imem (w42.m.cr 3).pc = wordAccadd 1 1 false) ∧
    (fits80 ((w43.m.cr 3).accIn 3 + toSigned 80 ((w43.m.cr 3).accSeen 3)) = true ∨ true = true ∨ bit (w43.m.cr 3).sr 13 = false) ∧ (w43.ready 3 = true) ∧ (Store.get 0 (w43.m.cr 3).imem (w43.m.cr 3).pc = wordAccadd 3 3 true) ∧
    (fits80 ((w44.m.cr 3).sd 1 * (w44.m.cr 3).sd 2) = true ∨ true = true ∨ bit (w44.m.cr 3).sr 13 = false) ∧ (w44.ready 3 = true) ∧ (Store.get 0 (w44.m.cr 3).imem (w44.m.cr 3).pc = wordA 22 3 1 2 0 true) := by
  decide +kernel

/-- The clauses of CoreAccumulators have states that meet their hypotheses. -/
theorem test_witness_CoreAccumulators_2 :
    (fits80 ((w45.m.cr 3).accIn 3 + (w45.m.cr 3).sd 1 * (w45.m.cr 3).sd 1) = false) ∧ (bit (w45.m.cr 3).sr 13 = true) ∧ (w45.ready 3 = true) ∧ (Store.get 0 (w45.m.cr 3).imem (w45.m.cr 3).pc = wordA 20 3 1 1 0) ∧
    (fits80 ((w46.m.cr 3).accIn 3 - (w46.m.cr 3).sd 1 * (w46.m.cr 3).sd 2) = false) ∧ (bit (w46.m.cr 3).sr 13 = true) ∧ (w46.ready 3 = true) ∧ (Store.get 0 (w46.m.cr 3).imem (w46.m.cr 3).pc = wordA 21 3 1 2 0) ∧
    (fits80 ((w47.m.cr 3).accIn 3 + toSigned 80 ((w47.m.cr 3).accSeen 3)) = false) ∧ (bit (w47.m.cr 3).sr 13 = true) ∧ (w47.ready 3 = true) ∧ (Store.get 0 (w47.m.cr 3).imem (w47.m.cr 3).pc = wordAccadd 3 3 false) ∧
    (w48.ready 3 = true) ∧ (Store.get 0 (w48.m.cr 3).imem (w48.m.cr 3).pc = wordA 25 0 5 0 (0 * 2 ^ 13)) ∧
    (w49.ready 3 = true) ∧ (Store.get 0 (w49.m.cr 3).imem (w49.m.cr 3).pc = wordA 25 1 5 0 (2 * 2 ^ 13)) ∧
    (w50.ready 3 = true) ∧ (Store.get 0 (w50.m.cr 3).imem (w50.m.cr 3).pc = wordA 25 1 0 0 (1 * 2 ^ 13)) ∧
    (w51.ready 3 = true) ∧ (Store.get 0 (w51.m.cr 3).imem (w51.m.cr 3).pc = wordA 25 1 1 0 (0 * 2 ^ 13 + 2 ^ 12)) ∧
    (w52.ready 3 = true) ∧ (Store.get 0 (w52.m.cr 3).imem (w52.m.cr 3).pc = wordA 25 1 1 0 (1 * 2 ^ 13 + 2 ^ 12)) := by
  decide +kernel

/-- The clauses of CoreAccumulators have states that meet their hypotheses. -/
theorem test_witness_CoreAccumulators_3 :
    (w53.ready 3 = true) ∧ (Store.get 0 (w53.m.cr 3).imem (w53.m.cr 3).pc = wordA 25 1 1 0 (2 * 2 ^ 13 + 2 ^ 12)) ∧
    ((w54.m.cr 3).reg (aReg 0) % 4 = 0) ∧ ((w54.m.cr 3).reg (aReg 1) % 4 = 0) ∧ ((w54.m.cr 3).reg (aReg 0) + 8 ≤ dmemBytes 3) ∧ ((w54.m.cr 3).reg (aReg 1) < dmemBytes 3) ∧ (w54.m.armed 1 (w54.m.coreUnit 3) = 0) ∧ (fits80 ((if false = true then 0 else (w54.m.cr 3).accIn 0) + toSigned 32 ((w54.m.cr 3).peek ((w54.m.cr 3).reg (aReg 0)) 4) * toSigned 32 ((w54.m.cr 3).peek ((w54.m.cr 3).reg (aReg 1)) 4)) = true ∨ true = true ∨ bit (w54.m.cr 3).sr 13 = false) ∧ (w54.ready 3 = true) ∧ (Store.get 0 (w54.m.cr 3).imem (w54.m.cr 3).pc = wordF 0 0 1 false true false true) ∧
    ((w55.m.cr 3).reg (aReg 0) % 4 = 0) ∧ ((w55.m.cr 3).reg (aReg 1) % 4 = 0) ∧ ((w55.m.cr 3).reg (aReg 0) + 8 ≤ dmemBytes 3) ∧ ((w55.m.cr 3).reg (aReg 1) < dmemBytes 3) ∧ (w55.m.armed 1 (w55.m.coreUnit 3) = 0) ∧ (fits80 ((if true = true then 0 else (w55.m.cr 3).accIn 0) + toSigned 32 ((w55.m.cr 3).peek ((w55.m.cr 3).reg (aReg 0)) 4) * toSigned 32 ((w55.m.cr 3).peek ((w55.m.cr 3).reg (aReg 1)) 4)) = true ∨ false = true ∨ bit (w55.m.cr 3).sr 13 = false) ∧ (w55.ready 3 = true) ∧ (Store.get 0 (w55.m.cr 3).imem (w55.m.cr 3).pc = wordF 0 0 1 true true true false) := by
  decide +kernel

/-- The clauses of CoreAccumulators have states that meet their hypotheses. -/
theorem test_witness_CoreAccumulators_4 :
    ((w56.m.cr 3).reg (aReg 1) % 4 = 0) ∧ ((w56.m.cr 3).reg (aReg 1) % 4 = 0) ∧ ((w56.m.cr 3).reg (aReg 1) + 8 ≤ dmemBytes 3) ∧ ((w56.m.cr 3).reg (aReg 1) < dmemBytes 3) ∧ (w56.m.armed 1 (w56.m.coreUnit 3) = 0) ∧ (fits80 ((if false = true then 0 else (w56.m.cr 3).accIn 0) + toSigned 32 ((w56.m.cr 3).peek ((w56.m.cr 3).reg (aReg 1)) 4) * toSigned 32 ((w56.m.cr 3).peek ((w56.m.cr 3).reg (aReg 1)) 4)) = true ∨ true = true ∨ bit (w56.m.cr 3).sr 13 = false) ∧ (w56.ready 3 = true) ∧ (Store.get 0 (w56.m.cr 3).imem (w56.m.cr 3).pc = wordF 0 1 1 false true false true) ∧
    (w57.m.armed 1 (w57.m.coreUnit 3) = 0) ∧ ((w57.m.cr 3).reg (aReg 0) % 4 = 0) ∧ ((w57.m.cr 3).reg (aReg 1) % 4 = 0) ∧ ((w57.m.cr 3).reg (aReg 0) + 8 ≤ dmemBytes 3) ∧ ((w57.m.cr 3).reg (aReg 1) < dmemBytes 3) ∧ (fits80 ((w57.m.cr 3).accIn 3 + toSigned 32 ((w57.m.cr 3).peek ((w57.m.cr 3).reg (aReg 0)) 4) * toSigned 32 ((w57.m.cr 3).peek ((w57.m.cr 3).reg (aReg 1)) 4)) = false) ∧ (bit (w57.m.cr 3).sr 13 = true) ∧ (w57.ready 3 = true) ∧ (Store.get 0 (w57.m.cr 3).imem (w57.m.cr 3).pc = wordF 3 0 1 true true false false) ∧
    (fits80 ((w58.m.cr 3).accIn 3 + (w58.m.cr 3).sd 1 * (w58.m.cr 3).sd 1) = false) ∧ (bit (w58.m.cr 3).sr 13 = true) ∧ (w58.ready 3 = true) ∧ (Store.get 0 (w58.m.cr 3).imem (w58.m.cr 3).pc = wordA 20 3 1 1 0) := by
  decide +kernel

end T9

namespace T10

def mem (k : CoreSt) : CoreSt := { k.poke 0x100 [1,2,0x83,0xF4] with dmem := (k.poke 0x100 [1,2,0x83,0xF4]).dmem ++ [(0x204, 7)]}
def sA (c : Nat) : State := onCr c mem (coreOf c up)
def sB (c : Nat) : State := onCr c (fun k => { k with load := some (0, 99, false), aov := some false, after := some (.jump 0x80) }) (sA c)
def sC (c : Nat) : State := onCr c (fun k => { ((k.setIn true 0 31).setIn true 48 0x4500).setIn true 16 0x102 with bank := true, load := some (1, 98, false) }) (sA c)
def w0 : State := wd 3 (wordM 32 0 ⟨1, 0, 0⟩) (sB 3)
def w1 : State := wd 3 (wordM 33 0 ⟨1, 0, 0⟩) (sC 3)
def w2 : State := wd 3 (wordM 34 0 ⟨0, 0, -2⟩) (sC 3)
def w3 : State := wd 3 (wordM 32 0 ⟨2, 1, 0⟩) (sA 3)
def w4 : State := wd 17 (wordM 36 0 ⟨2, 1, 0⟩) (sA 17)
def w5 : State := wd 17 (wordM 36 0 ⟨3, 1, 0⟩) (sC 17)
def w6 : State := wd 17 (wordM 37 4 ⟨3, 0, 0⟩) (sC 17)
def w7 : State := wd 17 (wordM 37 3 ⟨0, 0, 4⟩) (sC 17)
def sI (off : Nat) : State := w (pgIo 3) IO_INBOX_WR.OFS 96 0 (wl (pgCore 3) CORE_INBOX_SIZE.SIZE 256 0 (onCr 3 (fun k => { k.setIn false 16 (0x1000000 + off) with latched := 0x58, done := [(1, 2)], recs := [⟨1,2,3,4,none,5,6⟩] }) (sB 3)))
def w8 : State := wd 3 (wordM 32 5 ⟨0,0,0⟩) (sI 0x8C)
def w9 : State := wd 3 (wordM 32 5 ⟨1,0,0⟩) (sI 0x60)
def w10 : State := wd 3 (wordM 32 5 ⟨1,0,0⟩) (sI 0x28)
def rd4 (v : Nat) (s : State) : State := onCr 3 (fun k => k.setIn false 5 v) s
def z1 : State := rd4 64 (sI 4)
def w11 : State := wd 3 (wordM 36 5 ⟨0,0,0⟩) z1
def z2 : State := rd4 112 (sI 4)
def w12 : State := wd 3 (wordM 36 5 ⟨0,0,0⟩) z2
def z3 : State := rd4 1 (sI 0x30)
def w13 : State := wd 3 (wordM 36 5 ⟨0,0,0⟩) z3
def z4 : State := rd4 0xFFFFFFFF (sI 0x40)
def w14 : State := wd 3 (wordM 36 5 ⟨0,0,0⟩) z4
def z5 : State := rd4 0xFFFFFFFF (sI 0x44)
def w15 : State := wd 3 (wordM 36 5 ⟨0,0,0⟩) z5
def z6 : State := rd4 0xFFFFFFFF (sI 0x50)
def w16 : State := wd 3 (wordM 36 5 ⟨0,0,0⟩) z6
def hd (l : List (Nat × Nat)) (s : State) := onCr 3 (fun k => { k with held := l }) s
def z7 : State := hd [(0x48, 7)] (rd4 0xFFFFFFFF (sI 0x48))
def w17 : State := wd 3 (wordM 36 5 ⟨0,0,0⟩) z7
def z8 : State := rd4 0x1FF (sI 0x54)
def w18 : State := wd 3 (wordM 36 5 ⟨0,0,0⟩) z8
def full (s : State) := onCr 3 (fun k => { k with dma := List.replicate 8 ⟨0,0,0,4,true,1⟩ }) s
def z9 : State := full (rd4 0x1FF (sI 0x54))
def w19 : State := wd 3 (wordM 36 5 ⟨0,0,0⟩) z9
def z10 : State := rd4 1 (sI 0x5C)
def w20 : State := wd 3 (wordM 36 5 ⟨0,0,0⟩) z10
def z11 : State := rd4 77 (sI 0x68)
def w21 : State := wd 3 (wordM 36 5 ⟨0,0,0⟩) z11
def z12 : State := rd4 0x18 (sI 0x74)
def w22 : State := wd 3 (wordM 36 5 ⟨0,0,0⟩) z12
def z13 : State := rd4 0xFFF (sI 0x78)
def w23 : State := wd 3 (wordM 36 5 ⟨0,0,0⟩) z13
def z14 : State := rd4 0xFFF (sI 0x7C)
def w24 : State := wd 3 (wordM 36 5 ⟨0,0,0⟩) z14
def z15 : State := rd4 0xFFF (sI 0x80)
def w25 : State := wd 3 (wordM 36 5 ⟨0,0,0⟩) z15
def z16 : State := rd4 0xFFF (sI 0x88)
def w26 : State := wd 3 (wordM 36 5 ⟨0,0,0⟩) z16

/-- The clauses of CoreMemory have states that meet their hypotheses. -/
theorem test_witness_CoreMemory_1 :
    (legalOfs { am := 1, set := 0, ofs := 0 } = true) ∧ ((w0.m.cr 3).address { am := 1, set := 0, ofs := 0 } < dmemBytes 3) ∧ (w0.m.armed 1 (w0.m.coreUnit 3) = 0) ∧ ((w0.m.cr 3).address { am := 1, set := 0, ofs := 0 } % 4 = 0) ∧ (w0.ready 3 = true) ∧ (Store.get 0 (w0.m.cr 3).imem (w0.m.cr 3).pc = wordM 32 0 { am := 1, set := 0, ofs := 0 }) ∧
    (legalOfs { am := 1, set := 0, ofs := 0 } = true) ∧ ((w1.m.cr 3).address { am := 1, set := 0, ofs := 0 } < dmemBytes 3) ∧ (w1.m.armed 1 (w1.m.coreUnit 3) = 0) ∧ ((w1.m.cr 3).address { am := 1, set := 0, ofs := 0 } % 2 = 0) ∧ (w1.ready 3 = true) ∧ (Store.get 0 (w1.m.cr 3).imem (w1.m.cr 3).pc = wordM 33 0 { am := 1, set := 0, ofs := 0 }) ∧
    (legalOfs { am := 0, set := 0, ofs := -2 } = true) ∧ ((w2.m.cr 3).address { am := 0, set := 0, ofs := -2 } < dmemBytes 3) ∧ (w2.m.armed 1 (w2.m.coreUnit 3) = 0) ∧ ((w2.m.cr 3).address { am := 0, set := 0, ofs := -2 } % 2 = 0) ∧ (w2.ready 3 = true) ∧ (Store.get 0 (w2.m.cr 3).imem (w2.m.cr 3).pc = wordM 34 0 { am := 0, set := 0, ofs := -2 }) := by
  decide +kernel

/-- The clauses of CoreMemory have states that meet their hypotheses. -/
theorem test_witness_CoreMemory_2 :
    (legalOfs { am := 2, set := 1, ofs := 0 } = true) ∧ ((w3.m.cr 3).address { am := 2, set := 1, ofs := 0 } < dmemBytes 3) ∧ (w3.m.armed 1 (w3.m.coreUnit 3) = 0) ∧ ((w3.m.cr 3).address { am := 2, set := 1, ofs := 0 } % 4 = 0) ∧ (w3.ready 3 = true) ∧ (Store.get 0 (w3.m.cr 3).imem (w3.m.cr 3).pc = wordM 32 0 { am := 2, set := 1, ofs := 0 }) ∧
    (legalOfs { am := 2, set := 1, ofs := 0 } = true) ∧ ((w4.m.cr 17).address { am := 2, set := 1, ofs := 0 } < dmemBytes 17) ∧ ((w4.m.cr 17).address { am := 2, set := 1, ofs := 0 } % 4 = 0) ∧ (w4.ready 17 = true) ∧ (Store.get 0 (w4.m.cr 17).imem (w4.m.cr 17).pc = wordM 36 0 { am := 2, set := 1, ofs := 0 }) ∧
    (legalOfs { am := 3, set := 1, ofs := 0 } = true) ∧ ((w5.m.cr 17).address { am := 3, set := 1, ofs := 0 } < dmemBytes 17) ∧ ((w5.m.cr 17).address { am := 3, set := 1, ofs := 0 } % 4 = 0) ∧ (w5.ready 17 = true) ∧ (Store.get 0 (w5.m.cr 17).imem (w5.m.cr 17).pc = wordM 36 0 { am := 3, set := 1, ofs := 0 }) ∧
    (legalOfs { am := 3, set := 0, ofs := 0 } = true) ∧ ((w6.m.cr 17).address { am := 3, set := 0, ofs := 0 } < dmemBytes 17) ∧ ((w6.m.cr 17).address { am := 3, set := 0, ofs := 0 } % 2 = 0) ∧ (w6.ready 17 = true) ∧ (Store.get 0 (w6.m.cr 17).imem (w6.m.cr 17).pc = wordM 37 4 { am := 3, set := 0, ofs := 0 }) := by
  decide +kernel

/-- The clauses of CoreMemory have states that meet their hypotheses. -/
theorem test_witness_CoreMemory_3 :
    (legalOfs { am := 0, set := 0, ofs := 4 } = true) ∧ ((w7.m.cr 17).address { am := 0, set := 0, ofs := 4 } < dmemBytes 17) ∧ ((w7.m.cr 17).address { am := 0, set := 0, ofs := 4 } % 2 = 0) ∧ (w7.ready 17 = true) ∧ (Store.get 0 (w7.m.cr 17).imem (w7.m.cr 17).pc = wordM 37 3 { am := 0, set := 0, ofs := 4 }) := by
  decide +kernel

/-- The clauses of CoreIo have states that meet their hypotheses. -/
theorem test_witness_CoreIo_1 :
    (legalOfs { am := 0, set := 0, ofs := 0 } = true) ∧ ((w8.m.cr 3).address { am := 0, set := 0, ofs := 0 } = 16777216 + 140) ∧ (140 % 4 = 0) ∧ (ioLow 140 = false) ∧ ((w8.m.cr 3).high = []) ∧ (w8.ready 3 = true) ∧ (Store.get 0 (w8.m.cr 3).imem (w8.m.cr 3).pc = wordM 32 5 { am := 0, set := 0, ofs := 0 }) ∧
    (legalOfs { am := 1, set := 0, ofs := 0 } = true) ∧ ((w9.m.cr 3).address { am := 1, set := 0, ofs := 0 } = 16777216 + 96) ∧ (ioLow 96 = true) ∧ (w9.ready 3 = true) ∧ (Store.get 0 (w9.m.cr 3).imem (w9.m.cr 3).pc = wordM 32 5 { am := 1, set := 0, ofs := 0 }) ∧
    (legalOfs { am := 1, set := 0, ofs := 0 } = true) ∧ ((w10.m.cr 3).address { am := 1, set := 0, ofs := 0 } = 16777216 + 40) ∧ (ioLow 40 = true) ∧ (w10.ready 3 = true) ∧ (Store.get 0 (w10.m.cr 3).imem (w10.m.cr 3).pc = wordM 32 5 { am := 1, set := 0, ofs := 0 }) ∧
    (legalOfs { am := 0, set := 0, ofs := 0 } = true) ∧ ((w11.m.cr 3).address { am := 0, set := 0, ofs := 0 } = 16777216 + 4) ∧
    (legalOfs { am := 0, set := 0, ofs := 0 } = true) ∧ ((w12.m.cr 3).address { am := 0, set := 0, ofs := 0 } = 16777216 + 4) := by
  decide +kernel

/-- The clauses of CoreIo have states that meet their hypotheses. -/
theorem test_witness_CoreIo_2 :
    (legalOfs { am := 0, set := 0, ofs := 0 } = true) ∧ ((w13.m.cr 3).address { am := 0, set := 0, ofs := 0 } = 16777216 + 48) ∧ (w13.ready 3 = true) ∧ (Store.get 0 (w13.m.cr 3).imem (w13.m.cr 3).pc = wordM 36 5 { am := 0, set := 0, ofs := 0 }) ∧
    (legalOfs { am := 0, set := 0, ofs := 0 } = true) ∧ ((w14.m.cr 3).address { am := 0, set := 0, ofs := 0 } = 16777216 + 64) ∧ (w14.ready 3 = true) ∧ (Store.get 0 (w14.m.cr 3).imem (w14.m.cr 3).pc = wordM 36 5 { am := 0, set := 0, ofs := 0 }) ∧
    (legalOfs { am := 0, set := 0, ofs := 0 } = true) ∧ ((w15.m.cr 3).address { am := 0, set := 0, ofs := 0 } = 16777216 + 68) ∧ (w15.ready 3 = true) ∧ (Store.get 0 (w15.m.cr 3).imem (w15.m.cr 3).pc = wordM 36 5 { am := 0, set := 0, ofs := 0 }) ∧
    (legalOfs { am := 0, set := 0, ofs := 0 } = true) ∧ ((w16.m.cr 3).address { am := 0, set := 0, ofs := 0 } = 16777216 + 80) ∧ (w16.ready 3 = true) ∧ (Store.get 0 (w16.m.cr 3).imem (w16.m.cr 3).pc = wordM 36 5 { am := 0, set := 0, ofs := 0 }) ∧
    (legalOfs { am := 0, set := 0, ofs := 0 } = true) ∧ ((w17.m.cr 3).address { am := 0, set := 0, ofs := 0 } = 16777216 + 72) ∧ ((w17.m.cr 3).held = [(72, 7)]) ∧ (w17.ready 3 = true) ∧ (Store.get 0 (w17.m.cr 3).imem (w17.m.cr 3).pc = wordM 36 5 { am := 0, set := 0, ofs := 0 }) := by
  decide +kernel

/-- The clauses of CoreIo have states that meet their hypotheses. -/
theorem test_witness_CoreIo_3 :
    (legalOfs { am := 0, set := 0, ofs := 0 } = true) ∧ ((w18.m.cr 3).address { am := 0, set := 0, ofs := 0 } = 16777216 + 84) ∧ ((w18.m.cr 3).dma.length < 8) ∧ (w18.ready 3 = true) ∧ (Store.get 0 (w18.m.cr 3).imem (w18.m.cr 3).pc = wordM 36 5 { am := 0, set := 0, ofs := 0 }) ∧
    (legalOfs { am := 0, set := 0, ofs := 0 } = true) ∧ ((w19.m.cr 3).address { am := 0, set := 0, ofs := 0 } = 16777216 + 84) ∧ (8 ≤ (w19.m.cr 3).dma.length) ∧ (w19.ready 3 = true) ∧ (Store.get 0 (w19.m.cr 3).imem (w19.m.cr 3).pc = wordM 36 5 { am := 0, set := 0, ofs := 0 }) ∧
    (legalOfs { am := 0, set := 0, ofs := 0 } = true) ∧ ((w20.m.cr 3).address { am := 0, set := 0, ofs := 0 } = 16777216 + 92) ∧ (w20.ready 3 = true) ∧ (Store.get 0 (w20.m.cr 3).imem (w20.m.cr 3).pc = wordM 36 5 { am := 0, set := 0, ofs := 0 }) ∧
    (legalOfs { am := 0, set := 0, ofs := 0 } = true) ∧ ((w21.m.cr 3).address { am := 0, set := 0, ofs := 0 } = 16777216 + 104) ∧ ((w21.m.cr 3).held = []) ∧ (w21.ready 3 = true) ∧ (Store.get 0 (w21.m.cr 3).imem (w21.m.cr 3).pc = wordM 36 5 { am := 0, set := 0, ofs := 0 }) := by
  decide +kernel

/-- The clauses of CoreIo have states that meet their hypotheses. -/
theorem test_witness_CoreIo_4 :
    (legalOfs { am := 0, set := 0, ofs := 0 } = true) ∧ ((w22.m.cr 3).address { am := 0, set := 0, ofs := 0 } = 16777216 + 116) ∧ (w22.ready 3 = true) ∧ (Store.get 0 (w22.m.cr 3).imem (w22.m.cr 3).pc = wordM 36 5 { am := 0, set := 0, ofs := 0 }) ∧
    (legalOfs { am := 0, set := 0, ofs := 0 } = true) ∧ ((w23.m.cr 3).address { am := 0, set := 0, ofs := 0 } = 16777216 + 120) ∧ (w23.ready 3 = true) ∧ (Store.get 0 (w23.m.cr 3).imem (w23.m.cr 3).pc = wordM 36 5 { am := 0, set := 0, ofs := 0 }) ∧
    (legalOfs { am := 0, set := 0, ofs := 0 } = true) ∧ ((w24.m.cr 3).address { am := 0, set := 0, ofs := 0 } = 16777216 + 124) ∧ (w24.ready 3 = true) ∧ (Store.get 0 (w24.m.cr 3).imem (w24.m.cr 3).pc = wordM 36 5 { am := 0, set := 0, ofs := 0 }) ∧
    (legalOfs { am := 0, set := 0, ofs := 0 } = true) ∧ ((w25.m.cr 3).address { am := 0, set := 0, ofs := 0 } = 16777216 + 128) ∧ (bit ((w25.m.cr 3).d 5 % 2 ^ 32) 0 = true) ∧ (w25.ready 3 = true) ∧ (Store.get 0 (w25.m.cr 3).imem (w25.m.cr 3).pc = wordM 36 5 { am := 0, set := 0, ofs := 0 }) ∧
    (legalOfs { am := 0, set := 0, ofs := 0 } = true) ∧ ((w26.m.cr 3).address { am := 0, set := 0, ofs := 0 } = 16777216 + 136) ∧ (w26.ready 3 = true) ∧ (Store.get 0 (w26.m.cr 3).imem (w26.m.cr 3).pc = wordM 36 5 { am := 0, set := 0, ofs := 0 }) := by
  decide +kernel

/-- The clauses of CoreFormulas have states that meet their hypotheses. -/
theorem test_witness_CoreFormulas :
    (19 < 2 ^ 5) ∧
    (2147483649 < 2 ^ 32) ∧
    (4294967294 < 2 ^ 32) := by
  decide +kernel

end T10

namespace T11

def mem (k : CoreSt) : CoreSt := { k.poke 0x100 [1,2,0x83,0xF4] with dmem := (k.poke 0x100 [1,2,0x83,0xF4]).dmem ++ [(0x204, 7)]}
def sA (c : Nat) : State := onCr c mem (coreOf c up)
def sB (c : Nat) : State := onCr c (fun k => { k with load := some (0, 99, false), aov := some false, after := some (.jump 0x80) }) (sA c)
def sC (c : Nat) : State := onCr c (fun k => { ((k.setIn true 0 31).setIn true 48 0x4500).setIn true 16 0x102 with bank := true, load := some (1, 98, false) }) (sA c)
def x0 : State := wd 3 (wordB 0x28 1 (-5)) (sC 3)
def x1 : State := wd 3 (wordB 0x28 0 (-50)) (sC 3)
def x2 : State := wd 3 (wordB 0x29 0 (-5)) (sC 3)
def x3 : State := wd 3 (wordOp 0x2A (2^21)) (sC 3)
def x4 : State := wd 3 (wordB 0x2B 4 2) (sC 3)
def x5 : State := wd 3 (wordB 0x2B 5 2) (sA 3)
def x6 : State := wd 3 (wordOp 0x2C 0) (sA 3)
def x7 : State := wd 3 (wordOp 0x30 0) (sC 3)
def y0 : State := wd 3 (wordB 0x28 13 0) (sB 3)
def y1 : State := wd 3 (wordA 0x19 0 0 0 (3 * 2 ^ 13 + 2 ^ 12)) (sB 3)
def y2 : State := wd 3 (wordA 0x18 0 0 0 49 false) (sB 3)
def y3 : State := wd 3 (wordX 52 0) (sC 3)
def y4 : State := wd 3 (wordX 0 53) (sC 3)
def y5 : State := wd 3 (wordOp 0x30 0) (sB 3)
def y6 : State := wd 3 (wordB 0x29 0 0) (sB 3)
def y7 : State := wd 3 (wordR 0x1E 0 0 0 0) (sB 3)
def y8 : State := wd 3 (wordX 50 0) (sB 3)
def y9 : State := wd 17 (wordF 0 0 1 false false false false) (sB 17)
def y10 : State := wd 17 (wordOp 0x3F 8) (sB 17)
def sL2 (c : Nat) : State := onCr c (fun k => k.setIn false 48 0x800) (sB c)
def y11 : State := wd 17 (wordOp 0x3F 8) (sL2 17)
def z1 : State := wd 17 (wordOp 0x3F 9) (w pgDbg DBG_CORE_CTRL.BKPT_EN 1 17 (sB 17))
def sRt (c n : Nat) : State := onCr c (fun k => { k.setIn false 48 (n * 0x400) with after := some (.rti n) }) (sA c)
def y12 : State := wd 3 (wordB 0x2B 1 5) (sRt 3 1)
def y13 : State := wd 3 (wordOp 0x2C 0) (sRt 3 2)
def sPc (c : Nat) : State := onCr c (fun k => { k with pc := 0x40000, after := some (.jump 0x80) }) (sA c)
def y14 : State := sPc 3
def y15 : State := wd 3 0xFFFFFFFF (sB 3)
def y15' : State := wd 3 1 (sL2 3)
def q3x : Issue := ⟨3, .double, .clean⟩
def y16 : State := wd 3 0 (sB 3)
def v0 : State := wd 3 (wordM 0x20 2 ⟨1,0,0⟩) (sC 3)
def v1 : State := wd 3 (wordM 0x24 2 ⟨0,0,1⟩) (sL2 3)
def v2 : State := wd 3 (wordM 0x21 2 ⟨0,0,1⟩) (sL2 3)
def v3 : State := wd 3 (wordM 0x22 2 ⟨0,0,1⟩) (sB 3)
def v4 : State := wd 3 (wordM 0x25 2 ⟨0,0,0x80000-512⟩) (onCr 3 (fun k => k.setIn false 16 0x80000) (sB 3))
def v5 : State := wd 3 (wordM 0x20 2 ⟨0,0,4⟩) (sB 3)
def sU : State := onCr 3 (fun k => k.setIn false 16 0x102) (sB 3)
def v6 : State := wd 3 (wordF 0 0 1 true true true true) sU
def sI1 : State := w (pgIo 3) IO_IRQ_EN.EN 0x48 0 (onCr 3 (fun k => { (k.setIn false 48 0x302).setIn true 48 0x1F with after := none, latched := 0x48, load := some (2, 5, false) }) (sA 3))
def sI2 : State := w (pgIo 3) IO_IRQ_EN.EN 0x48 0 (w (pgIo 3) IO_IRQ_LEVEL.L2 0x40 0 (onCr 3 (fun k => { (k.setIn false 48 0x302).setIn false 23 0x1000 with after := none, latched := 0x48, load := some (2, 5, false) }) (sA 3)))
def sE : State := onCr 3 (fun k => { k.setIn false 23 0x1000 with exc := some 9 }) (sC 3)
def sE' : State := onCr 3 (fun k => { k.setIn false 23 0x4 with exc := some 9 }) (sC 3)
def sR (l : Nat) : State := onCr 3 (fun k => { (k.setIn false 23 0x100).setIn false 49 0x7C with after := some (.rti l) }) (sC 3)
def v7 : State := sR 1
def v8 : State := sR 2

/-- The clauses of CoreTransfers have states that meet their hypotheses. -/
theorem test_witness_CoreTransfers_1 :
    ((x0.m.cr 3).after = none) ∧ (condition 1 (x0.m.cr 3).sr = some false) ∧ (x0.ready 3 = true) ∧ (Store.get 0 (x0.m.cr 3).imem (x0.m.cr 3).pc = wordB 40 1 (-5)) ∧
    ((x1.m.cr 3).after = none) ∧ (condition 0 (x1.m.cr 3).sr = some true) ∧ (x1.ready 3 = true) ∧ (Store.get 0 (x1.m.cr 3).imem (x1.m.cr 3).pc = wordB 40 0 (-50)) ∧
    ((x2.m.cr 3).after = none) ∧ (x2.ready 3 = true) ∧ (Store.get 0 (x2.m.cr 3).imem (x2.m.cr 3).pc = wordB 41 0 (-5)) ∧
    ((x3.m.cr 3).after = none) ∧ (x3.ready 3 = true) ∧ (Store.get 0 (x3.m.cr 3).imem (x3.m.cr 3).pc = wordOp 42 (1 * 2 ^ 21)) ∧
    ((x4.m.cr 3).after = none) ∧ (x4.ready 3 = true) ∧ (Store.get 0 (x4.m.cr 3).imem (x4.m.cr 3).pc = wordB 43 4 2) ∧
    ((x5.m.cr 3).after = none) ∧ (x5.ready 3 = true) ∧ (Store.get 0 (x5.m.cr 3).imem (x5.m.cr 3).pc = wordB 43 5 2) := by
  decide +kernel

/-- The clauses of CoreTransfers have states that meet their hypotheses. -/
theorem test_witness_CoreTransfers_2 :
    ((x6.m.cr 3).after = none) ∧ (x6.ready 3 = true) ∧ (Store.get 0 (x6.m.cr 3).imem (x6.m.cr 3).pc = wordOp 44 0) ∧
    ((x7.m.cr 3).after = none) ∧ (x7.ready 3 = true) ∧ (Store.get 0 (x7.m.cr 3).imem (x7.m.cr 3).pc = wordOp 48 0) ∧
    (y0.ready 3 = true) ∧ (Store.get 0 (y0.m.cr 3).imem (y0.m.cr 3).pc = wordB 40 13 0) ∧
    (y1.ready 3 = true) ∧ (Store.get 0 (y1.m.cr 3).imem (y1.m.cr 3).pc = wordA 25 0 0 0 (3 * 2 ^ 13 + 2 ^ 12)) ∧
    (y2.ready 3 = true) ∧ (Store.get 0 (y2.m.cr 3).imem (y2.m.cr 3).pc = wordA 24 0 0 0 49) ∧
    (y3.ready 3 = true) ∧ (Store.get 0 (y3.m.cr 3).imem (y3.m.cr 3).pc = wordX 52 0) ∧
    (y4.ready 3 = true) ∧ (Store.get 0 (y4.m.cr 3).imem (y4.m.cr 3).pc = wordX 0 53) ∧
    ((y5.m.cr 3).after ≠ none) ∧ (y5.ready 3 = true) ∧ (Store.get 0 (y5.m.cr 3).imem (y5.m.cr 3).pc = wordOp 48 0) ∧
    ((y6.m.cr 3).after ≠ none) ∧ (y6.ready 3 = true) ∧ (Store.get 0 (y6.m.cr 3).imem (y6.m.cr 3).pc = wordB 41 0 0) := by
  decide +kernel

/-- The clauses of CoreTransfers have states that meet their hypotheses. -/
theorem test_witness_CoreTransfers_3 :
    (y7.ready 3 = true) ∧ (Store.get 0 (y7.m.cr 3).imem (y7.m.cr 3).pc = wordR 30 0 0 0 0) ∧
    (y8.ready 3 = true) ∧ (Store.get 0 (y8.m.cr 3).imem (y8.m.cr 3).pc = wordX 50 0) ∧
    (y9.ready 17 = true) ∧ (Store.get 0 (y9.m.cr 17).imem (y9.m.cr 17).pc = wordF 0 0 1 false false false false) ∧
    (y10.m.rd pgDbg DBG_CORE_CTRL.BKPT_EN 17 ≠ 1) ∧ (y10.ready 17 = true) ∧ (Store.get 0 (y10.m.cr 17).imem (y10.m.cr 17).pc = wordOp 63 (8)) ∧
    (y11.m.rd pgDbg DBG_CORE_CTRL.BKPT_EN 17 ≠ 1) ∧ (y11.ready 17 = true) ∧ (Store.get 0 (y11.m.cr 17).imem (y11.m.cr 17).pc = wordOp 63 (8)) ∧
    (z1.m.rd pgDbg DBG_CORE_CTRL.BKPT_EN 17 = 1) ∧ (z1.ready 17 = true) ∧ (Store.get 0 (z1.m.cr 17).imem (z1.m.cr 17).pc = wordOp 63 (9)) ∧
    (y12.m.canIssue 3 = true) ∧ ((y12.m.cr 3).pc % 4 = 0) ∧ ((y12.m.cr 3).pc < 262144) ∧ ((y12.m.cr 3).after = some (After.rti 1)) ∧ (Store.get 0 (y12.m.cr 3).imem (y12.m.cr 3).pc = wordB 43 1 5) ∧ ((qq 3).fetch = Ecc.clean) := by
  decide +kernel

/-- The clauses of CoreTransfers have states that meet their hypotheses. -/
theorem test_witness_CoreTransfers_4 :
    (y13.m.canIssue 3 = true) ∧ ((y13.m.cr 3).pc % 4 = 0) ∧ ((y13.m.cr 3).pc < 262144) ∧ ((y13.m.cr 3).after = some (After.rti 2)) ∧ (Store.get 0 (y13.m.cr 3).imem (y13.m.cr 3).pc = wordOp 44 0) ∧ ((qq 3).fetch = Ecc.clean) := by
  decide +kernel

/-- The clauses of CoreFaults have states that meet their hypotheses. -/
theorem test_witness_CoreFaults_1 :
    (y14.m.canIssue 3 = true) ∧ (∀ (level : ℕ), (y14.m.cr 3).after ≠ some (After.rti level)) ∧ (¬((y14.m.cr 3).pc % 4 = 0 ∧ (y14.m.cr 3).pc < 262144)) ∧ ((y14.m.cr 3).pc < 2 ^ 32) ∧
    (y15.ready 3 = true) ∧ ((qq 3).fetch = Ecc.clean) ∧ (wordSpelt (Store.get 0 (y15.m.cr 3).imem (y15.m.cr 3).pc) = false) ∧
    (y15'.ready 3 = true) ∧ ((qq 3).fetch = Ecc.clean) ∧ (wordSpelt (Store.get 0 (y15'.m.cr 3).imem (y15'.m.cr 3).pc) = false) ∧
    (y16.ready 3 = true) ∧ (Store.get 0 (y16.m.cr 3).imem (y16.m.cr 3).pc = 0) ∧ (q3x.fetch = Ecc.double) ∧ ((y16.m.cr 3).level ≠ 2) ∧
    (legalOfs { am := 1, set := 0, ofs := 0 } = true) ∧ (dataOk 3 ((v0.m.cr 3).address { am := 1, set := 0, ofs := 0 }) 4 = false) ∧ (v0.ready 3 = true) ∧ (Store.get 0 (v0.m.cr 3).imem (v0.m.cr 3).pc = wordM 32 2 { am := 1, set := 0, ofs := 0 }) ∧
    (legalOfs { am := 0, set := 0, ofs := 1 } = true) ∧ (dataOk 3 ((v1.m.cr 3).address { am := 0, set := 0, ofs := 1 }) 4 = false) ∧ (v1.ready 3 = true) ∧ (Store.get 0 (v1.m.cr 3).imem (v1.m.cr 3).pc = wordM 36 2 { am := 0, set := 0, ofs := 1 }) := by
  and_intros <;> first | decide +kernel | (intro l; rw [show (y14.m.cr 3).after = some (.jump 0x80) by decide +kernel]; intro e; injection e with e; cases e)

/-- The clauses of CoreFaults have states that meet their hypotheses. -/
theorem test_witness_CoreFaults_2 :
    (legalOfs { am := 0, set := 0, ofs := 1 } = true) ∧ (dataOk 3 ((v2.m.cr 3).address { am := 0, set := 0, ofs := 1 }) 2 = false) ∧ (v2.ready 3 = true) ∧ (Store.get 0 (v2.m.cr 3).imem (v2.m.cr 3).pc = wordM 33 2 { am := 0, set := 0, ofs := 1 }) ∧
    (legalOfs { am := 0, set := 0, ofs := 1 } = true) ∧ (dataOk 3 ((v3.m.cr 3).address { am := 0, set := 0, ofs := 1 }) 2 = false) ∧ (v3.ready 3 = true) ∧ (Store.get 0 (v3.m.cr 3).imem (v3.m.cr 3).pc = wordM 34 2 { am := 0, set := 0, ofs := 1 }) ∧
    (legalOfs { am := 0, set := 0, ofs := 524288 - 512 } = true) ∧ (dataOk 3 ((v4.m.cr 3).address { am := 0, set := 0, ofs := 524288 - 512 }) 2 = false) ∧ (v4.ready 3 = true) ∧ (Store.get 0 (v4.m.cr 3).imem (v4.m.cr 3).pc = wordM 37 2 { am := 0, set := 0, ofs := 524288 - 512 }) ∧
    (legalOfs { am := 0, set := 0, ofs := 4 } = true) ∧ ((v5.m.cr 3).address { am := 0, set := 0, ofs := 4 } % 4 = 0) ∧ ((v5.m.cr 3).address { am := 0, set := 0, ofs := 4 } < dmemBytes 3) ∧ ((v5.m.cr 3).level ≠ 2) ∧ (v5.ready 3 = true) ∧ (Store.get 0 (v5.m.cr 3).imem (v5.m.cr 3).pc = wordM 32 2 { am := 0, set := 0, ofs := 4 }) ∧
    (dataOk 3 ((v6.m.cr 3).reg (aReg 0)) 4 = false) ∧ (v6.ready 3 = true) ∧ (Store.get 0 (v6.m.cr 3).imem (v6.m.cr 3).pc = wordF 0 0 1 true true true true) := by
  decide +kernel

/-- The clauses of CoreInterrupts have states that meet their hypotheses. -/
theorem test_witness_CoreInterrupts :
    (sI1.m.atBoundary 3 = true) ∧ (sI1.m.debugDue 3 = false) ∧ (sI1.m.stopDue 3 = false) ∧ (sI1.m.level2Due 3 = none) ∧ (sI1.m.level1Due 3 = some 3) ∧
    (sI2.m.atBoundary 3 = true) ∧ (sI2.m.debugDue 3 = false) ∧ (sI2.m.stopDue 3 = false) ∧ (sI2.m.level2Due 3 = some 6) ∧ (((sI2.m.cr 3).complete.reg 23 + 4294967288) % 2 ^ 32 % 4 = 0) ∧ (((sI2.m.cr 3).complete.reg 23 + 4294967288) % 2 ^ 32 + 8 ≤ dmemBytes 3) ∧
    (sE.m.atBoundary 3 = true) ∧ (sE.m.debugDue 3 = false) ∧ (sE.m.stopDue 3 = false) ∧ (sE.m.level2Due 3 = some 9) ∧ (((sE.m.cr 3).complete.reg 23 + 4294967288) % 2 ^ 32 % 4 = 0) ∧ (((sE.m.cr 3).complete.reg 23 + 4294967288) % 2 ^ 32 + 8 ≤ dmemBytes 3) ∧
    (sE'.m.atBoundary 3 = true) ∧ (sE'.m.debugDue 3 = false) ∧ (sE'.m.stopDue 3 = false) ∧ (sE'.m.level2Due 3 = some 9) ∧ (dataOk 3 (((sE'.m.cr 3).complete.reg 23 + 4294967288) % 2 ^ 32) 4 = false) := by
  decide +kernel

/-- The clauses of CoreReturns have states that meet their hypotheses. -/
theorem test_witness_CoreReturns :
    (v7.m.canIssue 3 = true) ∧ ((v7.m.cr 3).pc % 4 = 0) ∧ ((v7.m.cr 3).pc < 262144) ∧ (Store.get 0 (v7.m.cr 3).imem (v7.m.cr 3).pc = wordOp 0 0) ∧ ((qq 3).fetch = Ecc.clean) ∧ ((v7.m.cr 3).after = some (After.rti 1)) ∧
    (v8.m.canIssue 3 = true) ∧ ((v8.m.cr 3).pc % 4 = 0) ∧ ((v8.m.cr 3).pc < 262144) ∧ (Store.get 0 (v8.m.cr 3).imem (v8.m.cr 3).pc = wordOp 0 0) ∧ ((qq 3).fetch = Ecc.clean) ∧ ((v8.m.cr 3).after = some (After.rti 2)) ∧ ((v8.m.cr 3).settle.reg 23 % 4 = 0) ∧ ((v8.m.cr 3).settle.reg 23 + 8 ≤ dmemBytes 3) ∧ ((qq 3).stack = Ecc.clean) ∧ (v8.m.armed 1 (v8.m.coreUnit 3) = 0) := by
  decide +kernel

end T11

namespace T12

def mem9 (s : State) : State := wl pgSys SYS_REG_SIZE.SIZE 4 9 (wl pgSys SYS_REG_CTRL.STACKS 5 9 (wl pgSys SYS_REG_CTRL.MAPPED 1 9 s))
def iq1 : IqMsg := ⟨0, 0, 17, 0, 0, 0, 4, 1, 4, true, 0, 0, 0, [], [], ⟨[], []⟩⟩
def inb (n wr_ rd_ : Nat) (s : State) : State := w (pgIo 3) IO_INBOX_WR.OFS wr_ 0 (w (pgIo 3) IO_INBOX_RD.OFS rd_ 0 (wl (pgCore 3) CORE_INBOX.EN 1 0 (wl (pgCore 3) CORE_INBOX.BASE 64 0 (wl (pgCore 3) CORE_INBOX_SIZE.SIZE n 0 s))))
def sA : State := onCr 3 (fun k => { k with dropped := 2, seq := 7 }) (coreOf 3 up)
def sIn (b : Body) : State := got (inb 256 224 224 sA) 9 50 b
def sIq : State := got (inb 65536 992 992 sA) 9 50 (.coreIq 3 iq1)
def z1 : State := sIn (.coreRole [3] 5 6 2 4)
def z2 : State := w (pgIo 3) IO_INBOX_RD.OFS 240 0 (sIn (.coreRole [3] 5 6 2 4))
def nt : RecNote := ⟨2, 9, 1, 4096, none, 6, 40⟩
def z3 : State := got sA 25 50 (.record nt 3)
def z4 : State := got (onCr 3 (fun k => { k with recs := List.replicate 16 nt }) sA) 25 50 (.record nt 3)
def dd (out : Bool) (len : Nat) : DmaDesc := ⟨0x100, 9, 4096, len, out, 7⟩
def sD (out : Bool) (len : Nat) : State := mem9 (onCr 3 (fun k => { k with dma := [dd out len, dd out 4], dmem := [(0x101, 5), (0x107, 9), (0x200, 3)], dmaAt := 0 }) (sA.onM fun m => { m with clk.ticks := 4096*31 }))
def z5 : State := (sD false 8).hbmWrite 0 9 4098 [1,2,3]
def z6 : State := w (pgIo 3) IO_TIMER_LO.TIME 0 0 (onCr 3 (fun k => { k with timer := true }) sA)
def st (v : Nat) (s : State) : State := s.onM fun m => m.setCoreState 3 v
def pend (s : State) : State := onCr 3 (fun k => { k with load := some (0, 99, false), after := some (.jump 0x80), bank := true }) s
def z7 : State := w (pgCore 3) CORE_ENTRY.ADDR 0x123 0 (st 4 (pend sA))
def z8 : State := st 0 (pend sA)
def sel (sp a inc : Nat) (s : State) : State := w (pgCore 3) CORE_MEM_SEL.SPACE sp 0 (w (pgCore 3) CORE_MEM_SEL.ADDR a 0 (w (pgCore 3) CORE_MEM_SEL.AUTO_INC inc 0 s))
def z9 : State := sel 0 0x17 1 (st 0 sA)
def z10 : State := sel 1 0x17 0 (st 0 sA)
def z11 : State := sel 1 0x17 1 sA
def bt (len : Nat) (s : State) : State := w (pgCore 3) CORE_BOOT_LEN.LEN len 0 s
def z12 : State := bt 16 (st 0 sA)
def z13 : State := bt 18 (st 0 sA)
def z14 : State := bt 0 (st 4 sA)
def hr (s : State) : State := onCr 3 (fun k => { k with haltReq := true, load := some (0, 99, false) }) s
def sv (s : State) : State := onCr 3 (fun k => { k with severe := some 8 }) s
def sBoot : State := (mem9 (w (pgCore 3) CORE_BOOT_STATUS.STATE 1 0 (w (pgCore 3) CORE_BOOT_SRC.REGION 9 0 (w (pgCore 3) CORE_BOOT_OFS_LO.OFS 4096 0 (bt 16 (onCr 3 (fun k => { k with boot := (9, 4096, 16) }) (st 4 sA))))))).hbmWrite 0 9 4098 [1,2,3]
def z15 : State := onCr 5 (fun k => { k with phys := 16 }) (st 4 (sv sA))
def dsel (c : Nat) (s : State) : State := w pgDbg DBG_CORE_SEL.CORE c 0 (w pgDbg DBG_CTRL.HOST_DEBUG 1 0 s)
def z16 : State := st 3 (dsel 3 sA)
def xh (s : State) : State := w pgDbg DBG_CORE_CTRL.XH_GROUP 2 3 (w pgDbg DBG_CORE_CTRL.XH_GROUP 2 17 (coreOf 17 s))
def z17 : State := st 3 (xh (dsel 4 sA))
def dbg (f : DebugSt → DebugSt) (s : State) : State := onCr 3 (fun k => { k with dbg := f k.dbg, exc := some 9 }) s
def z18 : State := xh (dbg (fun d => { d with halt := true }) sA)
def z19 : State := xh (dbg (fun d => { d with watch := some 1 }) sA)
def z20 : State := dbg (fun d => { d with coming := true }) sA

/-- The clauses of CoreInputs have states that meet their hypotheses. -/
theorem test_witness_CoreInputs_1 :
    ((sIq.m.arrival (8 + 1) (sIq.m.coreIsl 3)).bind (inboxItem 3) = some (2, 17, 0, 0, iq1.whole)) ∧ (sIq.m.coreIsl 3 ≠ coreIsland 3 → sIq.m.inboxTake 3 1 (coreIsland 3) = none) ∧ (sIq.m.coreState 3 ≠ coreFailed) ∧ (sIq.m.lv (pgCore 3) CORE_INBOX.EN = 1) ∧ (16 + nextMultiple iq1.whole.length 16 ≤ sIq.m.inboxSize 3 - (sIq.m.inboxWr 3 + sIq.m.inboxSize 3 - sIq.m.inboxRd 3) % sIq.m.inboxSize 3 - 16) ∧ (sIq.m.inboxSize 3 ≤ 1048576) ∧
    ((z1.m.arrival (8 + 1) (z1.m.coreIsl 3)).bind (inboxItem 3) = some (3, 5, 6, 66, [])) ∧ (z1.m.coreIsl 3 ≠ coreIsland 3 → z1.m.inboxTake 3 1 (coreIsland 3) = none) ∧ (z1.m.coreState 3 ≠ coreFailed) ∧ (z1.m.lv (pgCore 3) CORE_INBOX.EN = 1) ∧ (16 + nextMultiple 0 16 ≤ z1.m.inboxSize 3 - (z1.m.inboxWr 3 + z1.m.inboxSize 3 - z1.m.inboxRd 3) % z1.m.inboxSize 3 - 16) ∧ (z1.m.inboxSize 3 ≤ 1048576) ∧
    ((z2.m.arrival (8 + 1) (z2.m.coreIsl 3)).bind (inboxItem 3) = some (3, 5, 6, 66, [])) ∧ (z2.m.coreIsl 3 ≠ coreIsland 3 → z2.m.inboxTake 3 1 (coreIsland 3) = none) ∧ (z2.m.coreState 3 ≠ coreFailed) ∧ (z2.m.lv (pgCore 3) CORE_INBOX.EN = 1) ∧ (z2.m.inboxSize 3 - (z2.m.inboxWr 3 + z2.m.inboxSize 3 - z2.m.inboxRd 3) % z2.m.inboxSize 3 - 16 < 16 + nextMultiple 0 16) ∧
    (z3.m.arrival (24 + 1) (z3.m.coreIsl 3) = some (Body.record nt 3)) ∧ (z3.m.coreState 3 ≠ coreFailed) ∧ (z3.m.coreIsl 3 ≠ coreIsland 3 → z3.m.noticeTake 3 (24 + 1) (coreIsland 3) = none) ∧ ((z3.m.cr 3).recs.length < 16) := by
  and_intros <;> first | decide +kernel | rfl

/-- The clauses of CoreInputs have states that meet their hypotheses. -/
theorem test_witness_CoreInputs_2 :
    (z4.m.arrival (24 + 1) (z4.m.coreIsl 3) = some (Body.record nt 3)) ∧ (z4.m.coreState 3 ≠ coreFailed) ∧ (z4.m.coreIsl 3 ≠ coreIsland 3 → z4.m.noticeTake 3 (24 + 1) (coreIsland 3) = none) ∧ (16 ≤ (z4.m.cr 3).recs.length) ∧
    (((sD true 0).m.cr 3).dma = [dd true 0, dd true 4]) ∧ (((sD true 0).m.cr 3).done.length < 8) ∧ (dmaCheck 3 (dd true 0) = some 1) ∧
    (((sD true 6).m.cr 3).dma = [dd true 6, dd true 4]) ∧ (((sD true 6).m.cr 3).done.length < 8) ∧ (dmaCheck 3 (dd true 6) = some 2) ∧
    (((sD true 8).m.cr 3).dma = [dd true 8, dd true 4]) ∧ (((sD true 8).m.cr 3).done.length < 8) ∧ (dmaCheck 3 (dd true 8) = none) ∧ (((sD true 8).m.region (dd true 8).region).holds (dd true 8).ofs (dd true 8).len = true) ∧ ((sD true 8).m.dmaReady 3 (dd true 8).len = true) ∧ (((sD true 8).m.letThrough (7168 + 3) ((sD true 8).m.lv (pgCore 3) ACTIVITY_ID.ACTIVITY) ((sD true 8).m.dmaMsgs 3 (dd true 8).region (dd true 8).ofs (dd true 8).len (dd true 8).out)).1 = true) ∧ ((dd true 8).out = true) ∧ ((sD true 8).m.armed 1 ((sD true 8).m.coreUnit 3) = 0) := by
  decide +kernel

/-- The clauses of CoreInputs have states that meet their hypotheses. -/
theorem test_witness_CoreInputs_3 :
    ((z5.m.cr 3).dma = [dd false 8, dd false 4]) ∧ ((z5.m.cr 3).done.length < 8) ∧ (dmaCheck 3 (dd false 8) = none) ∧ ((z5.m.region (dd false 8).region).holds (dd false 8).ofs (dd false 8).len = true) ∧ (z5.m.dmaReady 3 (dd false 8).len = true) ∧ ((z5.m.letThrough (7168 + 3) (z5.m.lv (pgCore 3) ACTIVITY_ID.ACTIVITY) (z5.m.dmaMsgs 3 (dd false 8).region (dd false 8).ofs (dd false 8).len (dd false 8).out)).1 = true) ∧ ((dd false 8).out = false) ∧ (∀ (st : ℕ), z5.m.armed 0 st = 0) ∧ (poisoned z5.hbm (z5.m.region (dd false 8).region) (dd false 8).ofs (dd false 8).len = false) ∧
    ((z6.m.cr 3).timer = true) ∧ (z6.m.rd64 (pgIo 3) IO_TIMER_LO.TIME IO_TIMER_HI.TIME ≤ z6.m.ioTime 3) ∧
    (sA.arrives Requester.host (pgCore 3) = true) := by
  and_intros <;> first | decide +kernel | (intro st; unfold Module.armed; rw [show z5.m.net.injectNext = [] by decide +kernel]; exact Nat.zero_div 2)

/-- The clauses of CoreRunning have states that meet their hypotheses. -/
theorem test_witness_CoreRunning_1 :
    (z7.arrives Requester.host (pgCore 3) = true) ∧ (z7.m.coreState 3 = coreHaltedSt ∨ z7.m.coreState 3 = coreFault) ∧
    (z8.arrives Requester.host (pgCore 3) = true) ∧ (z8.m.coreState 3 = coreHaltedSt) ∧
    ((pend sA).arrives Requester.host (pgCore 3) = true) ∧ ((pend sA).m.coreActive 3 = true) ∧
    (z9.arrives Requester.host (pgCore 3) = true) ∧ (z9.m.memOpen 3 = true) ∧ (z9.m.rd (pgCore 3) CORE_MEM_SEL.SPACE = 0) ∧ (z9.m.rd (pgCore 3) CORE_MEM_SEL.ADDR < 262144) ∧
    (z10.arrives Requester.host (pgCore 3) = true) ∧ (z10.m.memOpen 3 = true) ∧ (z10.m.rd (pgCore 3) CORE_MEM_SEL.SPACE = 1) ∧ (z10.m.rd (pgCore 3) CORE_MEM_SEL.ADDR < dmemBytes 3) ∧
    (z11.arrives Requester.host (pgCore 3) = true) ∧ (z11.m.memOpen 3 = false) ∧
    (z10.arrives Requester.host (pgCore 3) = true) ∧ (z10.m.armed 1 (z10.m.coreUnit 3) = 0) ∧
    (z9.arrives Requester.host (pgCore 3) = true) ∧ (z9.m.armed 1 (z9.m.coreUnit 3) = 0) ∧
    (z12.arrives Requester.host (pgCore 3) = true) ∧ (z12.m.rd (pgCore 3) CORE_BOOT_STATUS.STATE ≠ 1) := by
  decide +kernel

/-- The clauses of CoreRunning have states that meet their hypotheses. -/
theorem test_witness_CoreRunning_2 :
    (z13.arrives Requester.host (pgCore 3) = true) ∧ (z13.m.rd (pgCore 3) CORE_BOOT_STATUS.STATE ≠ 1) ∧
    (z14.arrives Requester.host (pgCore 3) = true) ∧ (z14.m.rd (pgCore 3) CORE_BOOT_STATUS.STATE ≠ 1) ∧
    ((bt 16 sA).arrives Requester.host (pgCore 3) = true) ∧ ((bt 16 sA).m.rd (pgCore 3) CORE_BOOT_STATUS.STATE ≠ 1) ∧
    (sA.arrives Requester.host (pgCore 3) = true) ∧ (sA.m.coreState 3 ≠ coreHaltedSt) ∧ (sA.m.coreState 3 ≠ coreFault) ∧
    (z8.arrives Requester.host (pgCore 3) = true) ∧ (z8.m.coreActive 3 = false) ∧
    ((hr sA).m.coreActive 3 = true) ∧ (((hr sA).m.cr 3).severe = none) ∧ (((hr sA).m.cr 3).haltReq = true) ∧ (((hr sA).m.cr 3).interruptible = true) ∧ ((hr sA).m.debugDue 3 = false) ∧
    ((sv (hr sA)).m.coreActive 3 = true) ∧ (((sv (hr sA)).m.cr 3).severe.isSome = true) ∧ (((sv (hr sA)).m.cr 3).interruptible = true) := by
  decide +kernel

/-- The clauses of CoreRunning have states that meet their hypotheses. -/
theorem test_witness_CoreRunning_3 :
    ((sBoot.m.cr 3).boot = (9, 4096, 16)) ∧ (sBoot.m.rd (pgCore 3) CORE_BOOT_STATUS.STATE = 1) ∧ (sBoot.m.memOpen 3 = true) ∧ (16 % 4 = 0) ∧ ((sBoot.m.region 9).holds 4096 16 = true) ∧ (poisoned sBoot.hbm (sBoot.m.region 9) 4096 16 = false) ∧ (∀ (st : ℕ), sBoot.m.armed 0 st = 0) ∧ ((sBoot.m.letThrough (7200 + 3) (sBoot.m.lv (pgCore 3) ACTIVITY_ID.ACTIVITY) (sBoot.m.dmaMsgs 3 9 4096 16 false)).1 = true) ∧
    (((st 4 (sv sA)).m.cr 3).severe = some 8) ∧ ((st 4 (sv sA)).m.coreState 3 = coreFault) ∧ ((st 4 (sv sA)).m.coreSpareLeft 3 = true) ∧
    ((z15.m.cr 3).severe = some 8) ∧ (z15.m.coreState 3 = coreFault) ∧ (z15.m.coreSpareLeft 3 = false) := by
  and_intros <;> first | decide +kernel | (intro st; unfold Module.armed; rw [show sBoot.m.net.injectNext = [] by decide +kernel]; exact Nat.zero_div 2)

/-- The clauses of DebugHardware have states that meet their hypotheses. -/
theorem test_witness_DebugHardware_1 :
    ((dsel 3 sA).arrives Requester.host pgDbg = true) ∧ ((dsel 3 sA).m.debugAllows Requester.host = true) ∧ ((dsel 3 sA).m.dbgSel < 20) ∧ ((dsel 3 sA).m.coreActive (dsel 3 sA).m.dbgSel = true) ∧
    ((dsel 4 sA).arrives Requester.host pgDbg = true) ∧ ((dsel 4 sA).m.debugAllows Requester.host = true) ∧ ((dsel 4 sA).m.dbgSel < 20) ∧ ((dsel 4 sA).m.coreActive (dsel 4 sA).m.dbgSel = false) ∧
    (z16.arrives Requester.host pgDbg = true) ∧ (z16.m.debugAllows Requester.host = true) ∧ (z16.m.dbgSel < 20) ∧ (z16.m.coreState z16.m.dbgSel = coreDebug) ∧
    ((dsel 3 sA).arrives Requester.host pgDbg = true) ∧ ((dsel 3 sA).m.debugAllows Requester.host = true) ∧ ((dsel 3 sA).m.dbgSel < 20) ∧ ((dsel 3 sA).m.coreState (dsel 3 sA).m.dbgSel ≠ coreDebug) ∧
    (z17.arrives Requester.host pgDbg = true) ∧ (z17.m.debugAllows Requester.host = true) ∧ (z17.m.rd pgDbg DBG_CORE_CTRL.XH_GROUP 3 = 2) ∧ (z17.m.coreState 3 = coreDebug) := by
  decide +kernel

/-- The clauses of DebugHardware have states that meet their hypotheses. -/
theorem test_witness_DebugHardware_2 :
    (z18.m.atBoundary 3 = true) ∧ (z18.m.haltDue 3 HaltCause.halt = true) ∧ ((z18.m.cr 3).severe = none) ∧
    (z19.m.atBoundary 3 = true) ∧ (z19.m.haltDue 3 (HaltCause.wp 1) = true) ∧ ((z19.m.cr 3).severe = none) ∧
    ((z20.m.cr 3).dbg.coming = true) := by
  decide +kernel

end T12

namespace T13

def fm (n : Nat) (corr real inj : Bool) : FaultMsg := ⟨n, 0x1234, 777, real, inj, corr⟩
def sF (n : Nat) (thr ev sv : Nat) (f : FaultMsg) : State := w pgFlt FLT_SRC_REACT.ON_EVENT ev n (w pgFlt FLT_SRC_REACT.ON_SEVERE sv n (w pgFlt FLT_SRC_THRESH.N thr n (got up 8 58 (.fault f))))
def z1 : State := sF 310 5 0x3F 0 (fm 310 true true false)
def z2 : State := w pgFlt FLT_SRC_STATE.LATCHED 1 310 (sF 310 5 0x2B 0 (fm 310 false true false))
def z3 : State := sF 310 1 0 0x3F (fm 310 true true false)
def z4 : State := sF 20 1 0 0x3F (fm 20 false true true)
def z5 : State := sF 600 1 0 0x3F (fm 600 false true true)
def z6 : State := sF 600 1 0x3F 0x3F (fm 600 true false true)
def sLk : State := w pgFlt FLT_SRC_STATE.BUCKET 3 77 (up.onM fun m => { m with flt.leak := [(77, 1)] })
def sSel : State := (w pgFlt FLT_SRC_SEL.SOURCE 77 0 (w pgFlt FLT_SRC_STATE.LATCHED 1 77 (w pgFlt FLT_SRC_STATE.LATCHED 1 7 (w pgFlt FLT_SRC_STATE.SEVERE 1 77 sLk)))).onM fun m => { m with flt.holds := [77, 7], flt.log := [⟨1,2,3,4,true,true,true,true⟩] }
def sLeg : State := w pgFlt FLT_LEG_STATUS.CORRECTED 1 0 (w pgFlt FLT_LEG_STATUS.FATAL 1 0 (w pgFlt FLT_LEG_FIRST_SRC.SOURCE 9 2 (w pgFlt FLT_LEG_FIRST_SRC.SOURCE 9 0 up)))
def sSs (i : Nat) : State := got up 58 i (.safeStop 20)
def z7 : State := w (pgCnv 2) CTRL.ENABLE 1 0 (sSs 2)
def z8 : State := w (pgCnv 2) CNV_STATUS.RUN_STATE 2 0 (w (pgCnv 2) CTRL.ENABLE 1 0 (sSs 2))
def z9 : State := w (pgCnv 2) CNV_STATUS.RUN_STATE 3 0 (w (pgCnv 2) CTRL.ENABLE 1 0 (sSs 2))
def z10 : State := w (pgCrs 0) CRS_STATUS.RUN_STATE 2 0 (w (pgCrs 4) CRS_STATUS.RUN_STATE 2 0 (sSs 24))
def z11 : State := coreOf 3 (coreOf 5 (sSs 50))
def z12 : State := coreOf 3 (coreOf 5 (sSs 30))
def z13 : State := w pgFlt FLT_SAFE_STOP.ACTIVE 1 0 up
def cold (s : State) : State := (List.range 8).foldl (fun s d => w pgSaf SAF_TEMP.NOW 100 d s) s
def z14 : State := w pgPwr PWR_EVENTS.RESTARTS 4 0 (w pgSaf SAF_STATUS.THERMAL_SHUTDOWN 1 0 (cold up))
def zc : State := cold up
def z15 : State := ((cold up)).onM fun m => { m with safety.hotSince := [(3, some 0)], clk.ticks := 2000000 }
def zo : State := w pgPwr PWR_START.STEP 3 0 up
def z16 : State := w pgMgt MGT_ALERT.CAUSE 31 0 up
def z17 : State := w pgMgt MGT_RESP.STATE 1 0 up
def z18 : State := (w pgMgt MGT_RESP.STATE 1 0 up).onM fun m => { m with clk.ticks := 100000000000 }
def z19 : State := w (pgBrk 5) BRK_PHYS.CLUSTER_SPARE 0 0 up
def zdr : State := w pgStr STR_VOL_STATUS.SPARE 3 0 (w (pgNvp 3) NVP_DRIVE.STATE 3 0 (w (pgNvp 2) NVP_DRIVE.LEDGER 0 0 (w (pgNvp 3) NVP_DRIVE.LEDGER 1 0 (up.onM fun m => (m.setDrec 0 ⟨[1], [2], [3], [4], 1, 0, 7, 2, 100, 5, 0, 77⟩).setDrec 1 ⟨[1], [2], [3], [4], 2, 0, 7, 3, 100, 5, 0, 77⟩))))
def z20 : State := w pgSaf SAF_INJ_SEL.MODE 1 0 (w pgSaf SAF_INJ_SEL.INSTANCE 2 0 up)

/-- The clauses of FaultEvents have states that meet their hypotheses. -/
theorem test_witness_FaultEvents_1 :
    (z1.m.arrival 8 58 = some (Body.fault (fm 310 true true false))) ∧ ((fm 310 true true false).source < 856) ∧ ((fm 310 true true false).real = true) ∧ (z1.m.rd pgFlt FLT_SRC_STATE.SEVERE (fm 310 true true false).source ≠ 0 ∨ ((z1.m.leaks (fm 310 true true false).source).rd pgFlt FLT_SRC_STATE.BUCKET (fm 310 true true false).source + 1).min (2 ^ FLT_SRC_STATE.BUCKET.width - 1) < z1.m.rd pgFlt FLT_SRC_THRESH.N (fm 310 true true false).source) ∧
    (z2.m.arrival 8 58 = some (Body.fault (fm 310 false true false))) ∧ ((fm 310 false true false).source < 856) ∧ ((fm 310 false true false).real = true) ∧ (z2.m.rd pgFlt FLT_SRC_STATE.SEVERE (fm 310 false true false).source ≠ 0 ∨ ((z2.m.leaks (fm 310 false true false).source).rd pgFlt FLT_SRC_STATE.BUCKET (fm 310 false true false).source + 1).min (2 ^ FLT_SRC_STATE.BUCKET.width - 1) < z2.m.rd pgFlt FLT_SRC_THRESH.N (fm 310 false true false).source) ∧
    (z3.m.arrival 8 58 = some (Body.fault (fm 310 true true false))) ∧ ((fm 310 true true false).source < 856) ∧ ((fm 310 true true false).real = true) ∧ (z3.m.rd pgFlt FLT_SRC_STATE.SEVERE (fm 310 true true false).source = 0) ∧ (z3.m.rd pgFlt FLT_SRC_THRESH.N (fm 310 true true false).source ≤ ((z3.m.leaks (fm 310 true true false).source).rd pgFlt FLT_SRC_STATE.BUCKET (fm 310 true true false).source + 1).min (2 ^ FLT_SRC_STATE.BUCKET.width - 1)) ∧
    (z4.m.arrival 8 58 = some (Body.fault (fm 20 false true true))) ∧ ((fm 20 false true true).source < 856) ∧ ((fm 20 false true true).real = true) ∧ (z4.m.rd pgFlt FLT_SRC_STATE.SEVERE (fm 20 false true true).source = 0) ∧ (z4.m.rd pgFlt FLT_SRC_THRESH.N (fm 20 false true true).source ≤ ((z4.m.leaks (fm 20 false true true).source).rd pgFlt FLT_SRC_STATE.BUCKET (fm 20 false true true).source + 1).min (2 ^ FLT_SRC_STATE.BUCKET.width - 1)) := by
  decide +kernel

/-- The clauses of FaultEvents have states that meet their hypotheses. -/
theorem test_witness_FaultEvents_2 :
    (z5.m.arrival 8 58 = some (Body.fault (fm 600 false true true))) ∧ ((fm 600 false true true).source < 856) ∧ ((fm 600 false true true).real = true) ∧ (z5.m.rd pgFlt FLT_SRC_STATE.SEVERE (fm 600 false true true).source = 0) ∧ (z5.m.rd pgFlt FLT_SRC_THRESH.N (fm 600 false true true).source ≤ ((z5.m.leaks (fm 600 false true true).source).rd pgFlt FLT_SRC_STATE.BUCKET (fm 600 false true true).source + 1).min (2 ^ FLT_SRC_STATE.BUCKET.width - 1)) ∧
    (z6.m.arrival 8 58 = some (Body.fault (fm 600 true false true))) ∧ ((fm 600 true false true).source < 856) ∧ ((fm 600 true false true).real = false) ∧
    (0 < sLk.m.rd pgFlt FLT_SRC_STATE.BUCKET 77) ∧ (0 < Store.get 0 sLk.m.flt.leak 77) ∧ (Store.get 0 sLk.m.flt.leak 77 ≤ sLk.m.clk.ticks + 1) ∧
    (sSel.arrives Requester.mgt pgFlt = true) ∧ (sSel.m.fltSel < 1024) ∧ (74565 % 65536 ≠ 0) ∧
    (sSel.arrives Requester.mgt pgFlt = true) ∧ (sSel.m.fltSel < 1024) ∧ (74565 % 2 ^ 23 ≠ 0) ∧ (74565 % 2 ^ 23 ≤ 4194304) ∧
    (sSel.arrives Requester.host pgFlt = true) ∧ (sSel.m.fltSel < 1024) ∧
    (sSel.arrives Requester.host pgFlt = true) ∧ (Requester.host ≠ Requester.mgt) := by
  decide +kernel

/-- The clauses of FaultEvents have states that meet their hypotheses. -/
theorem test_witness_FaultEvents_3 :
    (sLeg.arrives Requester.host pgFlt = true) := by
  decide +kernel

/-- The clauses of SafeStops have states that meet their hypotheses. -/
theorem test_witness_SafeStops :
    (z7.m.arrival 58 2 = some (Body.safeStop 20)) ∧
    (z8.m.arrival 58 2 = some (Body.safeStop 20)) ∧
    (z9.m.arrival 58 2 = some (Body.safeStop 20)) ∧
    (z10.m.arrival 58 24 = some (Body.safeStop 20)) ∧
    (z11.m.arrival 58 50 = some (Body.safeStop 20)) ∧
    (z12.m.arrival 58 30 = some (Body.safeStop 20)) ∧ (30 < 24 ∨ 28 ≤ 30 ∧ 30 < 50 ∨ 54 ≤ 30) ∧
    (z13.arrives Requester.mgt pgSaf = true) ∧ (z13.m.rd pgSaf SAF_STATUS.THERMAL_SHUTDOWN = 0) ∧
    (z13.arrives Requester.host pgSaf = true) ∧ (Requester.host ≠ Requester.mgt ∨ z13.m.rd pgSaf SAF_STATUS.THERMAL_SHUTDOWN ≠ 0) ∧
    (z14.arrives Requester.mgt pgSaf = true) ∧ (z14.m.rd pgSaf SAF_STATUS.THERMAL_SHUTDOWN = 1) ∧ (∀ d ∈ List.range 8, z14.m.dieTemp d < 24320) ∧
    (Store.get none z15.m.safety.hotSince 3 = some 0) ∧ (0 + 2000000 ≤ z15.m.clk.ticks + 1) ∧ (z15.m.rd pgSaf SAF_STATUS.THERMAL_SHUTDOWN = 0) ∧ (z15.m.power.vin = true) ∧
    (Option.any (fun t => decide (zc.m.clk.ticks < t + 200000)) zc.m.safety.monitor = false) := by
  decide +kernel

/-- The clauses of Management have states that meet their hypotheses. -/
theorem test_witness_Management_1 :
    (up.m.portUp = true) ∧ (up.arrives Requester.mgt pgSaf = true) ∧
    (zo.m.portUp = true) ∧ (zo.m.reaches Requester.mgt (0 / 4096) = false) ∧
    (z16.arrives Requester.mgt pgMgt = true) ∧
    (z16.arrives Requester.host pgMgt = true) ∧
    (up.arrives Requester.host pgMgt = true) ∧ (Requester.host ≠ Requester.jdl) ∧ (up.m.rd pgMgt MGT_RESP.STATE ≠ 1) ∧
    (z17.arrives Requester.host pgMgt = true) ∧ (Requester.host ≠ Requester.jdl) ∧ (z17.m.rd pgMgt MGT_RESP.STATE = 1) ∧
    (z17.arrives Requester.mgt pgMgt = true) ∧ (z17.m.rd pgMgt MGT_RESP.STATE = 1) ∧ (z17.m.mailboxLate = false) ∧ (3 = 2 ∨ 3 = 3) ∧
    (Requester.host ≠ Requester.mgt) ∧ (z17.arrives Requester.host pgMgt = true) ∧
    (up.m.rd pgMgt MGT_RESP.STATE ≠ 1) ∧ (up.arrives Requester.mgt pgMgt = true) ∧
    (z18.m.rd pgMgt MGT_RESP.STATE = 1) ∧ (z18.m.safety.askedAt + z18.m.rd pgMgt MGT_REQ_TIMEOUT.MS * 2000000 ≤ z18.m.clk.ticks) := by
  decide +kernel

/-- The clauses of Management have states that meet their hypotheses. -/
theorem test_witness_Management_2 :
    (z18.m.mailboxLate = true) ∧ (z18.arrives Requester.mgt pgMgt = true) ∧
    (up.arrives Requester.mgt pgMgt = true) ∧ (up.m.substAnswer (7) (8) = SubstAnswer.refused) ∧
    (z19.arrives Requester.mgt pgMgt = true) ∧ (z19.m.substAnswer (2) (5) = SubstAnswer.noSpare) ∧
    (up.arrives Requester.mgt pgMgt = true) ∧ (up.m.substAnswer (2) (5) = SubstAnswer.order 8 5) ∧
    (up.arrives Requester.mgt pgMgt = true) ∧ (8 = 8) ∧ (up.m.substAnswer 8 (37) = SubstAnswer.done) ∧
    (zdr.arrives Requester.mgt pgMgt = true) ∧ (9 = 9) ∧ (zdr.m.substAnswer 9 (2) = SubstAnswer.done) ∧ ((zdr.m.pt (2)).retiring = none) ∧
    (Requester.host ≠ Requester.mgt) ∧ (up.arrives Requester.host pgMgt = true) ∧
    (z20.arrives Requester.mgt pgSaf = true) ∧ (7 ≠ 0) ∧ (z20.m.rd pgSaf SAF_INJ_SEL.INSTANCE < checkerInstances (z20.m.rd pgSaf SAF_INJ_SEL.CHECKER)) ∧ (z20.m.rd pgSaf SAF_INJ_SEL.MODE < 2) := by
  decide +kernel

/-- The clauses of Management have states that meet their hypotheses. -/
theorem test_witness_Management_3 :
    (Requester.host ≠ Requester.mgt) ∧ (up.arrives Requester.host pgSaf = true) := by
  decide +kernel

end T13

namespace T14

def mem9 (s : State) : State := wl pgSys SYS_REG_SIZE.SIZE 4 9 (wl pgSys SYS_REG_CTRL.STACKS 5 9 (wl pgSys SYS_REG_CTRL.MAPPED 1 9 s))
def noLd : State := up.onM fun m => { m with hostif.loaded := false, hostif.perst := true }
def bm (s : State) : State := s.onM fun m => m.setCfg 1 6
def q3 (kind : Nat) (s : State) : State := wl pgPcie PCIE_Q_CFG.EN 1 3 (wl pgPcie PCIE_Q_CFG.LOG2_ENTRIES 4 3 (wl pgPcie PCIE_Q_CFG.KIND kind 3 (w pgPcie PCIE_Q_STATE.STATE 1 3 (bm (mem9 s)))))
def onHq (f : HostQ → HostQ) (s : State) : State := s.onM fun m => m.setHq 3 (f (m.hq 3))
def desc : Descriptor := ⟨0x1000, 64, 9, false, 4096, 77⟩
def sQ (kind early : Nat) : State := onHq (fun h => { h with cur := some desc, early := early, cqHead := 5 }) (q3 kind up)
def fr (slot kind flags : Nat) : Frame := ⟨4, slot, 9, kind, flags, 5, 100, 0, 3, 9, 4096, [1,2,3], 2, 1, none, none⟩
def z1 : State := onHq (fun h => { h with waiting := [fr 3 2 0] }) (sQ 1 0)
def y0 : State := sQ 2 0
def y1 : State := sQ 1 0
def sWin : State := wl pgSys SYS_REG_CTRL.HOST_WINDOW 1 9 (wl pgSys SYS_REG_WIN.WIN_BASE 2 9 (mem9 up))
def sEnf : State := wl pgBud BUD_CTRL.ENFORCE 1 0 (wl pgBud BUD_LIMIT.ALLOW 0 (entryNo 73 0) sWin)
def sWait : State := sWin.onM fun m => { m with hostif.window := [.bar2Read 1 2] }
def sMx : State := up.onM fun m => { m.setCfg 44 0x81FF0011 with hostif.msixPend := [(70, 1)] }
def drv (v : Nat) : State := w pgSys (SYS_DRV_FEATURES.FEATURES 0) v 0 up
def z2 : State := w pgSys SYS_FEATURES_CTRL.FEATURES_OK 1 0 up
def irq (s : State) : State := w pgSys SYS_IRQ_SEL.PAGE pgClk 0 (s.onM fun m => { m with reg.irqStat := [(pgClk, 3)], reg.irqEn := [(pgClk, 3)] })
def vClk : Nat := defaultVector pgClk
def sFt (kind : Nat) : State := onHq (fun h => { h with sqTail := 3, cqHead := 5 }) (q3 kind up)
def free (s : State) : State := wl pgBud BUD_CTRL.ENFORCE 0 0 s
def y2 : State := free (onHq (fun h => { h with ready := some (3, 8, 2) }) (sQ 1 2))
def y3 : State := free (sQ 1 2)
def y4 : State := free (onHq (fun h => { h with placed := 4096, frames := 2 }) (sQ 2 262))
def y5 : State := free (sQ 0 0)
def y6 : State := free (sQ 1 0)
def z3 : State := onHq (fun h => { h with unsig := 2 }) (sQ 1 0)
def sFl : State := (onHq (fun h => { h with frames := 2 }) (sQ 2 0)).onM fun m => { m with clk.ticks := 1000000000000 }
def fly (s : State) : State := s.onM fun m => m.setSm 3 { m.sm 3 with flying := [⟨fr 3 2 0, none, none, false⟩] }
def sRx (s : State) : State := got (fly s) 24 36 (.hostFrame 3 (fr 3 2 0))
def big : Descriptor := { desc with length := 8192 }
def z4 : State := free <| sRx (onHq (fun h => { h with cur := some big, placed := 4096, frames := 1 }) (sQ 2 0))

/-- The clauses of HostSpace have states that meet their hypotheses. -/
theorem test_witness_HostSpace_1 :
    (up.m.configReady = true) ∧ (10 ≤ 3328 / 256 % 64) ∧ (3328 / 256 % 64 ≤ 17) ∧
    (rst.m.configReady = false) ∧
    (noLd.m.railsUp = true) ∧ (noLd.m.hostif.loaded = false) ∧ (4 < noLd.m.rd pgPwr PWR_START.STEP) ∧
    (z1.m.configReady = true) ∧
    (y0.m.configReady = true) ∧
    (y1.m.configReady = true) ∧
    (up.m.railsUp = true) ∧
    (sWin.m.barsOpen = true) ∧ (sWin.m.hostif.window = []) ∧ (sWin.m.bar2Hit 4194400 = some (9, 96)) ∧ ((sWin.m.region 9).holds 96 [1, 2, 3].length = true) ∧ ((sWin.m.charge (sWin.m.lv pgSys SYS_REG_CTRL.OWNER 9) (sWin.m.moveCosts true 9 96 [1, 2, 3].length)).1 = true) ∧
    (sEnf.m.barsOpen = true) ∧ (sEnf.m.hostif.window = []) ∧ (sEnf.m.bar2Hit 4194400 = some (9, 96)) ∧ ((sEnf.m.charge (sEnf.m.lv pgSys SYS_REG_CTRL.OWNER 9) (sEnf.m.moveCosts true 9 96 [1, 2, 3].length)).1 = false) := by
  decide +kernel

/-- The clauses of HostSpace have states that meet their hypotheses. -/
theorem test_witness_HostSpace_2 :
    (sWin.m.barsOpen = true) ∧ (sWin.m.hostif.window = []) ∧ (sWin.m.bar2Hit 4194400 = some (9, 96)) ∧ ((sWin.m.region 9).holds 96 3 = true) ∧ ((sWin.m.charge (sWin.m.lv pgSys SYS_REG_CTRL.OWNER 9) (sWin.m.moveCosts false 9 96 3)).1 = true) ∧
    (sWin.m.barsOpen = true) ∧ (sWin.m.hostif.window = []) ∧ (sWin.m.bar2Hit 0 = none) ∧
    (sWait.m.barsOpen = true) ∧ (sWait.m.hostif.window ≠ []) ∧
    (sMx.m.barsOpen = true) ∧
    (up.m.barsOpen = true) ∧
    ((drv 895).arrives Requester.host pgSys = true) ∧ ((drv 895).m.rd pgSys SYS_FEATURES_CTRL.FEATURES_OK ≠ 1) ∧ ((drv 895).m.featuresFit = true) ∧
    ((drv 3967).arrives Requester.host pgSys = true) ∧ ((drv 3967).m.rd pgSys SYS_FEATURES_CTRL.FEATURES_OK ≠ 1) ∧ ((drv 3967).m.featuresFit = false) ∧
    (z2.arrives Requester.host pgSys = true) ∧ (z2.m.rd pgSys SYS_FEATURES_CTRL.FEATURES_OK = 1) := by
  decide +kernel

/-- The clauses of HostSpace have states that meet their hypotheses. -/
theorem test_witness_HostSpace_3 :
    ((irq up).arrives Requester.host pgSys = true) ∧ ((irq up).m.feature 2 = true) ∧ (64 ≤ 300) ∧ (defaultVector ((irq up).m.rd pgSys SYS_IRQ_SEL.PAGE) ≠ 0) ∧
    ((irq up).arrives Requester.host pgSys = true) ∧ ((irq up).m.feature 2 = false ∨ 3 < 64) ∧
    ((irq up).arrives Requester.host pgSys = true) ∧ (64 ≤ (BitVec.ofNat 9 vClk).toNat) ∧ ((irq up).m.vectorRequest (BitVec.ofNat 9 vClk).toNat = true) ∧
    (up.arrives Requester.host pgSys = true) ∧ (up.m.vectorRequest (80) = false) := by
  decide +kernel

/-- The clauses of HostQueues have states that meet their hypotheses. -/
theorem test_witness_HostQueues_1 :
    ((sQ 1 0).m.barsOpen = true) ∧ ((sQ 1 0).m.feature 1 = true) ∧ ((sQ 1 0).m.lv pgPcie PCIE_Q_CFG.EN 3 = 1) ∧ (5 < (sQ 1 0).m.ringSize 3) ∧
    ((sQ 1 0).m.barsOpen = true) ∧ ((sQ 1 0).m.feature 1 = false ∨ (sQ 1 0).m.lv pgPcie PCIE_Q_CFG.EN 3 ≠ 1 ∨ (sQ 1 0).m.ringSize 3 ≤ 55) ∧
    ((sFt 1).m.mayFetch 3 = true) ∧ (((sFt 1).m.charge 63 [(73, 1)]).1 = true) ∧ ((sFt 1).m.queueKind 3 ≠ 2) ∧
    ((y2.m.hq 3).cur = some desc) ∧ (y2.m.busMaster = true) ∧ (y2.m.cqFull 3 = false) ∧ (y2.m.configReady = true) ∧ (y2.m.enforcing = false) ∧ ((y2.m.hq 3).ready = some (3, 8, 2)) := by
  decide +kernel

/-- The clauses of HostQueues have states that meet their hypotheses. -/
theorem test_witness_HostQueues_2 :
    ((y3.m.hq 3).cur = some desc) ∧ (y3.m.busMaster = true) ∧ (y3.m.cqFull 3 = false) ∧ (y3.m.configReady = true) ∧ (y3.m.enforcing = false) ∧ ((y3.m.hq 3).ready = none) ∧ ((y3.m.hq 3).early ≠ 0) ∧ (y3.m.queueKind 3 ≠ 2) ∧
    ((y4.m.hq 3).cur = some desc) ∧ (y4.m.busMaster = true) ∧ (y4.m.cqFull 3 = false) ∧ (y4.m.configReady = true) ∧ (y4.m.enforcing = false) ∧ ((y4.m.hq 3).ready = none) ∧ ((y4.m.hq 3).early ≠ 0) ∧ (y4.m.queueKind 3 = 2) := by
  decide +kernel

/-- The clauses of HostQueues have states that meet their hypotheses. -/
theorem test_witness_HostQueues_3 :
    ((y5.m.hq 3).cur = some desc) ∧ (y5.m.busMaster = true) ∧ (y5.m.cqFull 3 = false) ∧ (y5.m.configReady = true) ∧ (y5.m.enforcing = false) ∧ ((y5.m.hq 3).ready = none) ∧ ((y5.m.hq 3).early = 0) ∧ ((y5.m.region desc.region).holds desc.hbmOfs desc.length = true) ∧ (y5.m.queueKind 3 = 0) ∧ (poisoned y5.hbm (y5.m.region desc.region) desc.hbmOfs desc.length = false) ∧ (∀ (st : ℕ), y5.m.armed 0 st = 0) ∧
    ((y6.m.hq 3).cur = some desc) ∧ (y6.m.busMaster = true) ∧ (y6.m.cqFull 3 = false) ∧ (y6.m.configReady = true) ∧ (y6.m.enforcing = false) ∧ ((y6.m.hq 3).ready = none) ∧ ((y6.m.hq 3).early = 0) ∧ ((y6.m.region desc.region).holds desc.hbmOfs desc.length = true) ∧ (y6.m.queueKind 3 = 1) ∧ ((List.replicate 64 7).length = desc.length) := by
  and_intros <;> first | decide +kernel | (intro st; unfold Module.armed; rw [show y5.m.net.injectNext = [] by decide +kernel]; exact Nat.zero_div 2)

/-- The clauses of HostQueues have states that meet their hypotheses. -/
theorem test_witness_HostQueues_4 :
    (0 < (z3.m.hq 3).unsig) ∧ ((z3.m.hq 3).unsigAt + z3.m.lv pgPcie PCIE_Q_IRQ.IRQ_USEC 3 * 2000 ≤ z3.m.clk.ticks + 1) ∧
    (sFl.m.queueKind 3 = 2) ∧ ((sFl.m.hq 3).placedAt + sFl.m.lv pgPcie PCIE_Q_FLUSH.FLUSH_US 3 * 2000 ≤ sFl.m.clk.ticks + 1) ∧ ((sFl.m.hq 3).cur.isSome = true) ∧ ((sFl.m.hq 3).early = 0) ∧ (0 < (sFl.m.hq 3).frames) ∧
    ((sRx (sFt 2)).m.arrival 24 36 = some (Body.hostFrame 3 (fr 3 2 0))) ∧ ((sRx (sFt 2)).m.inFlight (fr 3 2 0).tag none = true) ∧ (((sRx (sFt 2)).m.hq 3).cur = none) ∧
    (z4.m.arrival 24 36 = some (Body.hostFrame 3 (fr 3 2 0))) ∧ (z4.m.inFlight (fr 3 2 0).tag none = true) ∧ ((z4.m.hq 3).cur = some big) ∧ ((z4.m.hq 3).waiting = []) ∧ ((z4.m.hq 3).early = 0) ∧ (z4.m.busMaster = true) ∧ ((fr 3 2 0).kind ≠ 1) ∧ (z4.m.enforcing = false) ∧ ((z4.m.hq 3).placed + ((fr 3 2 0).bytes (crc32c (fr 3 2 0).data) (fr 3 2 0).data).length ≤ big.length) := by
  decide +kernel

end T14

namespace T15

def off0 : State := rst.onM fun m => { m with power.vin := false, safety.ledger := [⟨1,2,2,0,3,4,5,6,7⟩], safety.unsaved := [⟨1,2,2,0,3,4,5,6,0⟩] }
def z1 : State := got up 1 2 (.safeStop 4)
def su (n : Nat) : State := w pgPwr PWR_START.STEP n 0 rst
def bSlot : CalSlot := ⟨true, [⟨1, 2, 3, [], []⟩], none⟩
def tSlot : CalSlot := { bSlot with head := some (let h : CalHeader := ⟨0x53435146, 1, 1, 11, 5, 3328, 9, 10, 0⟩; { h with crc := bSlot.crc h }) }
def suSlot : State := (su 2).onM fun m => (m.setSlot 1 tSlot).setSlot 0 bSlot
def z2 : State := suSlot.onM fun m => m.setSlot 0 tSlot
def lock (n : Nat) (s : State) : State := (List.range n).foldl (fun s l => w pgClk CLK_LOOP_STATUS.STATE 1 l s) s
def z3 : State := lock 10 (su 4)
def z4 : State := w pgPwr PWR_START.REF_TIMEOUT 1 0 (lock 5 (su 4))
def z5 : State := lock 9 (su 4)
def z6 : State := w pgCal CAL_STARTUP.STARTUP_FG_EN 0 0 (su 6)
def z7 : State := wl pgPwr PWR_TARGET.STATE 2 0 (su 7)
def z8 : State := (su 7).onM fun m => m.setCv 1 { m.cv 1 with step := 2 }
def late (s : State) : State := s.onM fun m => { m with clk.ticks := 50000000000 }
def z9 : State := late (w pgClk CLK_LOOP_STATUS.EVER_LOCKED 1 3 (su 4))
def mv (v : Nat) : State := late (up.onM fun m => { m with power.move := some v, power.moveEnd := 1000 })
def z10 : State := (mv 2).onM fun m => m.setCv 1 { m.cv 1 with powered := true }
def mvD : State := lock 10 (w (pgNvp 3) NVP_DRIVE.STATE 3 0 (w (pgNvp 6) NVP_DRIVE.STATE 2 0 (mv 3)))
def z11 : State := up.onM fun m => { m with power.move := some 2, power.moveEnd := 1000 }
def z12 : State := w pgPwr PWR_STATE.STATE 4 0 up
def z13 : State := w pgSaf SAF_WALL.SECONDS 77 0 (w pgPwr PWR_START.FAIL 1 0 up)
def z14 : State := up.onM fun m => { m with power.work := [(3, 9000000000)], clk.time := 5000000000 }
def z15 : State := w pgSaf SAF_STATUS.PFW 1 0 up

/-- The clauses of PowerStates have states that meet their hypotheses. -/
theorem test_witness_PowerStates_1 :
    (off0.m.power.vin = false) ∧
    (up.m.power.vin = true) ∧
    (z1.m.power.vin = true) ∧
    ((su 1).m.power.vin = true) ∧ ((su 1).m.power.shed = false) ∧ ((su 1).m.rd pgPwr PWR_START.FAIL = 0) ∧ ((su 1).m.rd pgPwr PWR_STATE.STATE = 5) ∧ ((su 1).m.startStep = 1) ∧
    ((su 2).m.power.vin = true) ∧ ((su 2).m.power.shed = false) ∧ ((su 2).m.rd pgPwr PWR_START.FAIL = 0) ∧ ((su 2).m.rd pgPwr PWR_STATE.STATE = 5) ∧ ((su 2).m.startStep = 2) ∧ ((su 2).m.soundLedger = []) ∧ ((su 2).m.bestSlot = none) ∧
    (suSlot.m.power.vin = true) ∧ (suSlot.m.power.shed = false) ∧ (suSlot.m.rd pgPwr PWR_START.FAIL = 0) ∧ (suSlot.m.rd pgPwr PWR_STATE.STATE = 5) ∧ (suSlot.m.startStep = 2) ∧ (suSlot.m.soundLedger = []) ∧ (suSlot.m.bestSlot = some 1) := by
  decide +kernel

/-- The clauses of PowerStates have states that meet their hypotheses. -/
theorem test_witness_PowerStates_2 :
    (z2.m.power.vin = true) ∧ (z2.m.power.shed = false) ∧ (z2.m.rd pgPwr PWR_START.FAIL = 0) ∧ (z2.m.rd pgPwr PWR_STATE.STATE = 5) ∧ (z2.m.startStep = 2) ∧ (z2.m.soundLedger = []) ∧ (z2.m.bestSlot = some 0) ∧
    ((su 3).m.power.vin = true) ∧ ((su 3).m.power.shed = false) ∧ ((su 3).m.rd pgPwr PWR_START.FAIL = 0) ∧ ((su 3).m.rd pgPwr PWR_STATE.STATE = 5) ∧ ((su 3).m.startStep = 3) ∧
    (z3.m.power.vin = true) ∧ (z3.m.power.shed = false) ∧ (z3.m.rd pgPwr PWR_START.FAIL = 0) ∧ (z3.m.rd pgPwr PWR_STATE.STATE = 5) ∧ (z3.m.startStep = 4) ∧ (∀ l ∈ List.range 10, z3.m.loopState l = 1) := by
  decide +kernel

/-- The clauses of PowerStates have states that meet their hypotheses. -/
theorem test_witness_PowerStates_3 :
    (z4.m.power.vin = true) ∧ (z4.m.power.shed = false) ∧ (z4.m.rd pgPwr PWR_START.FAIL = 0) ∧ (z4.m.rd pgPwr PWR_STATE.STATE = 5) ∧ (z4.m.startStep = 4) ∧ (z4.m.rd pgPwr PWR_START.REF_TIMEOUT = 1) ∧
    (z5.m.power.vin = true) ∧ (z5.m.power.shed = false) ∧ (z5.m.rd pgPwr PWR_START.FAIL = 0) ∧ (z5.m.rd pgPwr PWR_STATE.STATE = 5) ∧ (z5.m.startStep = 4) ∧ (z5.m.rd pgPwr PWR_START.REF_TIMEOUT = 0) ∧ (∃ l ∈ List.range 10, z5.m.loopState l ≠ 1) ∧
    ((su 5).m.power.vin = true) ∧ ((su 5).m.power.shed = false) ∧ ((su 5).m.rd pgPwr PWR_START.FAIL = 0) ∧ ((su 5).m.rd pgPwr PWR_STATE.STATE = 5) ∧ ((su 5).m.startStep = 5) ∧ ((su 5).m.soundLedger = []) := by
  decide +kernel

/-- The clauses of PowerStates have states that meet their hypotheses. -/
theorem test_witness_PowerStates_4 :
    (z6.m.power.vin = true) ∧ (z6.m.power.shed = false) ∧ (z6.m.rd pgPwr PWR_START.FAIL = 0) ∧ (z6.m.rd pgPwr PWR_STATE.STATE = 5) ∧ (z6.m.startStep = 6) ∧ (z6.m.rd pgCal CAL_STARTUP.STARTUP_FG_EN = 0) ∧
    (z7.m.power.vin = true) ∧ (z7.m.power.shed = false) ∧ (z7.m.rd pgPwr PWR_START.FAIL = 0) ∧ (z7.m.rd pgPwr PWR_STATE.STATE = 5) ∧ (z7.m.startStep = 7) ∧ (z7.m.runsDone = true) ∧
    (z8.m.power.vin = true) ∧ (z8.m.power.shed = false) ∧ (z8.m.rd pgPwr PWR_START.FAIL = 0) ∧ (z8.m.rd pgPwr PWR_STATE.STATE = 5) ∧ (z8.m.startStep = 7) ∧ (z8.m.runsDone = false) ∧
    (startupLimit (late (su 3)).m.startStep = some 50) ∧ ((late (su 3)).m.rd pgPwr PWR_STATE.STATE = 5) ∧ ((late (su 3)).m.rd pgPwr PWR_START.FAIL = 0) ∧ ((late (su 3)).m.power.stepAt + 50 * 2000000 ≤ (late (su 3)).m.clk.ticks) := by
  decide +kernel

/-- The clauses of PowerStates have states that meet their hypotheses. -/
theorem test_witness_PowerStates_5 :
    (startupLimit (late (wl pgPwr PWR_STATUS.PGOOD 1 0 (su 5))).m.startStep = some 200) ∧ ((late (wl pgPwr PWR_STATUS.PGOOD 1 0 (su 5))).m.rd pgPwr PWR_STATE.STATE = 5) ∧ ((late (wl pgPwr PWR_STATUS.PGOOD 1 0 (su 5))).m.rd pgPwr PWR_START.FAIL = 0) ∧ ((late (wl pgPwr PWR_STATUS.PGOOD 1 0 (su 5))).m.power.stepAt + 200 * 2000000 ≤ (late (wl pgPwr PWR_STATUS.PGOOD 1 0 (su 5))).m.clk.ticks) ∧
    (z9.m.startStep = 4) ∧ (z9.m.loopState 0 ≠ 1) ∧ (z9.m.rd pgPwr PWR_START.REF_TIMEOUT = 0) ∧ (z9.m.power.stepAt + z9.m.rd pgPwr PWR_REF_WAIT.MS * 2000000 ≤ z9.m.clk.ticks) ∧
    ((mv 1).m.power.move = some 1) ∧ ((mv 1).m.power.moveEnd ≤ (mv 1).m.clk.ticks + 1) ∧
    (z10.m.power.move = some 2) ∧ (z10.m.power.moveEnd ≤ z10.m.clk.ticks + 1) ∧
    (mvD.m.power.move = some 3) ∧ (mvD.m.power.moveEnd ≤ mvD.m.clk.ticks + 1) ∧
    (z11.m.power.move = some 2) ∧ (z11.m.clk.ticks + 1 < z11.m.power.moveEnd) ∧
    ((coreOf 3 up).arrives Requester.mgt pgPwr = true) ∧ ((coreOf 3 up).m.power.shed = false) ∧
    (up.arrives Requester.host pgPwr = true) ∧ (Requester.host ≠ Requester.mgt) ∧
    (z12.arrives Requester.mgt pgPwr = true) ∧ (z12.m.rd pgPwr PWR_STATE.STATE = 4) := by
  decide +kernel

/-- The clauses of PowerStates have states that meet their hypotheses. -/
theorem test_witness_PowerStates_6 :
    (z13.arrives Requester.mgt pgPwr = true) ∧ (z13.m.rd pgPwr PWR_START.FAIL = 1) ∧
    (up.arrives Requester.mgt pgPwr = true) ∧ (up.m.rd pgPwr PWR_STATE.STATE ≠ 4 ∧ up.m.rd pgPwr PWR_START.FAIL ≠ 1) ∧
    (z14.arrives Requester.host pgPwr = true) ∧ (Requester.host ≠ Requester.jdl) ∧
    ((coreOf 2 up).m.power.vin = true) ∧ (2 ≤ (coreOf 2 up).m.rd pgPwr PWR_START.STEP) ∧ ((coreOf 2 up).m.rd pgSaf SAF_STATUS.PFW = 0) ∧
    (z15.m.power.vin = true) ∧ (z15.m.rd pgSaf SAF_STATUS.PFW = 1) ∧ (z15.m.rd pgSaf SAF_STATUS.THERMAL_SHUTDOWN = 0) := by
  decide +kernel

end T15

namespace T16

def jd (q : Option JdlReq) (ir : Nat := 2) (s : State := up) : State := s.onM fun m => { m with jdl := ⟨ir, false, q, 100, 0x1234567812345678, 2, true, 9⟩, clk.ticks := 200 }
def lateJ (s : State) : State := s.onM fun m => { m with clk.ticks := 200100 }
def q0 (w : Bool) (sp a d : Nat) : JdlReq := ⟨w, sp, a, d⟩
def z1 : State := jd (some (q0 true 0 4 5))
def z2 : State := lateJ (jd (some (q0 false 0 4 5)))
def z3 : State := jd (some (q0 false 0 4 5))
def qE (s : State) (q : JdlReq) : State := jd (some q) 2 s
def z4 : State := qE up (q0 false 0 6 5)
def z5 : State := qE up (q0 true 4 (2^32*3+60) 5)
def z6 : State := qE rst (q0 false 0 8 5)
def aSys : Nat := pgSys * 4096 + 0x40
def z7 : State := qE up (q0 false 0 aSys 5)
def aPwr : Nat := pgPwr * 4096 + 0x40
def z8 : State := qE up (q0 true 0 aPwr 5)
def z9 : State := qE up (q0 true 0 aSys 5)
def aH : Nat := 25769803776 + 0x44
def z10 : State := qE { up with hbm := ⟨[(aH+1,3),(aH+4,5)], [(aH/32,1)]⟩ } (q0 true 1 aH 0x12005678)
def z11 : State := qE { up with hbm := ⟨[(aH+1,3),(aH+4,5)], [(aH/32,1)]⟩ } (q0 false 1 aH 0x12005678)
def z12 : State := qE { up with hbm := ⟨[(aH+1,3),(aH+4,5)], []⟩ } (q0 false 1 aH 0x12005678)
def fc (c : Nat) : State := (coreOf c up).onM fun m => m.wr (pgCore c) CORE_STATUS.STATE coreDebug
def cA (c a : Nat) : Nat := c * 2^32 + a
def z13 : State := qE (fc 3) (q0 true 2 (cA 3 8) 0x12005678)
def z14 : State := qE (fc 3) (q0 false 2 (cA 3 8) 0x12005678)
def z15 : State := qE (fc 3) (q0 true 3 (cA 3 0x90000) 0x12005678)
def z16 : State := qE (fc 3) (q0 false 3 (cA 3 0x90000) 0x12005678)
def z17 : State := qE (fc 3) (q0 true 3 (cA 3 0x100) 0x12005678)
def z18 : State := qE (fc 3) (q0 false 3 (cA 3 0x100) 0x12005678)
def z27 : State := qE ((fc 3).onM fun m => m.setCr 3 { m.cr 3 with high := [(0x10,7)], held := [(0x20,9)] }) (q0 false 3 (cA 3 0x1000008) 0x12005678)
def z28 : State := qE ((fc 3).onM fun m => m.setCr 3 { m.cr 3 with high := [(0x10,7)], held := [(0x20,9)] }) (q0 true 3 (cA 3 0x1000074) 0x12005678)
def z29 : State := (qE up (q0 false 1 aH 0)).onM fun m => { m with jdl.lost := true }
def z30 : State := (qE up (q0 false 1 aH 0)).onM fun m => { m with net.injectNext := m.net.injectNext.set 0 (injectKey 2 (m.jdlIsland (q0 false 1 aH 0))) 4 }
def z19 : State := qE (fc 3) (q0 true 4 (cA 3 0x103) 0x12005678)
def z20 : State := qE (fc 3) (q0 true 4 (cA 3 48) 0x12005678)
def z21 : State := qE (fc 3) (q0 true 4 (cA 3 51) 0x12005678)
def z22 : State := qE (fc 3) (q0 true 4 (cA 3 52) 0x12005678)
def z23 : State := qE (fc 17) (q0 true 4 (cA 17 50) 0x12005678)
def z24 : State := qE (fc 3) (q0 false 4 (cA 3 0x103) 0x12005678)
def z25 : State := qE (fc 3) (q0 true 5 (cA 3 0x104) 0x12005678)
def z26 : State := qE (fc 3) (q0 false 5 (cA 3 0x10A) 0x12005678)

/-- The clauses of DebugLink have states that meet their hypotheses. -/
theorem test_witness_DebugLink_1 :
    ((jd none 1).m.jdl.ir ≠ 2) ∧
    (z1.m.jdl.ir = 2) ∧ (z1.m.jdl.req.isSome = true) ∧
    ((jd none).m.jdl.ir = 2) ∧ ((jd none).m.jdl.req = none) ∧
    (z2.m.jdl.req = some (q0 false 0 4 5)) ∧ (z2.m.jdl.issued + 200000 ≤ z2.m.clk.ticks) ∧
    (z3.m.jdl.req = some (q0 false 0 4 5)) ∧ (z3.m.clk.ticks < z3.m.jdl.issued + 200000) ∧
    (z4.m.jdl.req = some (q0 false 0 6 5)) ∧ (z4.m.clk.ticks < z4.m.jdl.issued + 200000) ∧ (z4.m.jdlInRange (q0 false 0 6 5) = false) ∧
    (z5.m.jdl.req = some (q0 true 4 (2 ^ 32 * 3 + 60) 5)) ∧ (z5.m.clk.ticks < z5.m.jdl.issued + 200000) ∧ (z5.m.jdlInRange (q0 true 4 (2 ^ 32 * 3 + 60) 5) = false) ∧
    (z6.m.jdl.req = some (q0 false 0 8 5)) ∧ (z6.m.clk.ticks < z6.m.jdl.issued + 200000) ∧ (z6.m.jdlInRange (q0 false 0 8 5) = true) ∧ (z6.m.railsUp = false ∨ z6.m.jdl.lost = true) := by
  decide +kernel

/-- The clauses of DebugLink have states that meet their hypotheses. -/
theorem test_witness_DebugLink_2 :
    (z7.m.jdl.req = some (q0 false 0 aSys 5)) ∧ (z7.m.clk.ticks < z7.m.jdl.issued + 200000) ∧ (z7.m.jdlInRange (q0 false 0 aSys 5) = true) ∧ ((z7.m.railsUp && !z7.m.jdl.lost && (z7.m.jdlIsland (q0 false 0 aSys 5) == 59 || !z7.m.pairBusy 59 (z7.m.jdlIsland (q0 false 0 aSys 5)) && z7.m.armed 2 (z7.m.jdlIsland (q0 false 0 aSys 5)) == 0)) = true) ∧ ((q0 false 0 aSys 5).space = 0) ∧ (z7.arrives Requester.jdl ((q0 false 0 aSys 5).addr / 4096) = true) ∧ ((q0 false 0 aSys 5).write = false) ∧
    (z8.m.jdl.req = some (q0 true 0 aPwr 5)) ∧ (z8.m.clk.ticks < z8.m.jdl.issued + 200000) ∧ (z8.m.jdlInRange (q0 true 0 aPwr 5) = true) ∧ ((z8.m.railsUp && !z8.m.jdl.lost && (z8.m.jdlIsland (q0 true 0 aPwr 5) == 59 || !z8.m.pairBusy 59 (z8.m.jdlIsland (q0 true 0 aPwr 5)) && z8.m.armed 2 (z8.m.jdlIsland (q0 true 0 aPwr 5)) == 0)) = true) ∧ ((q0 true 0 aPwr 5).space = 0) ∧ (z8.arrives Requester.jdl ((q0 true 0 aPwr 5).addr / 4096) = true) ∧ ((q0 true 0 aPwr 5).write = true) ∧ (jdlRefuses ((q0 true 0 aPwr 5).addr / 4096) ((q0 true 0 aPwr 5).addr % 4096) = true) := by
  decide +kernel

/-- The clauses of DebugLink have states that meet their hypotheses. -/
theorem test_witness_DebugLink_3 :
    (z9.m.jdl.req = some (q0 true 0 aSys 5)) ∧ (z9.m.clk.ticks < z9.m.jdl.issued + 200000) ∧ (z9.m.jdlInRange (q0 true 0 aSys 5) = true) ∧ ((z9.m.railsUp && !z9.m.jdl.lost && (z9.m.jdlIsland (q0 true 0 aSys 5) == 59 || !z9.m.pairBusy 59 (z9.m.jdlIsland (q0 true 0 aSys 5)) && z9.m.armed 2 (z9.m.jdlIsland (q0 true 0 aSys 5)) == 0)) = true) ∧ ((q0 true 0 aSys 5).space = 0) ∧ (z9.arrives Requester.jdl ((q0 true 0 aSys 5).addr / 4096) = true) ∧ ((q0 true 0 aSys 5).write = true) ∧ (jdlRefuses ((q0 true 0 aSys 5).addr / 4096) ((q0 true 0 aSys 5).addr % 4096) = false) ∧
    (z10.m.jdl.req = some (q0 true 1 aH 302012024)) ∧ (z10.m.clk.ticks < z10.m.jdl.issued + 200000) ∧ (z10.m.jdlInRange (q0 true 1 aH 302012024) = true) ∧ ((z10.m.railsUp && !z10.m.jdl.lost && (z10.m.jdlIsland (q0 true 1 aH 302012024) == 59 || !z10.m.pairBusy 59 (z10.m.jdlIsland (q0 true 1 aH 302012024)) && z10.m.armed 2 (z10.m.jdlIsland (q0 true 1 aH 302012024)) == 0)) = true) ∧ ((z10.m.charge 62 (z10.m.jdlCosts (q0 true 1 aH 302012024))).1 = true) ∧ ((q0 true 1 aH 302012024).space = 1) ∧ ((q0 true 1 aH 302012024).write = true) := by
  decide +kernel

/-- The clauses of DebugLink have states that meet their hypotheses. -/
theorem test_witness_DebugLink_4 :
    (z11.m.jdl.req = some (q0 false 1 aH 302012024)) ∧ (z11.m.clk.ticks < z11.m.jdl.issued + 200000) ∧ (z11.m.jdlInRange (q0 false 1 aH 302012024) = true) ∧ ((z11.m.railsUp && !z11.m.jdl.lost && (z11.m.jdlIsland (q0 false 1 aH 302012024) == 59 || !z11.m.pairBusy 59 (z11.m.jdlIsland (q0 false 1 aH 302012024)) && z11.m.armed 2 (z11.m.jdlIsland (q0 false 1 aH 302012024)) == 0)) = true) ∧ ((z11.m.charge 62 (z11.m.jdlCosts (q0 false 1 aH 302012024))).1 = true) ∧ ((q0 false 1 aH 302012024).space = 1) ∧ ((q0 false 1 aH 302012024).write = false) ∧ (z11.m.armed 0 ((q0 false 1 aH 302012024).addr / 25769803776) = 0) ∧
    (z12.m.jdl.req = some (q0 false 1 aH 302012024)) ∧ (z12.m.clk.ticks < z12.m.jdl.issued + 200000) ∧ (z12.m.jdlInRange (q0 false 1 aH 302012024) = true) ∧ ((z12.m.railsUp && !z12.m.jdl.lost && (z12.m.jdlIsland (q0 false 1 aH 302012024) == 59 || !z12.m.pairBusy 59 (z12.m.jdlIsland (q0 false 1 aH 302012024)) && z12.m.armed 2 (z12.m.jdlIsland (q0 false 1 aH 302012024)) == 0)) = true) ∧ ((z12.m.charge 62 (z12.m.jdlCosts (q0 false 1 aH 302012024))).1 = true) ∧ ((q0 false 1 aH 302012024).space = 1) ∧ ((q0 false 1 aH 302012024).write = false) ∧ (z12.m.armed 0 ((q0 false 1 aH 302012024).addr / 25769803776) = 0) := by
  decide +kernel

/-- The clauses of DebugLink have states that meet their hypotheses. -/
theorem test_witness_DebugLink_5 :
    (z13.m.jdl.req = some (q0 true 2 (cA 3 8) 302012024)) ∧ (z13.m.clk.ticks < z13.m.jdl.issued + 200000) ∧ (z13.m.jdlInRange (q0 true 2 (cA 3 8) 302012024) = true) ∧ ((z13.m.railsUp && !z13.m.jdl.lost && (z13.m.jdlIsland (q0 true 2 (cA 3 8) 302012024) == 59 || !z13.m.pairBusy 59 (z13.m.jdlIsland (q0 true 2 (cA 3 8) 302012024)) && z13.m.armed 2 (z13.m.jdlIsland (q0 true 2 (cA 3 8) 302012024)) == 0)) = true) ∧ ((z13.m.charge 62 (z13.m.jdlCosts (q0 true 2 (cA 3 8) 302012024))).1 = true) ∧ ((q0 true 2 (cA 3 8) 302012024).space = 2) ∧ ((q0 true 2 (cA 3 8) 302012024).write = true) ∧
    (z14.m.jdl.req = some (q0 false 2 (cA 3 8) 302012024)) ∧ (z14.m.clk.ticks < z14.m.jdl.issued + 200000) ∧ (z14.m.jdlInRange (q0 false 2 (cA 3 8) 302012024) = true) ∧ ((z14.m.railsUp && !z14.m.jdl.lost && (z14.m.jdlIsland (q0 false 2 (cA 3 8) 302012024) == 59 || !z14.m.pairBusy 59 (z14.m.jdlIsland (q0 false 2 (cA 3 8) 302012024)) && z14.m.armed 2 (z14.m.jdlIsland (q0 false 2 (cA 3 8) 302012024)) == 0)) = true) ∧ ((z14.m.charge 62 (z14.m.jdlCosts (q0 false 2 (cA 3 8) 302012024))).1 = true) ∧ ((q0 false 2 (cA 3 8) 302012024).space = 2) ∧ ((q0 false 2 (cA 3 8) 302012024).write = false) ∧
    (z15.m.jdl.req = some (q0 true 3 (cA 3 589824) 302012024)) ∧ (z15.m.clk.ticks < z15.m.jdl.issued + 200000) ∧ (z15.m.jdlInRange (q0 true 3 (cA 3 589824) 302012024) = true) ∧ ((z15.m.railsUp && !z15.m.jdl.lost && (z15.m.jdlIsland (q0 true 3 (cA 3 589824) 302012024) == 59 || !z15.m.pairBusy 59 (z15.m.jdlIsland (q0 true 3 (cA 3 589824) 302012024)) && z15.m.armed 2 (z15.m.jdlIsland (q0 true 3 (cA 3 589824) 302012024)) == 0)) = true) ∧ ((z15.m.charge 62 (z15.m.jdlCosts (q0 true 3 (cA 3 589824) 302012024))).1 = true) ∧ ((q0 true 3 (cA 3 589824) 302012024).space = 3) ∧ (dataOk ((q0 true 3 (cA 3 589824) 302012024).addr / 2 ^ 32) ((q0 true 3 (cA 3 589824) 302012024).addr % 2 ^ 32) 4 = false) := by
  decide +kernel

/-- The clauses of DebugLink have states that meet their hypotheses. -/
theorem test_witness_DebugLink_6 :
    (z16.m.jdl.req = some (q0 false 3 (cA 3 589824) 302012024)) ∧ (z16.m.clk.ticks < z16.m.jdl.issued + 200000) ∧ (z16.m.jdlInRange (q0 false 3 (cA 3 589824) 302012024) = true) ∧ ((z16.m.railsUp && !z16.m.jdl.lost && (z16.m.jdlIsland (q0 false 3 (cA 3 589824) 302012024) == 59 || !z16.m.pairBusy 59 (z16.m.jdlIsland (q0 false 3 (cA 3 589824) 302012024)) && z16.m.armed 2 (z16.m.jdlIsland (q0 false 3 (cA 3 589824) 302012024)) == 0)) = true) ∧ ((z16.m.charge 62 (z16.m.jdlCosts (q0 false 3 (cA 3 589824) 302012024))).1 = true) ∧ ((q0 false 3 (cA 3 589824) 302012024).space = 3) ∧ (dataOk ((q0 false 3 (cA 3 589824) 302012024).addr / 2 ^ 32) ((q0 false 3 (cA 3 589824) 302012024).addr % 2 ^ 32) 4 = false) ∧
    (z17.m.jdl.req = some (q0 true 3 (cA 3 256) 302012024)) ∧ (z17.m.clk.ticks < z17.m.jdl.issued + 200000) ∧ (z17.m.jdlInRange (q0 true 3 (cA 3 256) 302012024) = true) ∧ ((z17.m.railsUp && !z17.m.jdl.lost && (z17.m.jdlIsland (q0 true 3 (cA 3 256) 302012024) == 59 || !z17.m.pairBusy 59 (z17.m.jdlIsland (q0 true 3 (cA 3 256) 302012024)) && z17.m.armed 2 (z17.m.jdlIsland (q0 true 3 (cA 3 256) 302012024)) == 0)) = true) ∧ ((z17.m.charge 62 (z17.m.jdlCosts (q0 true 3 (cA 3 256) 302012024))).1 = true) ∧ ((q0 true 3 (cA 3 256) 302012024).space = 3) ∧ ((q0 true 3 (cA 3 256) 302012024).write = true) ∧ (dataOk ((q0 true 3 (cA 3 256) 302012024).addr / 2 ^ 32) ((q0 true 3 (cA 3 256) 302012024).addr % 2 ^ 32) 4 = true) ∧ (isIo ((q0 true 3 (cA 3 256) 302012024).addr % 2 ^ 32) = false) := by
  decide +kernel

/-- The clauses of DebugLink have states that meet their hypotheses. -/
theorem test_witness_DebugLink_7 :
    (z18.m.jdl.req = some (q0 false 3 (cA 3 256) 302012024)) ∧ (z18.m.clk.ticks < z18.m.jdl.issued + 200000) ∧ (z18.m.jdlInRange (q0 false 3 (cA 3 256) 302012024) = true) ∧ ((z18.m.railsUp && !z18.m.jdl.lost && (z18.m.jdlIsland (q0 false 3 (cA 3 256) 302012024) == 59 || !z18.m.pairBusy 59 (z18.m.jdlIsland (q0 false 3 (cA 3 256) 302012024)) && z18.m.armed 2 (z18.m.jdlIsland (q0 false 3 (cA 3 256) 302012024)) == 0)) = true) ∧ ((z18.m.charge 62 (z18.m.jdlCosts (q0 false 3 (cA 3 256) 302012024))).1 = true) ∧ ((q0 false 3 (cA 3 256) 302012024).space = 3) ∧ ((q0 false 3 (cA 3 256) 302012024).write = false) ∧ (dataOk ((q0 false 3 (cA 3 256) 302012024).addr / 2 ^ 32) ((q0 false 3 (cA 3 256) 302012024).addr % 2 ^ 32) 4 = true) ∧ (isIo ((q0 false 3 (cA 3 256) 302012024).addr % 2 ^ 32) = false) ∧ (z18.m.armed 1 (z18.m.coreUnit ((q0 false 3 (cA 3 256) 302012024).addr / 2 ^ 32)) = 0) ∧
    (z27.m.jdl.req = some (q0 false 3 (cA 3 16777224) 302012024)) ∧ (z27.m.clk.ticks < z27.m.jdl.issued + 200000) ∧ (z27.m.jdlInRange (q0 false 3 (cA 3 16777224) 302012024) = true) ∧ ((z27.m.railsUp && !z27.m.jdl.lost && (z27.m.jdlIsland (q0 false 3 (cA 3 16777224) 302012024) == 59 || !z27.m.pairBusy 59 (z27.m.jdlIsland (q0 false 3 (cA 3 16777224) 302012024)) && z27.m.armed 2 (z27.m.jdlIsland (q0 false 3 (cA 3 16777224) 302012024)) == 0)) = true) ∧ ((z27.m.charge 62 (z27.m.jdlCosts (q0 false 3 (cA 3 16777224) 302012024))).1 = true) ∧ ((q0 false 3 (cA 3 16777224) 302012024).space = 3) ∧ (dataOk ((q0 false 3 (cA 3 16777224) 302012024).addr / 2 ^ 32) ((q0 false 3 (cA 3 16777224) 302012024).addr % 2 ^ 32) 4 = true) ∧ (isIo ((q0 false 3 (cA 3 16777224) 302012024).addr % 2 ^ 32) = true) := by
  decide +kernel

/-- The clauses of DebugLink have states that meet their hypotheses. -/
theorem test_witness_DebugLink_8 :
    (z28.m.jdl.req = some (q0 true 3 (cA 3 16777332) 302012024)) ∧ (z28.m.clk.ticks < z28.m.jdl.issued + 200000) ∧ (z28.m.jdlInRange (q0 true 3 (cA 3 16777332) 302012024) = true) ∧ ((z28.m.railsUp && !z28.m.jdl.lost && (z28.m.jdlIsland (q0 true 3 (cA 3 16777332) 302012024) == 59 || !z28.m.pairBusy 59 (z28.m.jdlIsland (q0 true 3 (cA 3 16777332) 302012024)) && z28.m.armed 2 (z28.m.jdlIsland (q0 true 3 (cA 3 16777332) 302012024)) == 0)) = true) ∧ ((z28.m.charge 62 (z28.m.jdlCosts (q0 true 3 (cA 3 16777332) 302012024))).1 = true) ∧ ((q0 true 3 (cA 3 16777332) 302012024).space = 3) ∧ (dataOk ((q0 true 3 (cA 3 16777332) 302012024).addr / 2 ^ 32) ((q0 true 3 (cA 3 16777332) 302012024).addr % 2 ^ 32) 4 = true) ∧ (isIo ((q0 true 3 (cA 3 16777332) 302012024).addr % 2 ^ 32) = true) ∧
    (z29.m.jdl.req = some (q0 false 1 aH 0)) ∧ (z29.m.clk.ticks < z29.m.jdl.issued + 200000) ∧ (z29.m.jdlInRange (q0 false 1 aH 0) = true) ∧ (z29.m.jdl.lost = true) ∧
    (z30.m.jdl.req = some (q0 false 1 aH 0)) ∧ (z30.m.clk.ticks < z30.m.jdl.issued + 200000) ∧ (z30.m.jdlInRange (q0 false 1 aH 0) = true) ∧ (z30.m.railsUp = true) ∧ (z30.m.jdl.lost = false) ∧ (z30.m.jdlIsland (q0 false 1 aH 0) ≠ 59) ∧ (z30.m.pairBusy 59 (z30.m.jdlIsland (q0 false 1 aH 0)) = false) ∧ (0 < z30.m.armed 2 (z30.m.jdlIsland (q0 false 1 aH 0))) := by
  decide +kernel

/-- The clauses of DebugLink have states that meet their hypotheses. -/
theorem test_witness_DebugLink_9 :
    (z19.m.jdl.req = some (q0 true 4 (cA 3 259) 302012024)) ∧ (z19.m.clk.ticks < z19.m.jdl.issued + 200000) ∧ (z19.m.jdlInRange (q0 true 4 (cA 3 259) 302012024) = true) ∧ ((z19.m.railsUp && !z19.m.jdl.lost && (z19.m.jdlIsland (q0 true 4 (cA 3 259) 302012024) == 59 || !z19.m.pairBusy 59 (z19.m.jdlIsland (q0 true 4 (cA 3 259) 302012024)) && z19.m.armed 2 (z19.m.jdlIsland (q0 true 4 (cA 3 259) 302012024)) == 0)) = true) ∧ ((z19.m.charge 62 (z19.m.jdlCosts (q0 true 4 (cA 3 259) 302012024))).1 = true) ∧ ((q0 true 4 (cA 3 259) 302012024).space = 4) ∧ ((q0 true 4 (cA 3 259) 302012024).write = true) ∧
    (z20.m.jdl.req = some (q0 true 4 (cA 3 48) 302012024)) ∧ (z20.m.clk.ticks < z20.m.jdl.issued + 200000) ∧ (z20.m.jdlInRange (q0 true 4 (cA 3 48) 302012024) = true) ∧ ((z20.m.railsUp && !z20.m.jdl.lost && (z20.m.jdlIsland (q0 true 4 (cA 3 48) 302012024) == 59 || !z20.m.pairBusy 59 (z20.m.jdlIsland (q0 true 4 (cA 3 48) 302012024)) && z20.m.armed 2 (z20.m.jdlIsland (q0 true 4 (cA 3 48) 302012024)) == 0)) = true) ∧ ((z20.m.charge 62 (z20.m.jdlCosts (q0 true 4 (cA 3 48) 302012024))).1 = true) ∧ ((q0 true 4 (cA 3 48) 302012024).space = 4) ∧ ((q0 true 4 (cA 3 48) 302012024).write = true) ∧
    (z21.m.jdl.req = some (q0 true 4 (cA 3 51) 302012024)) ∧ (z21.m.clk.ticks < z21.m.jdl.issued + 200000) ∧ (z21.m.jdlInRange (q0 true 4 (cA 3 51) 302012024) = true) ∧ ((z21.m.railsUp && !z21.m.jdl.lost && (z21.m.jdlIsland (q0 true 4 (cA 3 51) 302012024) == 59 || !z21.m.pairBusy 59 (z21.m.jdlIsland (q0 true 4 (cA 3 51) 302012024)) && z21.m.armed 2 (z21.m.jdlIsland (q0 true 4 (cA 3 51) 302012024)) == 0)) = true) ∧ ((z21.m.charge 62 (z21.m.jdlCosts (q0 true 4 (cA 3 51) 302012024))).1 = true) ∧ ((q0 true 4 (cA 3 51) 302012024).space = 4) ∧ ((q0 true 4 (cA 3 51) 302012024).write = true) := by
  decide +kernel

/-- The clauses of DebugLink have states that meet their hypotheses. -/
theorem test_witness_DebugLink_10 :
    (z22.m.jdl.req = some (q0 true 4 (cA 3 52) 302012024)) ∧ (z22.m.clk.ticks < z22.m.jdl.issued + 200000) ∧ (z22.m.jdlInRange (q0 true 4 (cA 3 52) 302012024) = true) ∧ ((z22.m.railsUp && !z22.m.jdl.lost && (z22.m.jdlIsland (q0 true 4 (cA 3 52) 302012024) == 59 || !z22.m.pairBusy 59 (z22.m.jdlIsland (q0 true 4 (cA 3 52) 302012024)) && z22.m.armed 2 (z22.m.jdlIsland (q0 true 4 (cA 3 52) 302012024)) == 0)) = true) ∧ ((z22.m.charge 62 (z22.m.jdlCosts (q0 true 4 (cA 3 52) 302012024))).1 = true) ∧ ((q0 true 4 (cA 3 52) 302012024).space = 4) ∧ ((q0 true 4 (cA 3 52) 302012024).write = true) ∧
    (z23.m.jdl.req = some (q0 true 4 (cA 17 50) 302012024)) ∧ (z23.m.clk.ticks < z23.m.jdl.issued + 200000) ∧ (z23.m.jdlInRange (q0 true 4 (cA 17 50) 302012024) = true) ∧ ((z23.m.railsUp && !z23.m.jdl.lost && (z23.m.jdlIsland (q0 true 4 (cA 17 50) 302012024) == 59 || !z23.m.pairBusy 59 (z23.m.jdlIsland (q0 true 4 (cA 17 50) 302012024)) && z23.m.armed 2 (z23.m.jdlIsland (q0 true 4 (cA 17 50) 302012024)) == 0)) = true) ∧ ((z23.m.charge 62 (z23.m.jdlCosts (q0 true 4 (cA 17 50) 302012024))).1 = true) ∧ ((q0 true 4 (cA 17 50) 302012024).space = 4) ∧ ((q0 true 4 (cA 17 50) 302012024).write = true) ∧
    (z24.m.jdl.req = some (q0 false 4 (cA 3 259) 302012024)) ∧ (z24.m.clk.ticks < z24.m.jdl.issued + 200000) ∧ (z24.m.jdlInRange (q0 false 4 (cA 3 259) 302012024) = true) ∧ ((z24.m.railsUp && !z24.m.jdl.lost && (z24.m.jdlIsland (q0 false 4 (cA 3 259) 302012024) == 59 || !z24.m.pairBusy 59 (z24.m.jdlIsland (q0 false 4 (cA 3 259) 302012024)) && z24.m.armed 2 (z24.m.jdlIsland (q0 false 4 (cA 3 259) 302012024)) == 0)) = true) ∧ ((z24.m.charge 62 (z24.m.jdlCosts (q0 false 4 (cA 3 259) 302012024))).1 = true) ∧ ((q0 false 4 (cA 3 259) 302012024).space = 4) ∧ ((q0 false 4 (cA 3 259) 302012024).write = false) := by
  decide +kernel

/-- The clauses of DebugLink have states that meet their hypotheses. -/
theorem test_witness_DebugLink_11 :
    (z25.m.jdl.req = some (q0 true 5 (cA 3 260) 302012024)) ∧ (z25.m.clk.ticks < z25.m.jdl.issued + 200000) ∧ (z25.m.jdlInRange (q0 true 5 (cA 3 260) 302012024) = true) ∧ ((z25.m.railsUp && !z25.m.jdl.lost && (z25.m.jdlIsland (q0 true 5 (cA 3 260) 302012024) == 59 || !z25.m.pairBusy 59 (z25.m.jdlIsland (q0 true 5 (cA 3 260) 302012024)) && z25.m.armed 2 (z25.m.jdlIsland (q0 true 5 (cA 3 260) 302012024)) == 0)) = true) ∧ ((z25.m.charge 62 (z25.m.jdlCosts (q0 true 5 (cA 3 260) 302012024))).1 = true) ∧ ((q0 true 5 (cA 3 260) 302012024).space = 5) ∧ ((q0 true 5 (cA 3 260) 302012024).write = true) ∧
    (z26.m.jdl.req = some (q0 false 5 (cA 3 266) 302012024)) ∧ (z26.m.clk.ticks < z26.m.jdl.issued + 200000) ∧ (z26.m.jdlInRange (q0 false 5 (cA 3 266) 302012024) = true) ∧ ((z26.m.railsUp && !z26.m.jdl.lost && (z26.m.jdlIsland (q0 false 5 (cA 3 266) 302012024) == 59 || !z26.m.pairBusy 59 (z26.m.jdlIsland (q0 false 5 (cA 3 266) 302012024)) && z26.m.armed 2 (z26.m.jdlIsland (q0 false 5 (cA 3 266) 302012024)) == 0)) = true) ∧ ((z26.m.charge 62 (z26.m.jdlCosts (q0 false 5 (cA 3 266) 302012024))).1 = true) ∧ ((q0 false 5 (cA 3 266) 302012024).space = 5) ∧ ((q0 false 5 (cA 3 266) 302012024).write = false) := by
  decide +kernel

end T16

namespace T17

def zw : State := up.onM fun m => { m with hostif.waiting := [.peakClr .host] }
def zb : State := (coreOf 3 up).onM fun m => m.send ⟨m.coreIsl 3, pageIsland 0, .req, none, 0, [], false, .bygone⟩
def z1 : State := w pgSys SYS_REG_SEL.REGION 5 0 up
def kQ : Nat := 4096 * pgPcie + PCIE_Q_CQ_BASE_LO.ADDR.off
def z2 : State := w pgPcie PCIE_Q_SEL.QUEUE 7 0 up
def z3 : State := (w pgPcie PCIE_Q_SEL.QUEUE 7 0 up).onM fun m => m.setHeld .host (some (kQ, 0x1234))
def z4 : State := (w pgPcie PCIE_Q_SEL.QUEUE 7 0 up).onM fun m => m.setHeld .host (some (kQ+8, 0x1234))
def z5 : State := w pgPwr PWR_SNAP_TIME_LO.TIME 99 0 (w pgPwr PWR_SNAP_TIME_HI.TIME 98 0 up)
def z6 : State := (w pgPwr PWR_SNAP_TIME_HI.TIME 98 0 up).onM fun m => m.setLatch .host (some (4096*pgPwr+0x064, 6))
def z7 : State := (w pgPwr PWR_SNAP_TIME_HI.TIME 98 0 up).onM fun m => m.setLatch .host (some (4096*pgPwr+0x070, 6))
def irq (p a b : Nat) (s : State) : State := s.onM fun m => { m with reg.irqStat := m.reg.irqStat.set 0 p a, reg.irqEn := m.reg.irqEn.set 0 p b }
def z8 : State := irq pgBud 0x100 0x300 up
def z9 : State := w pgEvt EVT_IN_EDGES_LO.EDGES 55 7 up
def z10 : State := irq pgFlt 1 1 (w pgFlt FLT_SRC_SEL.SOURCE 8 0 up)
def z11 : State := irq pgCmp 1 1 (w pgCmp COMMIT_STATUS.APPLY_COUNT 8 0 (wl pgCmp ACTIVITY_ID.ACTIVITY 3 0 up))
def z12 : State := irq pgBud 1 1 up
def wsh (p : Nat) (f : Fld) (v : Nat) (b : Nat := 0) (s : State) : State := s.onM fun m => m.wsh p f v b
def bad1 : State := wsh pgPwr PWR_TARGET.STATE 7 0 up
def zv : State := up.onM fun m => { m with reg.group := some ⟨3, [pgPwr], [pgPwr], []⟩ }
def zv2 : State := up.onM fun m => { m with reg.group := some ⟨3, [pgBud], [pgBud], []⟩ }
def z13 : State := wsh pgBud BUD_LIMIT.LIMIT 5 64 up
def z14 : State := wsh pgCmp ACTIVITY_ID.ACTIVITY 2 0 (wl pgCmp ACTIVITY_ID.ACTIVITY 3 0 up)
def pcm (_ : Nat) (sn : Store Nat) : PCommit := ⟨5, sn, [], false, true⟩
def pend (p : Nat) (sn : Store Nat) (s : State) : State := s.onM fun m => { m with reg.commits := m.reg.commits.set none p (some (pcm p sn)) }
def z15 : State := pend pgPwr [] (w pgPwr PWR_STATE.MOVING 1 0 up)
def zz : State := pend pgBud [] zv2
def z16 : State := pend pgBud [(fieldKey pgBud BUD_CTRL.ENFORCE 0, 1)] (wl pgBud BUD_LIMIT.LIMIT 5 9 up)
def z17 : State := pend pgPwr [(fieldKey pgPwr PWR_TARGET.STATE 0, 2)] (w pgPwr PWR_STATE.STATE 0 0 up)
def z18 : State := pend pgSys [(fieldKey pgSys SYS_REG_BASE.BASE 3, 2)] (w pgPwr PWR_STATE.STATE 0 0 up)
def grp (s : State) : State := w pgCmp COMMIT.GROUP 3 0 (w pgPwr COMMIT.GROUP 3 0 (w pgBud COMMIT.GROUP 3 0 s))
def gp : State := wsh pgPcie PCIE_Q_CFG.KIND 3 1 (wsh pgPcie PCIE_Q_CFG.EN 1 1 (w pgPcie COMMIT.GROUP 3 0 up))
def gg : State := w pgBud COMMIT.GROUP 3 0 (w pgPcie COMMIT.GROUP 3 0 up)
def vb : Bad := ⟨0x40, 1, 2, 0⟩
def ver (b : Option Bad) (p : Nat) (gr : GroupCommit) : State := ((pend pgPwr [] (pend pgBud [] up)).onM fun m => { m.post (pageIsland p) 36 .cpl (.verdict p b) with reg.group := some gr })
def env (b : Option Bad) (p : Nat) : Envelope := ⟨pageIsland p, 36, .cpl, none, 0, [], false, .verdict p b⟩
def gA : GroupCommit := ⟨3, [pgBud, pgPwr], [pgBud, pgPwr], []⟩
def gB : GroupCommit := ⟨3, [pgBud, pgPwr], [pgPwr], []⟩
def v1 : State := ver none pgPwr gA
def v2 : State := ver none pgPwr gB
def v3 : State := ver (some vb) pgPwr gB

/-- The clauses of RegisterAccess have states that meet their hypotheses. -/
theorem test_witness_RegisterAccess_1 :
    (rst.m.reaches Requester.host (1028 / 4096) = false) ∧
    (up.m.reaches Requester.host (4294963200 / 4096) = true) ∧ (up.m.claimed (4294963200 / 4096) = false) ∧
    (up.arrives Requester.host (1024 / 4096) = true) ∧
    (up.arrives Requester.host (1028 / 4096) = true) ∧
    (up.arrives Requester.mgt (1026 / 4096) = true) ∧ (1026 % 4 ≠ 0) ∧
    (zw.m.reaches Requester.host (1028 / 4096) = true) ∧ (zw.m.claimed (1028 / 4096) = true) ∧ (zw.m.hostWaits Requester.host (1028 / 4096) = true) ∧
    (zb.m.reaches (Requester.core 3) (1028 / 4096) = true) ∧ (zb.m.claimed (1028 / 4096) = true) ∧ (zb.m.hostWaits (Requester.core 3) (1028 / 4096) = false) ∧ (zb.m.requesterIsland (Requester.core 3) ≠ pageIsland (1028 / 4096)) ∧ (zb.m.pairBusy (zb.m.requesterIsland (Requester.core 3)) (pageIsland (1028 / 4096)) = true) ∧
    (up.arrives Requester.host (1025 / 4096) = true) ∧ (1025 % 4 ≠ 0) ∧
    (up.arrives Requester.host pgSys = true) ∧
    (z1.arrives Requester.jdl pgSys = true) ∧
    (up.arrives Requester.host pgPcie = true) ∧
    (up.arrives Requester.host pgCal = true) ∧ (Requester.host ≠ Requester.mgt) := by
  decide +kernel

/-- The clauses of RegisterAccess have states that meet their hypotheses. -/
theorem test_witness_RegisterAccess_2 :
    (up.arrives Requester.mgt pgCal = true) ∧ (2148663348 % 65536 ≠ 0) ∧ (2148663348 / 65536 % 256 ≠ 0) ∧
    (up.arrives Requester.mgt pgCal = true) ∧ (2147483648 % 65536 = 0) ∧ (2147483648 / 65536 % 256 = 0) ∧
    (z2.arrives Requester.host pgPcie = true) ∧
    (z3.arrives Requester.host pgPcie = true) ∧
    (z4.arrives Requester.host pgPcie = true) ∧
    (z5.arrives Requester.host pgPwr = true) ∧ (pageKind pgPwr = some Kind.pwr) ∧ (Kind.pwr.isLow 100 = true) ∧
    (z6.arrives Requester.host pgPwr = true) ∧ (pageKind pgPwr = some Kind.pwr) ∧ (Kind.pwr.isLow (104 - 4) = true) ∧ (Kind.pwr.isLow 104 = false) ∧ (Store.get none z6.m.reg.latch (requesterKey Requester.host) = some (4096 * pgPwr + 104 - 4, 6)) ∧
    (z7.arrives Requester.host pgPwr = true) ∧ (pageKind pgPwr = some Kind.pwr) ∧ (Kind.pwr.isLow (104 - 4) = true) ∧ (Kind.pwr.isLow 104 = false) ∧ (∀ (h : ℕ), Store.get none z7.m.reg.latch (requesterKey Requester.host) ≠ some (4096 * pgPwr + 104 - 4, h)) := by
  and_intros <;> first | decide +kernel | (intro h e; injection e with e; injection e with e _; exact absurd e (by decide +kernel))

/-- The clauses of RegisterAccess have states that meet their hypotheses. -/
theorem test_witness_RegisterAccess_3 :
    (z8.arrives Requester.host pgBud = true) ∧ (mayIrq Requester.host pgBud = true) ∧
    (z8.arrives Requester.host pgMeas = true) ∧ (mayIrq Requester.host pgMeas = false) ∧
    (z8.arrives Requester.jdl pgSaf = true) ∧ (mayIrq Requester.jdl pgSaf = false) ∧
    (z9.arrives Requester.host pgEvt = true) ∧ (pageKind pgEvt = some Kind.evt) ∧ (Kind.evt.hasCntClr = true) ∧
    (up.arrives Requester.host pgSaf = true) ∧ (up.m.mayReset Requester.host pgSaf = false) ∧
    (z10.arrives Requester.host pgFlt = true) ∧ (z10.m.mayReset Requester.host pgFlt = true) ∧
    (z11.arrives Requester.host pgCmp = true) ∧ (z11.m.mayReset Requester.host pgCmp = true) ∧
    (z12.arrives Requester.host pgBud = true) ∧ (z12.m.mayReset Requester.host pgBud = true) ∧ (pageHasShadow pgBud = true) ∧ (((z12.admitted Requester.host pgBud).m.softReset pgBud (Requester.host == Requester.mgt)).appliesAtOnce pgBud [] = false) := by
  decide +kernel

/-- The clauses of Commits have states that meet their hypotheses. -/
theorem test_witness_Commits_1 :
    (up.arrives Requester.jdl pgMgt = true) ∧ (jdlBarred Requester.jdl pgMgt = true) ∧
    (up.arrives Requester.host pgSaf = true) ∧ (jdlBarred Requester.host pgSaf = false) ∧ (Requester.host ≠ Requester.mgt) ∧
    (up.arrives Requester.host pgFlt = true) ∧ (jdlBarred Requester.host pgFlt = false) ∧ (pgFlt ≠ pgSaf) ∧ (up.m.validating pgFlt = false) ∧ (pageHasShadow pgFlt = false) ∧
    (bad1.arrives Requester.host pgPwr = true) ∧ (jdlBarred Requester.host pgPwr = false) ∧ (pgPwr ≠ pgSaf) ∧ (bad1.m.validating pgPwr = false) ∧ (pageHasShadow pgPwr = true) ∧ (((bad1.admitted Requester.host pgPwr).m.wr pgPwr COMMIT.GROUP 3).judgeSnap pgPwr (bad1.m.shadowOf pgPwr) = some { off := 64, code := 1, reason := 2, aux := 0 }) ∧
    (zv.arrives Requester.host pgPwr = true) ∧ (jdlBarred Requester.host pgPwr = false) ∧ (pgPwr ≠ pgSaf) ∧ (zv.m.validating pgPwr = true) := by
  decide +kernel

/-- The clauses of Commits have states that meet their hypotheses. -/
theorem test_witness_Commits_2 :
    (z13.arrives Requester.host pgBud = true) ∧ (jdlBarred Requester.host pgBud = false) ∧ (pgBud ≠ pgSaf) ∧ (z13.m.validating pgBud = false) ∧ (pageHasShadow pgBud = true) ∧ (((z13.admitted Requester.host pgBud).m.wr pgBud COMMIT.GROUP 3).judgeSnap pgBud (z13.m.shadowOf pgBud) = none) ∧ ((((z13.admitted Requester.host pgBud).m.wr pgBud COMMIT.GROUP 3).acceptCommit pgBud (z13.m.shadowOf pgBud) false).appliesAtOnce pgBud (z13.m.shadowOf pgBud) = false) ∧
    (z14.arrives Requester.host pgCmp = true) ∧ (jdlBarred Requester.host pgCmp = false) ∧ (pgCmp ≠ pgSaf) ∧ (z14.m.validating pgCmp = false) ∧ (pageKind pgCmp = some Kind.cmp) ∧ (((z14.admitted Requester.host pgCmp).m.wr pgCmp COMMIT.GROUP 3).judgeSnap pgCmp (z14.m.shadowOf pgCmp) = none) ∧ (z14.m.reg.shadow.sorted = true) ∧
    (Store.get none up.m.reg.commits pgBud = none) ∧
    (Store.get none z15.m.reg.commits pgPwr = some (pcm pgPwr [])) ∧ ((pcm pgPwr []).snap.sorted = true) ∧ (∀ e ∈ (pcm pgPwr []).snap, keyPage e.1 = pgPwr) ∧ (z15.m.commitDue pgPwr = false) := by
  decide +kernel

/-- The clauses of Commits have states that meet their hypotheses. -/
theorem test_witness_Commits_3 :
    (Store.get none zz.m.reg.commits pgBud = some (pcm pgBud [])) ∧ ((pcm pgBud []).snap.sorted = true) ∧ (∀ e ∈ (pcm pgBud []).snap, keyPage e.1 = pgBud) ∧ (zz.m.validating pgBud = true) ∧
    (Store.get none z16.m.reg.commits pgBud = some (pcm pgBud [(fieldKey pgBud BUD_CTRL.ENFORCE 0, 1)])) ∧ ((pcm pgBud [(fieldKey pgBud BUD_CTRL.ENFORCE 0, 1)]).snap.sorted = true) ∧ (∀ e ∈ (pcm pgBud [(fieldKey pgBud BUD_CTRL.ENFORCE 0, 1)]).snap, keyPage e.1 = pgBud) ∧ (z16.m.periodOffset.isSome = true) ∧ (z16.m.validating pgBud = false) ∧
    (Store.get none z17.m.reg.commits pgPwr = some (pcm pgPwr [(fieldKey pgPwr PWR_TARGET.STATE 0, 2)])) ∧ ((pcm pgPwr [(fieldKey pgPwr PWR_TARGET.STATE 0, 2)]).snap.sorted = true) ∧ (∀ e ∈ (pcm pgPwr [(fieldKey pgPwr PWR_TARGET.STATE 0, 2)]).snap, keyPage e.1 = pgPwr) ∧ (z17.m.rd pgPwr PWR_STATE.MOVING = 0) ∧ (z17.m.validating pgPwr = false) ∧
    (Store.get none z18.m.reg.commits pgSys = some (pcm pgSys [(fieldKey pgSys SYS_REG_BASE.BASE 3, 2)])) ∧ ((pcm pgSys [(fieldKey pgSys SYS_REG_BASE.BASE 3, 2)]).snap.sorted = true) ∧ (∀ e ∈ (pcm pgSys [(fieldKey pgSys SYS_REG_BASE.BASE 3, 2)]).snap, keyPage e.1 = pgSys) ∧
    (Store.get none up.m.reg.commits pgSys = none) ∧
    (up.arrives Requester.host pgSys = true) ∧
    (zv.arrives Requester.host pgSys = true) ∧ (zv.m.reg.group.isSome = true) := by
  decide +kernel

/-- The clauses of Commits have states that meet their hypotheses. -/
theorem test_witness_Commits_4 :
    ((grp bad1).arrives Requester.host pgSys = true) ∧ ((grp bad1).m.feature 3 = true) ∧ ((grp bad1).m.reg.group = none) ∧ (List.filter (fun p => pageIsland p != 36) (((grp bad1).admitted Requester.host pgSys).m.groupPages 3) ≠ []) ∧
    (gp.arrives Requester.host pgSys = true) ∧ (gp.m.feature 3 = true) ∧ (gp.m.reg.group = none) ∧ (List.filter (fun p => pageIsland p != 36) ((gp.admitted Requester.host pgSys).m.groupPages 3) = []) ∧ (List.filter (fun p => ((gp.admitted Requester.host pgSys).m.judgeSnap p ((gp.admitted Requester.host pgSys).m.shadowOf p)).isSome) (List.filter (fun p => pageIsland p == 36) ((gp.admitted Requester.host pgSys).m.groupPages 3)) = [pgPcie]) ∧
    (gg.arrives Requester.host pgSys = true) ∧ (gg.m.feature 3 = true) ∧ (gg.m.reg.group = none) ∧ (List.filter (fun p => pageIsland p != 36) ((gg.admitted Requester.host pgSys).m.groupPages 3) = []) ∧ (List.filter (fun p => ((gg.admitted Requester.host pgSys).m.judgeSnap p ((gg.admitted Requester.host pgSys).m.shadowOf p)).isSome) (List.filter (fun p => pageIsland p == 36) ((gg.admitted Requester.host pgSys).m.groupPages 3)) = []) ∧
    (List.find? (fun e => e.src == 57 && e.dst == 36) v1.m.net.transit = some (env none pgPwr)) ∧ ((env none pgPwr).body = Body.verdict pgPwr none) ∧ ((env none pgPwr).act = none) ∧ (v1.m.arrival 57 36 = none) ∧ (v1.m.armed 2 36 = 0) ∧ (v1.m.hostif.waiting = []) ∧ (v1.m.reg.group = some gA) ∧ (gA.waiting.erase pgPwr ≠ []) := by
  decide +kernel

/-- The clauses of Commits have states that meet their hypotheses. -/
theorem test_witness_Commits_5 :
    (List.find? (fun e => e.src == 57 && e.dst == 36) v2.m.net.transit = some (env none pgPwr)) ∧ ((env none pgPwr).body = Body.verdict pgPwr none) ∧ ((env none pgPwr).act = none) ∧ (v2.m.arrival 57 36 = none) ∧ (v2.m.armed 2 36 = 0) ∧ (v2.m.hostif.waiting = []) ∧ (v2.m.reg.group = some gB) ∧ (gB.waiting.erase pgPwr = []) ∧ (gB.refused = []) ∧
    (List.find? (fun e => e.src == 57 && e.dst == 36) v3.m.net.transit = some (env (some vb) pgPwr)) ∧ ((env (some vb) pgPwr).body = Body.verdict pgPwr (some vb)) ∧ ((env (some vb) pgPwr).act = none) ∧ (v3.m.arrival 57 36 = none) ∧ (v3.m.armed 2 36 = 0) ∧ (v3.m.hostif.waiting = []) ∧ (v3.m.reg.group = some gB) ∧ (gB.waiting.erase pgPwr = []) ∧ (gB.pages.contains pgPwr = true) := by
  decide +kernel

end T17

namespace T18

def tr (e : List Envelope) (s : State := up) : State := s.onM fun m => { m with net.transit := e }
def e1 (b : Body) (act : Option Nat := none) (rt : Bool := false) : Envelope := ⟨28, 24, .evt, act, 100, [], rt, b⟩
def x1 : Envelope := ⟨9, 24, .evt, none, 0, [], false, .storeDone 1 true⟩
def rr : RectReport := ⟨3, 5, 0, 0, 1, 6, [7]⟩
def eR (act : Option Nat) (rt : Bool) : Envelope := e1 (.rects rr) act rt
def eS : Envelope := e1 (.storeDone 1 true)
def enf : State := wl pgBud BUD_CTRL.ENFORCE 1 0 (wl pgBud BUD_LIMIT.LIMIT 0 (entryNo 28 5) up)
def armS (c i n : Nat) (s : State) : State := s.onM fun m => { m with net.injectNext := m.net.injectNext.set 0 (injectKey c i) (2 * n) }
def z1 : State := tr [x1, e1 (.rawRequest true)] (got up 28 24 (.rects rr))
def z2 : State := tr [x1, eR none true]
def z3 : State := armS 2 24 1 (tr [x1, eS])
def z4 : State := armS 2 24 4 (tr [x1, eS])
def eRr : Envelope := ⟨24, 2, .evt, none, 0, [], false, .rawRequest true⟩
def zr : State := tr [x1, eRr]
def z5 : State := got (tr [x1, eR (some 5) true] enf) 28 24 (.rects rr)
def z6 : State := tr [x1, eR (some 5) false]
def z7 : State := tr [x1, eR (some 5) false] enf
def useB : State := up.onM fun m => { m with net.used := [(entryNo 5 3, 16777219), (entryNo 5 63, 7), (entryNo 6 0, 9)], net.misfit := [(entryNo 5 3, 1)], clk.wraps := 3, clk.counting := true, clk.time := (2048 * 77 + 3) * 256 }
def zt : State := up.onM fun m => { m with clk.ticks := 5 }
def z8 : State := w pgBud BUD_PEAK.PEAK 5 77 (w pgBud BUD_USED.USED 5 77 up)
def reg3 (mask size : Nat) (s : State := up) : State := wl pgSys SYS_REG_CTRL.STACKS mask 3 (wl pgSys SYS_REG_CTRL.MAPPED 1 3 (wl pgSys SYS_REG_SIZE.SIZE size 3 (wl pgSys SYS_REG_BASE.BASE 7 3 s)))
def hq_ (ofs len : Nat) (wr : Option (List Byte)) : HbmReq := ⟨40, 3, ofs, len, wr⟩
def d70 : List Byte := (List.range 70).map (BitVec.ofNat 8 ·)
def pois (s : State) (a : Nat) : State := { s with hbm := markPoison s.hbm (s.m.region 3) a 100 }
def z9 : State := pois (reg3 5 1) 4080
def pb (dst : Nat) (s : State) : State := s.onM fun m => m.send ⟨40, dst, .req, none, 0, [], false, .bygone⟩
def zp : State := pb 32 z9
def za : State := armS 2 32 2 z9
def z10 : State := pois (reg3 5 1) 4194300
def enfH (s : State) : State := wl pgBud BUD_CTRL.ENFORCE 1 0 s
def z11 : State := enfH (reg3 5 1)
def fillH (s : State) : State := { s with hbm := writeBytes s.hbm (s.m.region 3) 4080 d70 }
def z12 : State := fillH (reg3 5 1)
def stk (t : StackSt) (rq : Option (Nat × Nat) := none) : State := (w pgFlt FLT_SRC_STATE.LATCHED 1 (channelSource 2 9) (w pgFlt FLT_REC_SYND.SYNDROME 0x333 (channelSource 2 9) up)).onM fun m => { (m.setSt 2 t) with safety.request := rq }
def wR : Repair := ⟨9, some 44, 0, 0⟩
def wR5 : Repair := ⟨9, some 44, 0, 50⟩
def wT : Repair := ⟨9, none, 0, 0⟩
def wT5 : Repair := ⟨9, none, 0, 50⟩
def z13 : State := stk ⟨[0], [], none, [wT, wR]⟩
def z14 : State := wl pgBud BUD_CTRL.ENFORCE 0 0 (stk ⟨[0], [], none, [wT, wR5]⟩ (some (7, 73)))
def z14b : State := enfH (stk ⟨[0], [], none, [wT5, wR5]⟩ (some (7, 73)))
def z14c : State := wl pgBud BUD_LIMIT.ALLOW 0 (entryNo 2 63) z14b
def z15 : State := stk ⟨[0], [], none, [wT]⟩
def z17 : State := stk ⟨[0], [], none, [wR, wT]⟩
def z18 : State := stk ⟨[0], [], some 3, [wR, wT]⟩
def z19 : State := stk ⟨[0], [], some 3, [wR]⟩
def lE : LedgerEntry := ⟨1,2,3,4,5,6,7,8,0⟩
def led (n : Nat) : State := up.onM fun m => { m with safety.unsaved := [lE, lE], safety.ledger := List.replicate n lE }

/-- The clauses of MortarAndBudgets have states that meet their hypotheses. -/
theorem test_witness_MortarAndBudgets_1 :
    ((tr [x1]).m.hostif.waiting = []) ∧ (List.find? (fun e => e.src == 28 && e.dst == 24) (tr [x1]).m.net.transit = none) ∧
    (z1.m.hostif.waiting = []) ∧ (List.find? (fun e => e.src == 28 && e.dst == 24) z1.m.net.transit = some (e1 (Body.rawRequest true))) ∧ ((z1.m.arrival 28 24).isSome = true) ∧ ((z1.deliver (e1 (Body.rawRequest true))).isSome = true) ∧
    (z3.m.hostif.waiting = []) ∧ (List.find? (fun e => e.src == 28 && e.dst == 24) z3.m.net.transit = some eS) ∧ (eS.body.isPayload = false) ∧ (z3.m.arrival 28 24 = none) ∧ (0 < z3.m.armed 2 24) ∧
    (z4.m.hostif.waiting = []) ∧ (List.find? (fun e => e.src == 28 && e.dst == 24) z4.m.net.transit = some eS) ∧ (eS.body.isPayload = false) ∧ (z4.m.arrival 28 24 = none) ∧ (0 < z4.m.armed 2 24) := by
  decide +kernel

/-- The clauses of MortarAndBudgets have states that meet their hypotheses. -/
theorem test_witness_MortarAndBudgets_2 :
    (z2.m.hostif.waiting = []) ∧ (List.find? (fun e => e.src == 28 && e.dst == 24) z2.m.net.transit = some (eR none true)) ∧ ((eR none true).body.isPayload = false) ∧ (z2.m.arrival 28 24 = none) ∧ (z2.m.armed 2 24 = 0) ∧ ((eR none true).act = none) ∧ (z2.deliver (eR none true) = none) ∧
    (zr.m.hostif.waiting = []) ∧ (List.find? (fun e => e.src == 24 && e.dst == 2) zr.m.net.transit = some eRr) ∧ (eRr.body.isPayload = false) ∧ (zr.m.arrival 24 2 = none) ∧ (zr.m.armed 2 2 = 0) ∧ (eRr.act = none) ∧ ((zr.onM fun m => m.leave 24 2).deliver eRr =   some     ((zr.onM fun m => m.leave 24 2).onM fun m =>       m.setCv 2         (let __src := m.cv 2;         { failed := __src.failed, powered := __src.powered, startTick := __src.startTick, late := __src.late, stopping := __src.stopping, entryTick := __src.entryTick, entry := __src.entry, source := __src.source, atten := __src.atten, settle := __src.settle, frames := __src.frames, injected := __src.injected, resumed := __src.resumed, preempt := __src.preempt, restart := __src.restart, inj := __src.inj, nextIndex := __src.nextIndex, msgSeq := __src.msgSeq, p12Seq := __src.p12Seq, p12Buf := __src.p12Buf, p12Hold := __src.p12Hold, startFlag := __src.startFlag, lastOvr := __src.lastOvr, limFrom := __src.limFrom, flagged := __src.flagged, entries := __src.entries, rawOn := true, eqTable := __src.eqTable, slices := __src.slices, calSlice := __src.calSlice, position := __src.position, readyTick := __src.readyTick, inRange := __src.inRange, matched := __src.matched, bg := __src.bg, step := __src.step, fgTick := __src.fgTick, fgStart := __src.fgStart, stepAt := __src.stepAt, fullTicks := __src.fullTicks, ended := __src.ended, unlocked := __src.unlocked, pauseTemp := __src.pauseTemp, quiet := __src.quiet, passed := __src.passed, rfLeak := __src.rfLeak, startupRun := __src.startupRun, before := __src.before, pauseLeft := __src.pauseLeft, tableNew := __src.tableNew, cutStop := __src.cutStop, result := __src.result, stored := __src.stored, corr := __src.corr, storedGen := __src.storedGen, resumeAt := __src.resumeAt, substDue := __src.substDue, jumped := __src.jumped }))) ∧ (((zr.onM fun m => m.leave 24 2).onM fun m =>           m.setCv 2             (let __src := m.cv 2;             { failed := __src.failed, powered := __src.powered, startTick := __src.startTick, late := __src.late, stopping := __src.stopping, entryTick := __src.entryTick, entry := __src.entry, source := __src.source, atten := __src.atten, settle := __src.settle, frames := __src.frames, injected := __src.injected, resumed := __src.resumed, preempt := __src.preempt, restart := __src.restart, inj := __src.inj, nextIndex := __src.nextIndex, msgSeq := __src.msgSeq, p12Seq := __src.p12Seq, p12Buf := __src.p12Buf, p12Hold := __src.p12Hold, startFlag := __src.startFlag, lastOvr := __src.lastOvr, limFrom := __src.limFrom, flagged := __src.flagged, entries := __src.entries, rawOn := true, eqTable := __src.eqTable, slices := __src.slices, calSlice := __src.calSlice, position := __src.position, readyTick := __src.readyTick, inRange := __src.inRange, matched := __src.matched, bg := __src.bg, step := __src.step, fgTick := __src.fgTick, fgStart := __src.fgStart, stepAt := __src.stepAt, fullTicks := __src.fullTicks, ended := __src.ended, unlocked := __src.unlocked, pauseTemp := __src.pauseTemp, quiet := __src.quiet, passed := __src.passed, rfLeak := __src.rfLeak, startupRun := __src.startupRun, before := __src.before, pauseLeft := __src.pauseLeft, tableNew := __src.tableNew, cutStop := __src.cutStop, result := __src.result, stored := __src.stored, corr := __src.corr, storedGen := __src.storedGen, resumeAt := __src.resumeAt, substDue := __src.substDue, jumped := __src.jumped })).m.hostif.waiting =   []) := by
  decide +kernel

/-- The clauses of MortarAndBudgets have states that meet their hypotheses. -/
theorem test_witness_MortarAndBudgets_3 :
    (z5.m.hostif.waiting = []) ∧ (List.find? (fun e => e.src == 28 && e.dst == 24) z5.m.net.transit = some (eR (some 5) true)) ∧ ((eR (some 5) true).body.isPayload = false) ∧ (z5.deliver (eR (some 5) true) = none) ∧ (z5.m.armed 2 24 = 0) ∧ ((eR (some 5) true).act = some 5) ∧ ((z5.m.charge 5 ((eR (some 5) true).costs z5.m)).1 = false) ∧ ((eR (some 5) true).realTime = true) ∧ ((eR (some 5) true).body = Body.rects rr) ∧
    (z6.m.hostif.waiting = []) ∧ (List.find? (fun e => e.src == 28 && e.dst == 24) z6.m.net.transit = some (eR (some 5) false)) ∧ ((eR (some 5) false).body.isPayload = false) ∧ (z6.m.arrival 28 24 = none) ∧ (z6.m.armed 2 24 = 0) ∧ ((eR (some 5) false).act = some 5) ∧ ((z6.m.charge 5 ((eR (some 5) false).costs z6.m)).1 = true) ∧ (z6.deliver (eR (some 5) false) = none) := by
  decide +kernel

/-- The clauses of MortarAndBudgets have states that meet their hypotheses. -/
theorem test_witness_MortarAndBudgets_4 :
    (z7.m.hostif.waiting = []) ∧ (List.find? (fun e => e.src == 28 && e.dst == 24) z7.m.net.transit = some (eR (some 5) false)) ∧ ((eR (some 5) false).body.isPayload = false) ∧ (z7.m.arrival 28 24 = none) ∧ (z7.m.armed 2 24 = 0) ∧ ((eR (some 5) false).act = some 5) ∧ ((z7.m.charge 5 ((eR (some 5) false).costs z7.m)).1 = false) ∧ ((eR (some 5) false).realTime = false) ∧
    (zt.m.periodDue 5 = false) ∧
    (useB.m.periodDue 5 = true) ∧ (useB.m.net.held = []) ∧ (useB.m.net.writes = []) ∧ (useB.m.hostif.waiting = []) ∧ (useB.m.hostif.window = []) ∧ (5 < 4 → (useB.m.st 5).waiting = []) ∧
    (z8.arrives Requester.host pgBud = true) := by
  decide +kernel

/-- The clauses of HbmAndLedger have states that meet their hypotheses. -/
theorem test_witness_HbmAndLedger_1 :
    (zp.m.pairBusy 40 (32 + (zp.m.region 3).stackOf (hq_ 4080 0 (some d70)).ofs) = true) ∧
    (za.m.pairBusy 40 (32 + (za.m.region 3).stackOf (hq_ 4080 9 none).ofs) = false) ∧ (0 < za.m.armed 2 (32 + (za.m.region 3).stackOf (hq_ 4080 9 none).ofs)) ∧
    (z9.m.pairBusy 40 (32 + (z9.m.region 3).stackOf (hq_ 4080 0 (some d70)).ofs) = false) ∧ (z9.m.armed 2 (32 + (z9.m.region 3).stackOf (hq_ 4080 0 (some d70)).ofs) = 0) ∧ ((z9.m.charge 5 (hbmCosts (hq_ 4080 0 (some d70)) z9.m)).1 = true) ∧ ((hq_ 4080 0 (some d70)).write = some d70) ∧
    (z10.m.pairBusy 40 (32 + (z10.m.region 3).stackOf (hq_ 4194300 0 (some d70)).ofs) = false) ∧ (z10.m.armed 2 (32 + (z10.m.region 3).stackOf (hq_ 4194300 0 (some d70)).ofs) = 0) ∧ ((z10.m.charge 5 (hbmCosts (hq_ 4194300 0 (some d70)) z10.m)).1 = true) ∧ ((hq_ 4194300 0 (some d70)).write = some d70) ∧
    (z11.m.pairBusy 40 (32 + (z11.m.region 3).stackOf (hq_ 4080 0 (some d70)).ofs) = false) ∧ (z11.m.armed 2 (32 + (z11.m.region 3).stackOf (hq_ 4080 0 (some d70)).ofs) = 0) ∧ ((z11.m.charge 40 (hbmCosts (hq_ 4080 0 (some d70)) z11.m)).1 = false) ∧
    (z11.m.pairBusy 40 (32 + (z11.m.region 3).stackOf (hq_ 4080 9 none).ofs) = false) ∧ (z11.m.armed 2 (32 + (z11.m.region 3).stackOf (hq_ 4080 9 none).ofs) = 0) ∧ ((z11.m.charge 40 (hbmCosts (hq_ 4080 9 none) z11.m)).1 = false) ∧
    (z12.m.pairBusy 40 (32 + (z12.m.region 3).stackOf (hq_ 4194300 50 none).ofs) = false) ∧ (z12.m.armed 2 (32 + (z12.m.region 3).stackOf (hq_ 4194300 50 none).ofs) = 0) ∧ ((z12.m.charge 40 (hbmCosts (hq_ 4194300 50 none) z12.m)).1 = true) ∧ ((hq_ 4194300 50 none).write = none) ∧ (∀ (st : Fin 4), z12.m.armed 0 ↑st = 0) := by
  decide +kernel

/-- The clauses of HbmAndLedger have states that meet their hypotheses. -/
theorem test_witness_HbmAndLedger_2 :
    (z12.m.pairBusy 40 (32 + (z12.m.region 3).stackOf (hq_ 4085 50 none).ofs) = false) ∧ (z12.m.armed 2 (32 + (z12.m.region 3).stackOf (hq_ 4085 50 none).ofs) = 0) ∧ ((z12.m.charge 40 (hbmCosts (hq_ 4085 50 none) z12.m)).1 = true) ∧ ((hq_ 4085 50 none).write = none) ∧ (∀ (st : Fin 4), z12.m.armed 0 ↑st = 0) ∧ (Ecc.single ≠ Ecc.clean) ∧ ((z12.m.region 3).holds (hq_ 4085 50 none).ofs (hq_ 4085 50 none).len = true) ∧ (0 < (hq_ 4085 50 none).len) ∧
    (z12.m.pairBusy 40 (32 + (z12.m.region 3).stackOf (hq_ 4085 50 none).ofs) = false) ∧ (z12.m.armed 2 (32 + (z12.m.region 3).stackOf (hq_ 4085 50 none).ofs) = 0) ∧ ((z12.m.charge 40 (hbmCosts (hq_ 4085 50 none) z12.m)).1 = true) ∧ ((hq_ 4085 50 none).write = none) ∧ (∀ (st : Fin 4), z12.m.armed 0 ↑st = 0) ∧ (Ecc.double ≠ Ecc.clean) ∧ ((z12.m.region 3).holds (hq_ 4085 50 none).ofs (hq_ 4085 50 none).len = true) ∧ (0 < (hq_ 4085 50 none).len) ∧
    ((z13.m.st 2).order 9 true = some wR) ∧ (wR.left = 0) ∧
    ((z14.m.st 2).order 9 true = some wR5) ∧ (z14.m.enforcing = false) := by
  decide +kernel

/-- The clauses of HbmAndLedger have states that meet their hypotheses. -/
theorem test_witness_HbmAndLedger_3 :
    ((z14c.m.st 2).order 9 true = some wR5) ∧ (z14c.m.enforcing = true ∧ z14c.m.lv pgBud BUD_LIMIT.ALLOW (entryNo 2 63) ≠ 1) ∧ (wR5.left ≠ 0) ∧
    ((z15.m.st 2).order 9 true = none) ∧
    ((z17.m.st 2).order 9 false = some wT) ∧ ((z17.m.st 2).canRetire 9 = true) ∧ (wT.left = 0) ∧
    ((z14c.m.st 2).order 9 false = some wT5) ∧ ((z14c.m.st 2).canRetire 9 = true) ∧ (z14c.m.enforcing = true ∧ z14c.m.lv pgBud BUD_LIMIT.ALLOW (entryNo 2 63) ≠ 1) ∧ (wT5.left ≠ 0) ∧
    ((z18.m.st 2).order 9 false = some wT) ∧ ((z18.m.st 2).canRetire 9 = false) ∧
    ((z19.m.st 2).order 9 false = none) ∧
    (up.m.safety.unsaved = []) ∧
    ((led 16384).m.safety.unsaved = [lE, lE]) ∧
    ((led 4).m.safety.unsaved = [lE, lE]) ∧ ((led 4).m.safety.ledger.length < 16384) ∧
    ((led 3).m.safety.unsaved = [lE, lE]) ∧ ((led 3).m.safety.ledger.length < 16384) := by
  decide +kernel

end T18

namespace T19

def off_ : State := rst.onM fun m => { m with power.vin := false }
def tk : State := up.onM fun m => { m with clk.counting := true, clk.ticks := 1999999999 }

/-- The clauses of FrontCommand have states that meet their hypotheses. -/
theorem test_witness_FrontCommand :
    (tk.m.power.vin = true) ∧
    (rst.m.power.vin = true) ∧
    (off_.m.power.vin = false) := by
  decide +kernel

end T19

namespace T20

def onWd (x : Nat) (f : Wide → Wide) (s : State) : State := s.onM fun m => m.setWd x (f (m.wd x))
def onBk (n : Nat) (f : BrickSt → BrickSt) (s : State) : State := s.onM fun m => m.setBk n (f (m.bk n))
def onCrs (n : Nat) (f : CourseSt → CourseSt) (s : State) : State := s.onM fun m => m.setCrs n (f (m.crs n))
def wcfg : WteCfg := ⟨4, 0, 0, 0, [], true, false, 1, 2, 5, false, 0, 0, 0, 0, 0, 0⟩
def grid1 : Grid := ⟨wcfg, 1024, 1, none, false, false⟩
def sGrid : State := onWd 1 (fun w => { w with grids := [grid1], feed.got := [⟨1000, 1100⟩] }) up
def sFeed : State := w (pgChn 1) CTRL.ENABLE 1 0 (onWd 1 (fun w => { w with subs := [(routeKey 5 9, 1)], feed := { w.feed with got := [⟨0, 2200⟩], nextIdx := 2201, endAt := some 2200 } }) up)
def z4 : State := got sFeed 13 5 (.subscribe 9 80)
def z5 : State := got sFeed 13 5 (.unsubscribe 9 80)
def z6 : State := got sFeed 13 5 (.unsubscribe 10 80)
def bcfg : BrickCfg := ⟨3, 0, 3, 0, 200000000, 0, 1, true, 1, false, 3, 0, 0, 0, 1, 8, true, 1, 0⟩
def bgrid : BrickGrid := ⟨bcfg, 0, 0, none, false, false, false, 0⟩
def sBrk : State := onBk 17 (fun b => { b with grids := [bgrid], iqs := [{ bgrid with stop := some 16 }], got := [⟨0, 700⟩], emitFrom := some 0 }) ((wl (pgBrk 17) BRK_ROLE.ROLE 3 0 (wl (pgBrk 17) BRK_SPAN.SPAN 200000000 0 (wl (pgBrk 17) BRK_SPEC_CFG.DEST 1 0 (wl (pgBrk 17) BRK_IQ_CFG.DEST 1 0 up)))))
def bover : BrickGrid := { bgrid with next := 9, stop := some 9 }
def sOver : State := onBk 17 (fun b => { b with grids := [bover] }) sBrk
def open_ : BrickGrid × Nat × Nat × Nat × Bool := ((sBrk.m.bk 17).openIq).getD (bgrid, 0, 0, 0, false)
def sIqt : State := (onBk 17 (fun b => { b with iqSince := some 5 }) sBrk).onM fun m => { m with clk.ticks := 2097157 }
def z7 : State := got sBrk 26 9 (.emitStart 0 17 0 4096)
def z8 : State := got sBrk 26 9 (.emitStart 0 17 3 4096)
def z9 : State := got sBrk 26 9 (.emitStop 0 17 0 4096)
def z10 : State := got sBrk 9 26 (.staleRole 2 17 0 1 1)
def z11 : State := got sBrk 9 26 (.roleChange 17 3 1 2)
def sSw : State := onBk 17 (fun b => { b with switching := some 5 }) up
def sSwOn : State := wl (pgBrk 17) BRK_ROLE.ROLE 1 0 (w (pgCrs 0) CRS_STATUS.RUN_STATE 2 0 sSw)
def z12 : State := got sSwOn 9 24 (.switchReq 0 17 77)
def z13 : State := onCrs 0 (fun c => { c with waiting := [(17, 77, 3)] }) (sSwOn.onM fun m => { m with clk.ticks := 200000003 })
def z14 : State := got sSwOn 24 9 (.switchGrant 0 17 0 4096)
def z15 : State := (onCrs 4 (fun c => { c with startTick := some 4096 }) (w (pgCrs 4) CRS_STATUS.RUN_STATE 1 0 up)).onM fun m => { m with clk.time := 4096 * 256 }
def z16 : State := (onCrs 4 (fun c => { c with stopTick := some 4096 }) (w (pgCrs 4) CRS_STATUS.RUN_STATE 2 0 up)).onM fun m => { m with clk.time := 4096 * 256 }
def z17 : State := got up 56 27 (.genNotice 3 2 9)
def iq1 : IqMsg := ⟨0, 0, 17, 0, 0, 0, 4, 1, 4, true, 0, 0, 0, [], [], ⟨[], []⟩⟩
def z18 : State := got sBrk 24 9 (.replayData iq1)
def sPlay : State := up.onM fun m => { m with play.out := [(17, 4)], play.queue := [(17, [iq1])] }
def z19 : State := got sPlay 9 24 (.replayCredit 17)
def sPace : State := (wl (pgCrs 4) CRS_REPLAY.PACE 1 0 (wl (pgBrk 17) BRK_ROLE.ROLE 4 0 (wl (pgBrk 17) BRK_ROLE.COURSE 4 0 up))).onM fun m => { m with play.first := some 0, play.queue := [(17, [iq1])] }
def sSegs : State := w (pgCrs 4) CRS_STATUS.RUN_STATE 2 0 (wl pgAcq ACQ_REPLAY_COUNT.SEGMENTS 2 0 (wl pgAcq ACQ_REPLAY_CFG.EN 1 0 up))
def sZero : State := w (pgCrs 4) CRS_STATUS.RUN_STATE 2 0 (wl pgAcq ACQ_REPLAY_COUNT.SEGMENTS 0 0 (wl pgAcq ACQ_REPLAY_CFG.EN 1 0 up))

/-- The clauses of WidebandFrames have states that meet their hypotheses. -/
theorem test_witness_WidebandFrames :
    ((sGrid.m.wd 1).grids = [grid1]) ∧ (grid1.open_ = true) ∧ (inRun (sGrid.m.wd 1).feed.got { lo := grid1.start, hi := grid1.start + grid1.cfg.size - 1 } = true) := by
  decide +kernel

/-- The clauses of Subbands have states that meet their hypotheses. -/
theorem test_witness_Subbands :
    ((sFeed.m.wd 1).nextMsg (routeKey 5 9) = some (1024, 1152)) ∧ (sFeed.m.routeOpen 1 (routeKey 5 9) = true) ∧
    (z4.m.arrival (8 + 5) (4 + 1) = some (Body.subscribe 9 80)) ∧
    (z5.m.arrival (8 + 5) (4 + 1) = some (Body.unsubscribe 9 80)) ∧ (Store.get 0 (z5.m.wd 1).subs (routeKey 5 9) ≠ 0) ∧
    (z6.m.arrival (8 + 5) (4 + 1) = some (Body.unsubscribe 10 80)) ∧ (Store.get 0 (z6.m.wd 1).subs (routeKey 5 10) = 0) := by
  decide +kernel

/-- The clauses of BrickOutputs have states that meet their hypotheses. -/
theorem test_witness_BrickOutputs :
    (sBrk.m.rd (pgBrk 17) BRK_STATUS.FAILED = 0) ∧ ((sBrk.m.bk 17).grids = [bgrid]) ∧ (bgrid.holds bgrid.next = true) ∧ (bgrid.ready (sBrk.m.bk 17).got = some (((bgrid.ready [{ lo := 0, hi := 700 }]).getD (0, 0)).1, ((bgrid.ready [{ lo := 0, hi := 700 }]).getD (0, 0)).2)) ∧ (bgrid.holds ((bgrid.ready [{ lo := 0, hi := 700 }]).getD (0, 0)).1 = true) ∧
    (sOver.m.rd (pgBrk 17) BRK_STATUS.FAILED = 0) ∧ ((sOver.m.bk 17).grids = [bover]) ∧ (bover.holds bover.next = false) ∧
    (sBrk.m.rd (pgBrk 17) BRK_STATUS.FAILED = 0) ∧ ((sBrk.m.bk 17).openIq = some (open_.1, open_.2.1, open_.2.2.1, open_.2.2.2.1, open_.2.2.2.2)) ∧ (open_.2.2.2.2 = true) ∧
    (sIqt.m.rd (pgBrk 17) BRK_STATUS.FAILED = 0) ∧ ((sIqt.m.bk 17).openIq = some (open_.1, open_.2.1, open_.2.2.1, open_.2.2.2.1, open_.2.2.2.2)) ∧ ((sIqt.m.bk 17).iqSince = some 5) ∧ (5 + 2097152 ≤ sIqt.m.clk.ticks) := by
  decide +kernel

/-- The clauses of EpochChecks have states that meet their hypotheses. -/
theorem test_witness_EpochChecks :
    (Store.get none z7.m.reg.commits (pgBrk 17) = none) ∧ (z7.m.arrival (24 + 2) (8 + 1) = some (Body.emitStart 0 17 0 4096)) ∧ (0 = z7.m.rd (pgBrk 17) BRK_EPOCH.EPOCH) ∧ (z7.m.rd (pgBrk 17) BRK_STATUS.FAILED ≠ 1) ∧
    (Store.get none z8.m.reg.commits (pgBrk 17) = none) ∧ (z8.m.arrival (24 + 2) (8 + 1) = some (Body.emitStart 0 17 3 4096)) ∧ (3 ≠ z8.m.rd (pgBrk 17) BRK_EPOCH.EPOCH) ∧
    (Store.get none z9.m.reg.commits (pgBrk 17) = none) ∧ (z9.m.arrival (24 + 2) (8 + 1) = some (Body.emitStop 0 17 0 4096)) ∧ (0 = z9.m.rd (pgBrk 17) BRK_EPOCH.EPOCH) ∧ (z9.m.rd (pgBrk 17) BRK_STATUS.FAILED ≠ 1) ∧
    (Store.get none z10.m.reg.commits (pgBrk 17) = none) ∧ (z10.m.arrival (8 + 1) (24 + 2) = some (Body.staleRole 2 17 0 1 1)) ∧
    (Store.get none z11.m.reg.commits (pgBrk 17) = none) ∧ (z11.m.arrival (8 + 1) (24 + 2) = some (Body.roleChange 17 3 1 2)) := by
  decide +kernel

/-- The clauses of SpareBricks have states that meet their hypotheses. -/
theorem test_witness_SpareBricks :
    (List.find? (fun n => (sSw.m.bk n).switching.isSome) (clusterBricks 1) = some 17) ∧ ((sSw.m.brickCfg 17).role = 0) ∧
    (List.find? (fun n => (sSwOn.m.bk n).switching.isSome) (clusterBricks 1) = some 17) ∧ ((sSwOn.m.brickCfg 17).role ≠ 0) ∧ (sSwOn.m.rd (pgCrs (sSwOn.m.brickCfg 17).course) CRS_STATUS.RUN_STATE ≠ 0) ∧
    (z12.m.arrival (8 + 1) (24 + 0) = some (Body.switchReq 0 17 77)) ∧ ((z12.m.crs 0).waiting = []) ∧ (z12.m.segmentHolds 0 17 = false) ∧
    ((z13.m.crs (z13.m.brickCfg 17).course).waiting = [(17, 77, 3)]) ∧ (3 + z13.m.lv (pgCrs (z13.m.brickCfg 17).course) CRS_SWITCH_TIMEOUT.MS * 2000000 ≤ z13.m.clk.ticks) ∧
    (z14.m.arrival (24 + 0) (8 + 1) = some (Body.switchGrant 0 17 (z14.m.rd (pgBrk 17) BRK_EPOCH.EPOCH) 4096)) ∧ (Store.get none z14.m.reg.commits (pgBrk 17) = none) ∧ (z14.m.rd (pgBrk 17) BRK_STATUS.FAILED ≠ 1) := by
  decide +kernel

/-- The clauses of CourseRuns have states that meet their hypotheses. -/
theorem test_witness_CourseRuns :
    (z15.m.courseState 4 = 1) ∧ ((z15.m.crs 4).startTick = some 4096) ∧ (4096 ≤ z15.m.tick) ∧
    ((z16.m.crs 4).stopTick = some 4096) ∧ (4096 ≤ z16.m.tick) ∧
    (z17.m.arrival 56 (24 + 3) = some (Body.genNotice 3 2 9)) := by
  decide +kernel

/-- The clauses of Replay have states that meet their hypotheses. -/
theorem test_witness_Replay_1 :
    (z18.m.arrival 24 (8 + 1) = some (Body.replayData iq1)) ∧ (iq1.epoch = z18.m.rd (pgBrk iq1.brick) BRK_EPOCH.EPOCH) ∧ (Store.get none z18.m.reg.commits (pgBrk iq1.brick) = none) ∧ (z18.m.rd (pgBrk iq1.brick) BRK_STATUS.FAILED ≠ 1) ∧
    (z19.m.arrival (8 + 1) 24 = some (Body.replayCredit 17)) ∧ (z19.m.lv (pgCrs 4) CRS_REPLAY.PACE = 0) ∧ (Store.get 0 z19.m.play.out 17 = 4) ∧ (Store.get [] z19.m.play.queue 17 = [iq1]) ∧
    (sPace.m.lv (pgCrs 4) CRS_REPLAY.PACE = 1) ∧ (sPace.m.members 4 = [17]) ∧ (Store.get 0 sPace.m.play.out 17 = 0) ∧ (Store.get [] sPace.m.play.queue 17 = [iq1]) ∧ (sPace.m.play.first = some iq1.stamp) ∧
    (sSegs.m.rd (pgCrs 4) CRS_STATUS.RUN_STATE = 2) ∧ (sSegs.m.lv pgAcq ACQ_REPLAY_CFG.EN ≠ 0) ∧ (sSegs.m.rd pgAcq ACQ_REPLAY_POS.DONE ≠ 1) ∧ (((sSegs.m.members 4).all fun k => Store.get [] sSegs.m.play.queue k == []) = true) ∧ (sSegs.m.play.next < sSegs.m.lv pgAcq ACQ_REPLAY_COUNT.SEGMENTS) ∧ ((sSegs.m.letThrough replayUnit (sSegs.m.lv pgAcq ACTIVITY_ID.ACTIVITY) ((sSegs.m.region (sSegs.m.lv pgAcq ACQ_REPLAY_CFG.REGION)).readMsgs 24 ((sSegs.m.lv pgAcq ACQ_REPLAY_FIRST.SEGMENT + sSegs.m.play.next) * sSegs.m.replaySegBytes (sSegs.m.lv pgAcq ACQ_REPLAY_CFG.REGION)) 128 ++ List.flatMap (fun o => (sSegs.m.region (sSegs.m.lv pgAcq ACQ_REPLAY_CFG.REGION)).readMsgs 24 o 1104) (if (replayHead ((sSegs.m.lv pgAcq ACQ_REPLAY_FIRST.SEGMENT + sSegs.m.play.next) * sSegs.m.replaySegBytes (sSegs.m.lv pgAcq ACQ_REPLAY_CFG.REGION)) (readBytes sSegs.hbm (sSegs.m.region (sSegs.m.lv pgAcq ACQ_REPLAY_CFG.REGION)) ((sSegs.m.lv pgAcq ACQ_REPLAY_FIRST.SEGMENT + sSegs.m.play.next) * sSegs.m.replaySegBytes (sSegs.m.lv pgAcq ACQ_REPLAY_CFG.REGION)) 128)).1 = true then (replayHead ((sSegs.m.lv pgAcq ACQ_REPLAY_FIRST.SEGMENT + sSegs.m.play.next) * sSegs.m.replaySegBytes (sSegs.m.lv pgAcq ACQ_REPLAY_CFG.REGION)) (readBytes sSegs.hbm (sSegs.m.region (sSegs.m.lv pgAcq ACQ_REPLAY_CFG.REGION)) ((sSegs.m.lv pgAcq ACQ_REPLAY_FIRST.SEGMENT + sSegs.m.play.next) * sSegs.m.replaySegBytes (sSegs.m.lv pgAcq ACQ_REPLAY_CFG.REGION)) 128)).2 else []))).1 = true) := by
  decide +kernel

/-- The clauses of Replay have states that meet their hypotheses. -/
theorem test_witness_Replay_2 :
    (sZero.m.rd (pgCrs 4) CRS_STATUS.RUN_STATE = 2) ∧ (sZero.m.lv pgAcq ACQ_REPLAY_CFG.EN ≠ 0) ∧ (sZero.m.rd pgAcq ACQ_REPLAY_POS.DONE ≠ 1) ∧ (((sZero.m.members 4).all fun k => Store.get [] sZero.m.play.queue k == []) = true) ∧ (sZero.m.lv pgAcq ACQ_REPLAY_COUNT.SEGMENTS = 0) := by
  decide +kernel

end T20

/-! ## Hypotheses of the statements about steps -/

namespace Step

/-- A step from reset answers a next state. -/
theorem test_witness_StepInvariants :
    State.reset.hbm.wf = true ∧ State.reset.m.safety.ledger.length ≤ 16384 ∧ ∃ t, step State.reset = .next t :=
  ⟨by decide, by decide, _, rfl⟩

/-- A full ledger: the first clause of HbmAndLedger about LEDGER_APPEND. -/
theorem test_witness_full_ledger : 16384 ≤ (T18.led 16384).m.safety.ledger.length :=
  Nat.le_of_eq (List.length_replicate (n := 16384) (a := T18.lE)).symm

/-- Canonical memories that read alike. -/
theorem test_witness_CanonicalEqual :
    (⟨[(3, 5)], [(0, 1)]⟩ : Hbm).wf = true ∧ (∀ a, (⟨[(3, 5)], []⟩ : Hbm).byte a = (⟨[(3, 5)], []⟩ : Hbm).byte a)
      ∧ (⟨[(3, 0)], []⟩ : Hbm).wf = false ∧ (⟨[(4, 1), (3, 1)], []⟩ : Hbm).wf = false :=
  ⟨by decide, fun _ => rfl, by decide, by decide⟩

end Step

/-! ## WellFormed: an ill-formed term for each check -/

namespace Forms

def off (a : Int) : MemOp := ⟨0, 1, a⟩
def bytes (n : Nat) : List Byte := List.replicate n 0

theorem test_wf_refuses_accesses : ([
    .registerWrite .host 0 0 0, .registerWrite .host 0 9 0, .registerWrite .host (2 ^ 26 - 3) 4 0, .reg64LowRead .host ⟨2 ^ 26, 4⟩,
    .reg64HighRead .host ⟨0, 9⟩, .reg64HighWrite .host (2 ^ 26) 0, .reg64LowWrite .host (2 ^ 26) 0, .commitGo .host 16384 0,
    .commitApplied 16384, .softReset .host 16384, .irqForce .host 16384 0, .irqStatusClear .host 16384 0,
    .cntClr .host 16384, .mgtRegisterWrite (2 ^ 26) 0 true, .mgtRegisterRead (2 ^ 26) true false] : List Instr).all
      (fun c => !c.wf) = true := by decide

theorem test_wf_refuses_data : ([
    .hbmAccess ⟨4, 0, 0, 1, some []⟩ 0 .clean, .hbmAccess ⟨4, 0, 0, 1, some [1, 2]⟩ 0 .clean, .hbmAccess ⟨4, 0, 0, 0, none⟩ 0 .clean,
    .sampleMessage 0 [], .monitorUpdate 0 0 [1], .monitorUpdate 0 0 [32768, 0, 0, 0, 0, 0, 0, 0],
    .pwrDetUpdate 0 32768, .pwrDetUpdate 0 (-32769), .hpdChange true (bytes 127) false, .hpdChange true (bytes 1152) false,
    .bar2Write 0 [], .bar2Write 0 (bytes 513), .bar2Write 4095 (bytes 2), .bar2Read 0 0, .bar2Read 1 4096,
    .linkChange true 3 1 1 false, .linkChange true 4 3 1 false, .linkChange true 4 8 1 false, .linkChange true 4 4 0 false,
    .linkChange true 4 4 7 false, .mount .host ⟨[bytes 63], []⟩, .descriptorFetch 0 (some (bytes 31))] : List Instr).all
      (fun c => !c.wf) = true := by decide +kernel

theorem test_wf_refuses_core : ([
    .ldW (qq 0) 0 (off 65536) .clean, .ldH (qq 0) 0 (off (-65537)) .clean, .ldHu (qq 0) 0 ⟨1, 1, 4⟩ .clean, .stW (qq 0) 0 (off 65536),
    .stH (qq 0) 0 ⟨2, 1, 4⟩, .b (qq 0) 0 2097152, .call (qq 0) (-2097153), .dbnz (qq 0) 0 2097152] : List Instr).all
      (fun c => !c.wf) = true := by decide

theorem test_wf_accepts : ([
    .registerWrite .host (2 ^ 26 - 4) 4 0, .commitGo .host 16383 0, .hbmAccess ⟨4, 0, 0, 2, some [1, 2]⟩ 0 .clean,
    .mount .host ⟨[bytes 64], []⟩, .descriptorFetch 0 (some (bytes 32)), .ldW (qq 0) 0 (off 65535) .clean, .stH (qq 0) 0 ⟨2, 1, 0⟩,
    .b (qq 0) 0 (-2097152), .linkChange false 0 0 0 false, .bar2Write 0 (bytes 512),
    .monitorUpdate 0 0 [32767, -32768, 0, 0, 0, 0, 0, 0]] : List Instr).all Instr.wf = true := by decide +kernel

/-- No row of the table gives bits, so no word spells a command. -/
theorem test_no_word : decodeTableWord 32 0xFFFFFFFF = none := rfl

end Forms

/-! ## Results worked out by hand or given by the spec -/

namespace Results

/-- A next state's value. -/
def after {α : Type} (c : Instr) (s : State) (f : State → α) : Option α :=
  match exec c s with
  | .next t => some (f t)
  | _ => none

/-- Core 5 of the chapter's FIR: 16 products of 2^57 make acc0 2^61, and EXTR.S by 31 gives 2^30. -/
def firCore (acc : Nat) : State :=
  wd 5 (wordA 0x18 0 3 0 31 true) (onCr 5 (fun k => { k with acc := [(0, acc)], seen := [(0, acc)] }) (run_ 5 up))

/-- spec/13, Worked example. -/
theorem test_extr_fir : after (.extr (qq 5) 0 3 31 true) (firCore (2 ^ 61)) (fun t => (t.m.cr 5).reg 3) = some 0x40000000 := by
  decide +kernel

/-- spec/13, Worked example: without tap 0. -/
theorem test_extr_fir_early :
    after (.extr (qq 5) 0 3 31 true) (firCore (15 * 2 ^ 57)) (fun t => (t.m.cr 5).reg 3) = some 0x3C000000 := by decide +kernel

/-- spec/13 under R414: a = 0x2030, b = 0x2000, m = −4, l = 32 gives 0x200C. -/
theorem test_circular_outside :
    ((((((CoreSt.init 5).setReg (aReg 2) 0x2030).setReg (bReg 2) 0x2000).setReg (mReg 2) 0xFFFFFFFC).setReg (lReg 2) 32).postModify
      2 2) = (some 0x200C, false) := by decide +kernel

/-- R415: the most positive number plus 1 saturates, or wraps. -/
theorem test_add_edge :
    after (.add (qq 3) 5 1 9 true) (wd 3 0x06A32000 (onCr 3 (fun k => k.setReg 9 1) (coreOf 3 up)))
        (fun t => (t.m.cr 3).reg 5) = some 0x7FFFFFFF
      ∧ after (.add (qq 3) 5 1 9 false) (wd 3 0x04A32000 (onCr 3 (fun k => k.setReg 9 1) (coreOf 3 up)))
        (fun t => (t.m.cr 3).reg 5) = some 0x80000000 := by
  decide +kernel

/-- spec/15 under R480: region 5 in a window of 8 GiB from 16 GiB. -/
def window5 : State := wl pgSys SYS_REG_WIN.WIN_BASE 8192 5 (wl pgSys SYS_REG_CTRL.HOST_WINDOW 1 5 (wl pgSys SYS_REG_CTRL.STACKS 5 5
  (wl pgSys SYS_REG_CTRL.MAPPED 1 5 (wl pgSys SYS_REG_BASE.BASE 1024 5 (wl pgSys SYS_REG_SIZE.SIZE 2048 5
    (w pgPcie PCIE_BAR2.LOG2_SIZE 35 0 up))))))

theorem test_window :
    window5.m.bar2Hit 0x400000000 = some (5, 0) ∧ window5.m.bar2Hit (24 * 2 ^ 30 - 1) = some (5, 8 * 2 ^ 30 - 1)
      ∧ window5.m.bar2Hit (24 * 2 ^ 30) = none ∧ window5.m.bar2Hit (16 * 2 ^ 30 - 1) = none := by decide +kernel

/-- spec/01 under R44: limits of 1,024, 1,024, 640 and 16,000 on stack 0 sum to 18,688 of the 18,816 available;
800 for activity 3 makes 18,848. -/
def budget (three : Nat) : State :=
  let none_ := (List.range 62).foldl (fun (m : Module) a => m.wsh pgBud BUD_LIMIT.LIMIT 1 a |>.wsh pgBud BUD_LIMIT.ALLOW 0 a) up.m
  let set := fun (m : Module) (a n : Nat) => (m.wsh pgBud BUD_LIMIT.LIMIT n a).wsh pgBud BUD_LIMIT.ALLOW 1 a
  { up with m := set (set (set (set none_ 1 1024) 2 1024) 3 three) 4 16000 }

theorem test_budget_sum :
    (budget 640).m.budSumShadow 0 = 18688 ∧ (budget 800).m.budSumShadow 0 = 18848
      ∧ capacity 0 - reserve (capacity 0) = 18816 := by decide +kernel

/-- The check values of the two CRCs over the digits 1 to 9. -/
theorem test_crcs :
    crc32 [49, 50, 51, 52, 53, 54, 55, 56, 57] = 0xCBF43926
      ∧ crc32c [49, 50, 51, 52, 53, 54, 55, 56, 57] = 0xE3069283 := by decide +kernel

/-- spec/02: 1.024 s is 2,048,000,000 ticks, TIME64 0x0000_007A_1200_0000. -/
theorem test_tick64 : tick64 2048000000 = 0x0000007A12000000 := by decide

/-- R34: with two stacks, offset 4,096 lies on the second, at the region's base. -/
theorem test_interleave :
    ((window5.m.region 5).stackOf 4096, (window5.m.region 5).address 4096) = (2, 2 * 25769803776 + 1024 * 2097152) := by
  decide +kernel

/-- R24: IRQ_FORCE sets a bit, and a write of IRQ_STATUS clears it. -/
theorem test_irq :
    after (.irqForce .host pgEvt 0x100) up (fun t => t.m.reg.irqStat.get 0 pgEvt) = some 0x100
      ∧ after (.irqStatusClear .host pgEvt 0x100) (up.onM fun m => m.raise pgEvt 8) (fun t => t.m.reg.irqStat.get 0 pgEvt)
        = some 0 := by decide +kernel

/-- R508: the two moves that power islands. -/
theorem test_move_times : moveTicks 0 1 = 20000 ∧ moveTicks 1 2 = 200000 ∧ moveTicks 3 0 = 14000000 := by decide

/-- R36: a write past the end of a region keeps what lies inside. -/
theorem test_unmapped_write :
    after (.hbmAccess ⟨4, 5, 8 * 2 ^ 30 - 1, 2, some [7, 8]⟩ 0 .clean) window5 (fun t =>
      (readBytes t.hbm (t.m.region 5) (8 * 2 ^ 30 - 1) 2, t.m.rd pgSys SYS_REG_STATUS.UNMAPPED_HITS 5)) = some ([7, 0], 1) := by
  decide +kernel

end Results

end Sys2Proof.Tests
end

section
/-! Which words of the measurement cores spell an instruction (R423, R427). -/

namespace Sys2Proof.Machine

/-! ## Instruction words (R423, R427) -/

/-- The bits of a list of spans: the lowest bit of each, and how many. -/
def spanMask (spans : List (Nat × Nat)) : Nat := spans.foldr (fun p mask => bitSpan p.1 p.2 ||| mask) 0

theorem testBit_bitSpan (lo n i : Nat) : (bitSpan lo n).testBit i = (decide (lo ≤ i) && decide (i - lo < n)) := by
  rw [bitSpan, Nat.testBit_mul_two_pow, Nat.testBit_two_pow_sub_one]

theorem and_bitSpan_eq_zero {x lo n : Nat} (h : x / 2 ^ lo % 2 ^ n = 0) : x &&& bitSpan lo n = 0 := by
  apply Nat.eq_of_testBit_eq
  intro i
  rw [Nat.testBit_and, testBit_bitSpan, Nat.zero_testBit]
  by_cases hi : lo ≤ i ∧ i - lo < n
  · have hx : (x / 2 ^ lo % 2 ^ n).testBit (i - lo) = x.testBit i := by
      rw [Nat.testBit_mod_two_pow, Nat.testBit_div_two_pow, Nat.sub_add_cancel hi.1, decide_eq_true hi.2, Bool.true_and]
    rw [← hx, h, Nat.zero_testBit, Bool.false_and]
  · simp only [← Bool.decide_and, hi, decide_false, Bool.and_false]

theorem and_spanMask_eq_zero {x : Nat} {spans : List (Nat × Nat)} (h : ∀ p ∈ spans, x / 2 ^ p.1 % 2 ^ p.2 = 0) :
    x &&& spanMask spans = 0 := by
  induction spans with
  | nil => exact Nat.and_zero x
  | cons p spans ih =>
    have hp := and_bitSpan_eq_zero (h p List.mem_cons_self)
    have hr := ih fun q hq => h q (List.mem_cons_of_mem p hq)
    rw [spanMask] at hr
    rw [spanMask, List.foldr_cons, Nat.and_or_distrib_left, hp, hr, Nat.or_zero]

/-- A word spells an instruction when the spans that its opcode leaves unused are zero; SHIFT has rules of its own beside. -/
theorem wordSpelt_of_unused {w : Nat} (op used : Nat) (unused : List (Nat × Nat)) (hop : w / 2 ^ 26 % 64 = op)
    (hused : coreUsed op = some used) (hmask : bitSpan 0 26 ^^^ used = spanMask unused)
    (hzero : ∀ p ∈ unused, w % 2 ^ 26 / 2 ^ p.1 % 2 ^ p.2 = 0) (hshift : op ≠ 0x07 ∨ shiftSpelt w = true) :
    wordSpelt w = true := by
  simpa only [wordSpelt, hop, hused, hmask, and_spanMask_eq_zero hzero, beq_self_eq_true, Bool.true_and, Bool.or_eq_true,
    bne_iff_ne] using hshift

theorem sBit_eq (sat : Bool) : sBit sat = sat.toNat * 2 ^ 25 := by cases sat <;> rfl

/-- Format R with three operands and S: ADD, SUB, MULF. -/
theorem wordSpelt_wordR_sat {op : Nat} (rd rs rt : DReg) (sat : Bool) (h : op = 0x01 ∨ op = 0x02 ∨ op = 0x0D) :
    wordSpelt (wordR op rd rs rt 0 sat) = true := by
  have hs := sat.toNat_le
  refine wordSpelt_of_unused op (2 ^ 25 + bitSpan 13 12) [(0, 13)] ?_ ?_ (by decide) ?_ (.inl ?_)
  · simp only [wordR, sBit_eq]; omega
  · rcases h with rfl | rfl | rfl <;> rfl
  · simp only [List.forall_mem_singleton, wordR, sBit_eq]; omega
  · omega

/-- Format R with two operands and S: ABS, NEG. -/
theorem wordSpelt_wordR_unary {op : Nat} (rd rs : DReg) (sat : Bool) (h : op = 0x08 ∨ op = 0x09) :
    wordSpelt (wordR op rd rs 0 0 sat) = true := by
  have hs := sat.toNat_le
  refine wordSpelt_of_unused op (2 ^ 25 + bitSpan 17 8) [(0, 17)] ?_ ?_ (by decide) ?_ (.inl ?_)
  · simp only [wordR, sBit_eq]; omega
  · rcases h with rfl | rfl <;> rfl
  · simp only [List.forall_mem_singleton, wordR, sBit_eq]; omega
  · omega

/-- Format R with three operands and no S. -/
theorem wordSpelt_wordR {op : Nat} (rd rs rt : DReg) (hop : op < 64) (hused : coreUsed op = some (bitSpan 13 12)) :
    wordSpelt (wordR op rd rs rt 0) = true := by
  refine wordSpelt_of_unused op (bitSpan 13 12) [(0, 13), (25, 1)] ?_ hused (by decide) ?_ (.inl ?_)
  · simp only [wordR, sBit_eq, Bool.toNat_false]; omega
  · simp only [List.forall_mem_cons, wordR, sBit_eq, Bool.toNat_false]; simp; omega
  · rintro rfl; exact absurd hused (by decide)

theorem wordSpelt_addi (rd rs : DReg) (imm : BitVec 17) (sat : Bool) : wordSpelt (wordI 0x03 rd rs imm.toNat sat) = true := by
  have hs := sat.toNat_le
  have hi := imm.isLt
  refine wordSpelt_of_unused 0x03 (bitSpan 0 26) [] ?_ rfl (by decide) (by simp) (.inl (by decide))
  simp only [wordI, sBit_eq]; omega

theorem shiftSpelt_lsl (rd rs : DReg) (n : Amount) (sat : Bool) : shiftSpelt (wordShift 0 rd rs n sat) = true := by
  have hkind : wordShift 0 rd rs n sat / 2 ^ 11 % 4 = 0 := by
    cases n <;> simp only [wordShift, wordR, sBit_eq] <;> omega
  cases n with
  | imm n =>
    have himm : bit (wordShift 0 rd rs (.imm n) sat) 10 = true := by
      simp only [bit, wordShift, wordR, sBit_eq, beq_iff_eq]; omega
    have hrt : wordShift 0 rd rs (.imm n) sat / 2 ^ 13 % 16 = 0 := by simp only [wordShift, wordR, sBit_eq]; omega
    simp only [shiftSpelt, hkind, himm, hrt, if_true]; simp
  | reg rt =>
    have hreg : bit (wordShift 0 rd rs (.reg rt) sat) 10 = false := by
      simp only [bit, wordShift, wordR, sBit_eq, beq_eq_false_iff_ne]; omega
    have hamount : wordShift 0 rd rs (.reg rt) sat % 32 = 0 := by simp only [wordShift, wordR, sBit_eq]; omega
    simp only [shiftSpelt, hkind, hreg, hamount, Bool.false_eq_true, if_false]; simp

theorem wordSpelt_lsl (rd rs : DReg) (n : Amount) (sat : Bool) : wordSpelt (wordShift 0 rd rs n sat) = true := by
  have hs := sat.toNat_le
  refine wordSpelt_of_unused 0x07 (2 ^ 25 + bitSpan 10 15 + bitSpan 0 5) [(5, 5)] ?_ rfl (by decide) ?_
    (.inr (shiftSpelt_lsl rd rs n sat))
  · cases n <;> simp only [wordShift, wordR, sBit_eq] <;> omega
  · cases n <;> simp only [List.forall_mem_singleton, wordShift, wordR, sBit_eq] <;> omega

theorem wordSpelt_extr (acc : Fin 4) (rd : DReg) (sh : Fin 64) (sat : Bool) :
    wordSpelt (wordA 0x18 acc rd 0 sh.val sat) = true := by
  have hs := sat.toNat_le
  refine wordSpelt_of_unused 0x18 (2 ^ 25 + bitSpan 19 6 + bitSpan 0 6) [(6, 13)] ?_ rfl (by decide) ?_ (.inl (by decide))
  · simp only [wordA, sBit_eq]; omega
  · simp only [List.forall_mem_singleton, wordA, sBit_eq]; omega

end Sys2Proof.Machine
end

section
/-! The registers and the flags of a core: what writes, pending writes and the retirement of an instruction leave. -/

namespace Sys2Proof.Machine

/-! ## Registers of a core (R409, R420, R421) -/

@[simp] theorem CoreSt.setIn_frame (k : CoreSt) (bank : Bool) (n v : Nat) :
    (k.setIn bank n v).bank = k.bank ∧ (k.setIn bank n v).pc = k.pc ∧ (k.setIn bank n v).after = k.after ∧
    (k.setIn bank n v).load = k.load ∧ (k.setIn bank n v).aov = k.aov ∧ (k.setIn bank n v).exc = k.exc ∧
    (k.setIn bank n v).acc = k.acc ∧ (k.setIn bank n v).imem = k.imem ∧ (k.setIn bank n v).dmem = k.dmem ∧
    (k.setIn bank n v).recs = k.recs ∧ (k.setIn bank n v).dma = k.dma ∧ (k.setIn bank n v).done = k.done ∧
    (k.setIn bank n v).latched = k.latched ∧ (k.setIn bank n v).haltReq = k.haltReq ∧
    (k.setIn bank n v).severe = k.severe := by
  unfold CoreSt.setIn; split <;> and_intros <;> rfl

/-- A core whose debug hardware has moved on. -/
def CoreSt.withDbg (k : CoreSt) (d : DebugSt) : CoreSt := { k with dbg := d }

@[simp] theorem CoreSt.withDbg_frame (k : CoreSt) (d : DebugSt) :
    (k.withDbg d).bank = k.bank ∧ (k.withDbg d).pc = k.pc ∧ (k.withDbg d).after = k.after ∧
    (k.withDbg d).load = k.load ∧ (k.withDbg d).aov = k.aov ∧ (k.withDbg d).exc = k.exc ∧ (k.withDbg d).acc = k.acc ∧
    (k.withDbg d).seen = k.seen ∧ (k.withDbg d).imem = k.imem ∧ (k.withDbg d).dmem = k.dmem ∧
    (k.withDbg d).recs = k.recs ∧ (k.withDbg d).dma = k.dma ∧ (k.withDbg d).done = k.done ∧
    (k.withDbg d).latched = k.latched ∧ (k.withDbg d).haltReq = k.haltReq ∧ (k.withDbg d).severe = k.severe ∧
    (∀ bank n, (k.withDbg d).regIn bank n = k.regIn bank n) := by
  and_intros <;> intros <;> rfl

theorem CoreSt.setIn_withDbg (k : CoreSt) (d : DebugSt) (bank : Bool) (n v : Nat) :
    (k.withDbg d).setIn bank n v = (k.setIn bank n v).withDbg d := by
  unfold CoreSt.setIn CoreSt.withDbg; split <;> rfl

theorem CoreSt.regIn_setIn_same (k : CoreSt) (bank : Bool) (n v : Nat) : (k.setIn bank n v).regIn bank n = v % 2 ^ 32 := by
  by_cases h : (bank && shadowed n) = true <;> simp [CoreSt.setIn, CoreSt.regIn, h]

theorem CoreSt.regIn_setIn_ne (k : CoreSt) (bank b : Bool) (v : Nat) {n n' : Nat} (h : n ≠ n') :
    (k.setIn bank n v).regIn b n' = k.regIn b n' := by
  by_cases hs : (bank && shadowed n) = true <;> simp [CoreSt.setIn, CoreSt.regIn, hs, Store.get_set_ne _ _ _ h]

/-- A write in one bank leaves the registers that the other bank has for its own. -/
theorem CoreSt.regIn_setIn_otherBank (k : CoreSt) (bank : Bool) (n v : Nat) {n' : Nat} (h : shadowed n' = true) :
    (k.setIn bank n v).regIn (!bank) n' = k.regIn (!bank) n' := by
  by_cases hn : n = n'
  · subst hn
    cases bank <;> simp [CoreSt.setIn, CoreSt.regIn, h]
  · exact k.regIn_setIn_ne bank _ v hn

/-- Register writes one after another. -/
def CoreSt.setAll (k : CoreSt) (bank : Bool) (ws : List (Nat × Nat)) : CoreSt := ws.foldl (fun k w => k.setIn bank w.1 w.2) k

@[simp] theorem CoreSt.setAll_nil (k : CoreSt) (bank : Bool) : k.setAll bank [] = k := rfl

theorem CoreSt.setAll_cons (k : CoreSt) (bank : Bool) (w : Nat × Nat) (ws : List (Nat × Nat)) :
    k.setAll bank (w :: ws) = (k.setIn bank w.1 w.2).setAll bank ws := rfl

@[simp] theorem CoreSt.setAll_frame (k : CoreSt) (bank : Bool) (ws : List (Nat × Nat)) :
    (k.setAll bank ws).bank = k.bank ∧ (k.setAll bank ws).pc = k.pc ∧ (k.setAll bank ws).after = k.after ∧
    (k.setAll bank ws).exc = k.exc ∧ (k.setAll bank ws).acc = k.acc ∧ (k.setAll bank ws).imem = k.imem ∧
    (k.setAll bank ws).dmem = k.dmem ∧ (k.setAll bank ws).recs = k.recs ∧ (k.setAll bank ws).dma = k.dma ∧
    (k.setAll bank ws).done = k.done ∧ (k.setAll bank ws).latched = k.latched ∧
    (k.setAll bank ws).haltReq = k.haltReq ∧ (k.setAll bank ws).severe = k.severe := by
  induction ws generalizing k with
  | nil => simp
  | cons w ws ih => simpa [CoreSt.setAll_cons] using ih (k.setIn bank w.1 w.2)

theorem CoreSt.foldl_setIn (k : CoreSt) (bank : Bool) (ws : List (Nat × Nat)) :
    ws.foldl (fun k w => k.setIn bank w.1 w.2) k = k.setAll bank ws := rfl

theorem CoreSt.setAll_withDbg (k : CoreSt) (d : DebugSt) (bank : Bool) (ws : List (Nat × Nat)) :
    (k.withDbg d).setAll bank ws = (k.setAll bank ws).withDbg d := by
  induction ws generalizing k with
  | nil => rfl
  | cons w ws ih => rw [CoreSt.setAll_cons, CoreSt.setAll_cons, CoreSt.setIn_withDbg, ih]

theorem CoreSt.regIn_setAll_ne (k : CoreSt) (bank b : Bool) {ws : List (Nat × Nat)} {n : Nat} (h : ∀ w ∈ ws, w.1 ≠ n) :
    (k.setAll bank ws).regIn b n = k.regIn b n := by
  induction ws generalizing k with
  | nil => rfl
  | cons w ws ih =>
    rw [CoreSt.setAll_cons, ih _ fun x hx => h x (List.mem_cons_of_mem w hx),
      k.regIn_setIn_ne bank b w.2 (h w List.mem_cons_self)]

theorem CoreSt.regIn_setAll_otherBank (k : CoreSt) (bank : Bool) (ws : List (Nat × Nat)) {n : Nat} (h : shadowed n = true) :
    (k.setAll bank ws).regIn (!bank) n = k.regIn (!bank) n := by
  induction ws generalizing k with
  | nil => rfl
  | cons w ws ih => rw [CoreSt.setAll_cons, ih, k.regIn_setIn_otherBank bank w.1 w.2 h]

@[simp] theorem CoreSt.settle_frame (k : CoreSt) :
    k.settle.bank = k.bank ∧ k.settle.pc = k.pc ∧ k.settle.after = k.after ∧ k.settle.exc = k.exc ∧
    k.settle.acc = k.acc ∧ k.settle.imem = k.imem ∧ k.settle.dmem = k.dmem ∧ k.settle.recs = k.recs ∧
    k.settle.dma = k.dma ∧ k.settle.done = k.done ∧ k.settle.latched = k.latched ∧
    k.settle.haltReq = k.haltReq ∧ k.settle.severe = k.severe := by
  unfold CoreSt.settle
  cases hl : k.load <;> cases ha : k.aov <;> simp [ha]

theorem CoreSt.settle_withDbg (k : CoreSt) (d : DebugSt) : (k.withDbg d).settle = k.settle.withDbg d := by
  unfold CoreSt.settle
  cases hl : k.load <;> cases ha : k.aov <;> simp [hl, ha, CoreSt.setIn_withDbg] <;> rfl

/-! ## Retirement -/

/-- What becomes of the registers of a core: the pending writes, those of the instruction, and its flags. -/
theorem CoreSt.regIn_retire (k : CoreSt) (e : Eff) (b : Bool) (n : Nat) :
    (k.retire e).regIn b n = ((k.settle.setAll k.bank e.regs).setIn k.bank 48
      (e.flags.apply ((k.settle.setAll k.bank e.regs).regIn k.bank 48))).regIn b n := rfl

@[simp] theorem CoreSt.retire_frame (k : CoreSt) (e : Eff) :
    (k.retire e).bank = k.bank ∧ (k.retire e).pc = k.pc ∧ (k.retire e).after = k.after ∧ (k.retire e).exc = k.exc ∧
    (k.retire e).seen = k.acc ∧ (k.retire e).imem = k.imem ∧ (k.retire e).dmem = k.dmem ∧
    (k.retire e).recs = k.recs ∧ (k.retire e).dma = k.dma ∧ (k.retire e).done = k.done ∧
    (k.retire e).latched = k.latched ∧ (k.retire e).haltReq = k.haltReq ∧ (k.retire e).severe = k.severe := by
  simp [CoreSt.retire, CoreSt.foldl_setIn]

theorem CoreSt.retire_withDbg (k : CoreSt) (d : DebugSt) (e : Eff) : (k.withDbg d).retire e = (k.retire e).withDbg d := by
  simp only [CoreSt.retire, CoreSt.foldl_setIn, CoreSt.settle_withDbg, CoreSt.setAll_withDbg, CoreSt.setIn_withDbg,
    CoreSt.withDbg_frame]
  rfl

theorem CoreSt.acc_retire {k : CoreSt} {e : Eff} (h : e.acc = none) : (k.retire e).acc = k.acc := by
  simp [CoreSt.retire, CoreSt.foldl_setIn, h]

theorem CoreSt.load_retire {k : CoreSt} {e : Eff} (h : e.load = none) : (k.retire e).load = none := by
  simp [CoreSt.retire, h]

theorem CoreSt.regIn_retire_ne (k : CoreSt) {e : Eff} (b : Bool) {n : Nat} (h : ∀ w ∈ e.regs, w.1 ≠ n) (hsr : n ≠ 48) :
    (k.retire e).regIn b n = k.settle.regIn b n := by
  rw [CoreSt.regIn_retire, CoreSt.regIn_setIn_ne _ _ _ _ hsr.symm, CoreSt.regIn_setAll_ne _ _ _ h]

theorem CoreSt.regIn_retire_otherBank (k : CoreSt) (e : Eff) {n : Nat} (h : shadowed n = true) :
    (k.retire e).regIn (!k.bank) n = k.settle.regIn (!k.bank) n := by
  rw [CoreSt.regIn_retire, CoreSt.regIn_setIn_otherBank _ _ _ _ h, CoreSt.regIn_setAll_otherBank _ _ _ h]

/-- The one register that an instruction writes takes its value. -/
theorem CoreSt.reg_retire_single (k : CoreSt) {e : Eff} {r v : Nat} (h : e.regs = [(r, v)]) (hsr : r ≠ 48) :
    (k.retire e).reg r = v % 2 ^ 32 := by
  rw [CoreSt.reg, k.retire_frame e |>.1, CoreSt.regIn_retire, CoreSt.regIn_setIn_ne _ _ _ _ hsr.symm, h, CoreSt.setAll_cons,
    CoreSt.setAll_nil, CoreSt.regIn_setIn_same]

theorem CoreSt.reg_sr_retire (k : CoreSt) {e : Eff} (h : ∀ w ∈ e.regs, w.1 ≠ 48) :
    (k.retire e).reg 48 = e.flags.apply (k.settle.reg 48) % 2 ^ 32 := by
  rw [CoreSt.reg, k.retire_frame e |>.1, CoreSt.regIn_retire, CoreSt.regIn_setIn_same, CoreSt.regIn_setAll_ne _ _ _ h,
    CoreSt.reg, k.settle_frame.1]

/-! ## Flags (R410, R418) -/

theorem bit_setBits (old mask v i : Nat) (hi : i < 32) :
    bit (setBits old mask v) i = if bit mask i then bit v i else bit old i := by
  have hones : Nat.testBit 0xFFFFFFFF i = true := by
    rw [show (0xFFFFFFFF : Nat) = 2 ^ 32 - 1 by decide, Nat.testBit_two_pow_sub_one, decide_eq_true hi]
  simp only [bit_eq_testBit, setBits, Nat.testBit_or, Nat.testBit_and, Nat.testBit_xor, hones]
  cases mask.testBit i <;> simp

/-- SR holds 32 bits. -/
theorem CoreSt.bit_sr_high (k : CoreSt) {i : Nat} (hi : 32 ≤ i) : bit k.sr i = false := by
  have hsmall : ∀ x, x < 2 ^ 32 → x.testBit i = false := fun x hx =>
    Nat.testBit_lt_two_pow (Nat.lt_of_lt_of_le hx (Nat.pow_le_pow_right (by decide) hi))
  simp [bit_eq_testBit, CoreSt.sr, setBits, srBank, hsmall]

theorem CoreSt.bit_sr (k : CoreSt) {i : Nat} (hi : i < 32) : bit k.sr i = if i = 12 then k.bank else bit (k.reg 48) i := by
  have hmask : bit srBank i = decide (i = 12) := by
    rw [bit_eq_testBit, show srBank = 2 ^ 12 from rfl, Nat.testBit_two_pow]
    exact decide_eq_decide.mpr eq_comm
  rw [CoreSt.sr, bit_setBits _ _ _ _ hi, hmask]
  by_cases h12 : i = 12
  · subst h12; cases k.bank <;> rfl
  · simp [h12]

theorem FlagSet.bit_apply (f : FlagSet) (sr : Nat) {i : Nat} (hi : i < 32) :
    bit (f.apply sr) i = ((if bit f.mask i then bit f.value i else bit sr i) || bit f.sticky i) := by
  rw [← bit_setBits _ _ _ _ hi]
  simp only [FlagSet.apply, bit_eq_testBit, Nat.testBit_or]

/-- A bit of SR after an instruction that does not write SR as a register. -/
theorem CoreSt.bit_sr_retire (k : CoreSt) {e : Eff} (h : ∀ w ∈ e.regs, w.1 ≠ 48) {i : Nat} (hi : i < 32) (h12 : i ≠ 12) :
    bit (k.retire e).sr i
      = ((if bit e.flags.mask i then bit e.flags.value i else bit k.settle.sr i) || bit e.flags.sticky i) := by
  rw [CoreSt.bit_sr _ hi, CoreSt.bit_sr _ hi, if_neg h12, if_neg h12, ← FlagSet.bit_apply _ _ hi, k.reg_sr_retire h,
    bit_eq_testBit, bit_eq_testBit, Nat.testBit_mod_two_pow, decide_eq_true hi, Bool.true_and]

/-- The flags that an instruction may change: those it writes and the sticky ones it sets. -/
def FlagSet.Within (f : FlagSet) (flags : List Nat) : Prop := ∀ b, b ∉ flags → bit f.mask b = false ∧ bit f.sticky b = false

theorem CoreSt.coreKeeps_retire (k : CoreSt) {e : Eff} {regs flags : List Nat} (hregs : ∀ w ∈ e.regs, w.1 ∈ regs ∧ w.1 ≠ 48)
    (hflags : e.flags.Within flags) : CoreKeeps k (k.retire e) regs flags := by
  refine ⟨fun b n hn hsr => k.regIn_retire_ne b (fun w hw hwn => hn (hwn ▸ (hregs w hw).1)) hsr,
    fun n hs => k.regIn_retire_otherBank e hs, fun b hb => ?_, by simp, by simp, by simp⟩
  obtain ⟨hmask, hsticky⟩ := hflags b hb
  by_cases hi : b < 32
  · by_cases h12 : b = 12
    · rw [CoreSt.bit_sr _ hi, CoreSt.bit_sr _ hi, if_pos h12, if_pos h12, (k.retire_frame e).1, k.settle_frame.1]
    · rw [k.bit_sr_retire (fun w hw => (hregs w hw).2) hi h12, hmask, hsticky, if_neg Bool.false_ne_true, Bool.or_false]
  · rw [CoreSt.bit_sr_high _ (Nat.le_of_not_lt hi), CoreSt.bit_sr_high _ (Nat.le_of_not_lt hi)]

end Sys2Proof.Machine
end

section
/-! How a core issues an instruction that touches no memory (R419, R420). -/

namespace Sys2Proof.Machine

/-! ## Issue (R419, R420) -/

theorem fieldKey_ne_of_off {p : Nat} {f f' : Fld} (hf : f.small = true) (hf' : f'.small = true) (h : f.off ≠ f'.off) :
    fieldKey p f 0 ≠ fieldKey p f' 0 :=
  fieldKey_ne hf hf' (by decide) (by decide) fun e => h e.2.1

/-- A 64-bit counter wraps at 2^64, whatever its words held. -/
theorem Module.rd64_step64 (m : Module) {p : Nat} {lo hi : Fld} (n : Nat) (hne : fieldKey p hi 0 ≠ fieldKey p lo 0)
    (hlo : lo.width = 32) (hhi : hi.width = 32) : (m.step64 p lo hi n).rd64 p lo hi = (m.rd64 p lo hi + n) % 2 ^ 64 := by
  generalize hv : m.rd64 p lo hi + n = v
  have hl : (m.step64 p lo hi n).rd p lo = v % 2 ^ 32 := by
    rw [Module.step64, Module.wr64, Module.rd_wr_ne _ _ hne, Module.rd_wr_same, hv, hlo]
  have hh : (m.step64 p lo hi n).rd p hi = v / 2 ^ 32 % 2 ^ 32 := by
    rw [Module.step64, Module.wr64, Module.rd_wr_same, hv, hhi]
  rw [Module.rd64, hl, hh]
  omega

theorem Module.rd_step64_ne (m : Module) {p : Nat} {lo hi f : Fld} (n : Nat) (hlo : fieldKey p lo 0 ≠ fieldKey p f 0)
    (hhi : fieldKey p hi 0 ≠ fieldKey p f 0) : (m.step64 p lo hi n).rd p f = m.rd p f := by
  rw [Module.step64, Module.wr64, Module.rd_wr_ne _ _ hhi, Module.rd_wr_ne _ _ hlo]

/-- What an issue does to the registers of the module: the state of the core, and one cycle more. -/
def Module.countIssue (m : Module) (c state : Nat) : Module :=
  (m.setCoreState c state).step64 (pgCore c) CORE_BUSY_LO.CYCLES CORE_BUSY_HI.CYCLES

@[simp] theorem Module.cr_countIssue (m : Module) (c state j : Nat) : (m.countIssue c state).cr j = m.cr j := rfl

theorem Module.coreState_countIssue (m : Module) (c state : Nat) : (m.countIssue c state).coreState c = state % 8 := by
  rw [Module.coreState, Module.countIssue,
    Module.rd_step64_ne _ _ (fieldKey_ne_of_off (by decide) (by decide) (by decide))
      (fieldKey_ne_of_off (by decide) (by decide) (by decide)),
    Module.setCoreState, Module.rd_wr_same]
  rfl

theorem Module.rd64_countIssue (m : Module) (c state : Nat) :
    (m.countIssue c state).rd64 (pgCore c) CORE_BUSY_LO.CYCLES CORE_BUSY_HI.CYCLES
      = (m.rd64 (pgCore c) CORE_BUSY_LO.CYCLES CORE_BUSY_HI.CYCLES + 1) % 2 ^ 64 := by
  rw [Module.countIssue, Module.rd64_step64 _ _ (fieldKey_ne_of_off (by decide) (by decide) (by decide)) rfl rfl, Module.rd64,
    Module.setCoreState, Module.rd_wr_ne _ _ (fieldKey_ne_of_off (by decide) (by decide) (by decide)),
    Module.rd_wr_ne _ _ (fieldKey_ne_of_off (by decide) (by decide) (by decide)), Module.rd64]

theorem Module.regs_countIssue (m : Module) (c state d : Nat) {n : Nat}
    (h : n ∉ [fieldKey (pgCore c) CORE_STATUS.STATE 0, fieldKey (pgCore c) CORE_BUSY_LO.CYCLES 0,
      fieldKey (pgCore c) CORE_BUSY_HI.CYCLES 0]) :
    Store.get d (m.countIssue c state).reg.regs n = Store.get d m.reg.regs n := by
  simp only [List.mem_cons, List.not_mem_nil, or_false, not_or] at h
  obtain ⟨hstate, hlo, hhi⟩ := h
  simp only [Module.countIssue, Module.step64, Module.wr64, Module.setCoreState, Module.wr, Store.get_set_ne _ _ _ (Ne.symm hstate),
    Store.get_set_ne _ _ _ (Ne.symm hlo), Store.get_set_ne _ _ _ (Ne.symm hhi)]

/-- A module whose registers are those of a counted issue, and whose other cores stand, is what `Issued` says. -/
theorem issued_of_countIssue {s t : State} {c state : Nat} (hlt : state < 8) (hreg : t.m.reg = (s.m.countIssue c state).reg)
    (hcr : ∀ j, j ≠ c → t.m.cr j = s.m.cr j) (hhbm : t.hbm = s.hbm) (hpending : t.pending = s.pending) :
    Issued s t c state [] := by
  have hrd : ∀ p f, t.m.rd p f = (s.m.countIssue c state).rd p f := fun p f => by rw [Module.rd, Module.rd, hreg]
  refine ⟨?_, ?_, hcr, fun n hn d => ?_, ?_, ?_, hhbm, hpending⟩
  · rw [Module.coreState, hrd, ← Module.coreState, Module.coreState_countIssue, Nat.mod_eq_of_lt hlt]
  · rw [Module.rd64, hrd, hrd, ← Module.rd64, Module.rd64_countIssue]
  · rw [hreg, Module.regs_countIssue _ _ _ _ hn]
  · rw [hreg]; rfl
  · rw [hreg]; rfl

theorem CoreSt.follow_retire_withDbg (k : CoreSt) (e : Eff) (d : DebugSt) : ((k.retire e).withDbg d).follow = k.follow := by
  simp [CoreSt.follow]

/-- A core after an instruction whose slot is no RTI's and that raises no exception. -/
def CoreSt.issued (k : CoreSt) (e : Eff) (d : DebugSt) : CoreSt :=
  { k.retire e with pc := k.follow, after := e.after, dbg := d }

/-- Outside the slot of an RTI the program follows its branch, or goes on. -/
theorem Module.coreNext_eq (m : Module) (c : Nat) (next : Option After) (stack : Ecc)
    (h : ∀ level, (m.cr c).after ≠ some (.rti level)) :
    m.coreNext c next stack = m.setCr c { m.cr c with pc := (m.cr c).follow, after := next } := by
  unfold Module.coreNext CoreSt.follow
  cases ha : (m.cr c).after with
  | none => simp only [ha]
  | some a =>
    cases a with
    | jump t => simp only [ha]
    | rti level => exact absurd ha (h level)

theorem State.ready_iff {s : State} {c : Nat} : s.ready c = true ↔
    s.m.canIssue c = true ∧ (s.m.cr c).pc % 4 = 0 ∧ (s.m.cr c).pc < 0x40000
      ∧ ∀ level, (s.m.cr c).after ≠ some (.rti level) := by
  unfold State.ready
  cases ha : (s.m.cr c).after with
  | none => simp [and_assoc]
  | some a => cases a <;> simp [and_assoc]

/-- An instruction that touches no memory and raises nothing retires, counts its cycle, and the program goes on. -/
theorem Module.issueEff_eq {m : Module} {i : Issue} {w : Nat} {body : CoreSt → Eff} {e : Eff}
    (hcan : m.canIssue i.core = true) (halign : (m.cr i.core).pc % 4 = 0) (hrange : (m.cr i.core).pc < 0x40000)
    (hword : (m.cr i.core).imem.get 0 (m.cr i.core).pc = w) (hfetch : i.fetch = .clean) (hspelt : wordSpelt w = true)
    (hbody : ∀ d, body ((m.cr i.core).withDbg d) = e) (hexc : e.exc = none) (hbkpt : e.bkpt = false) :
    ∃ d, m.issueEff i w body
      = (((m.setCr i.core ((m.cr i.core).withDbg d)).setCr i.core (((m.cr i.core).withDbg d).retire e)).countIssue i.core
          (if e.waits then coreWaiting else coreRunning)).coreNext i.core e.after i.stack := by
  have hdbg : ∃ d, m.debugIssued i.core (!(m.cr i.core).interruptible) (m.ibpAt i.core)
      = m.setCr i.core ((m.cr i.core).withDbg d) := ⟨_, rfl⟩
  obtain ⟨d, hd⟩ := hdbg
  have hfetches : (m.cr i.core).fetches w = true := by simp [CoreSt.fetches, hword]
  have hissue : (m.setCr i.core ((m.cr i.core).withDbg d)).coreBody i (fun m => (m, body (m.cr i.core)))
      = (m.setCr i.core ((m.cr i.core).withDbg d), e) := by
    simp [Module.coreBody, Module.fetchEcc, halign, hrange, hword, hfetch, hspelt, hbody]
  refine ⟨d, ?_⟩
  simp [Module.issueEff, Module.coreIssue, hcan, hfetches, hd, hissue, hexc, hbkpt, Module.countIssue]

theorem runs_issueEff {s : State} {q : Issue} {w : Nat} {i : Instr} {body : CoreSt → Eff} {e : Eff}
    (hexec : exec i s = .next (s.onM fun m => m.issueEff q w body)) (hspelt : wordSpelt w = true)
    (hbody : ∀ d, body ((s.m.cr q.core).withDbg d) = e) (hexc : e.exc = none) (hbkpt : e.bkpt = false) :
    Runs q w i s fun t => (∃ d, t.m.cr q.core = (s.m.cr q.core).issued e d)
      ∧ Issued s t q.core (if e.waits then coreWaiting else coreRunning) [] := by
  rintro ⟨hready, hword, hfetch⟩
  obtain ⟨hcan, halign, hrange, hafter⟩ := State.ready_iff.mp hready
  obtain ⟨d, hd⟩ := Module.issueEff_eq hcan halign hrange hword hfetch hspelt hbody hexc hbkpt
  refine ⟨_, hexec, ?_⟩
  have hcr : (((s.m.setCr q.core ((s.m.cr q.core).withDbg d)).setCr q.core
      (((s.m.cr q.core).withDbg d).retire e)).countIssue q.core (if e.waits then coreWaiting else coreRunning)).cr q.core
      = ((s.m.cr q.core).retire e).withDbg d := by
    rw [← CoreSt.retire_withDbg]; exact Module.cr_setCr_same _ _ _
  rw [Module.coreNext_eq _ _ _ _ (by rw [hcr]; simpa using hafter), hcr] at hd
  rw [State.onM, hd]
  refine ⟨⟨d, ?_⟩, issued_of_countIssue (by split <;> decide) rfl (fun j hj => ?_) rfl rfl⟩
  · rw [Module.cr_setCr_same, CoreSt.follow_retire_withDbg]
    rfl
  · have hne : q.core.val ≠ j := fun h => hj h.symm
    simp only [Module.cr_setCr_ne _ _ hne, Module.cr_countIssue]

theorem Runs.imp {q : Issue} {w : Nat} {i : Instr} {s : State} {P Q : State → Prop} (h : Runs q w i s P) (hPQ : ∀ t, P t → Q t) :
    Runs q w i s Q := fun hissues =>
  let ⟨t, ht, hP⟩ := h hissues
  ⟨t, ht, hPQ t hP⟩

/-- An instruction that writes registers and flags alone. -/
theorem runs_regsFlags {s : State} {q : Issue} {w : Nat} {i : Instr} {body : CoreSt → Eff} {ws : List (Nat × Nat)}
    {f : FlagSet} {regs flags : List Nat} (hexec : exec i s = .next (s.onM fun m => m.issueEff q w body))
    (hspelt : wordSpelt w = true) (hbody : ∀ d, body ((s.m.cr q.core).withDbg d) = { regs := ws, flags := f })
    (hregs : ∀ x ∈ ws, x.1 ∈ regs ∧ x.1 ≠ 48) (hflags : f.Within flags) :
    Runs q w i s fun t => (∃ d, t.m.cr q.core = (s.m.cr q.core).issued { regs := ws, flags := f } d)
      ∧ Plain s t q.core regs flags := by
  refine (runs_issueEff hexec hspelt hbody rfl rfl).imp fun t ⟨⟨d, hcr⟩, hissued⟩ => ⟨⟨d, hcr⟩, ?_⟩
  have hkeeps : CoreKeeps (s.m.cr q.core) ((s.m.cr q.core).issued { regs := ws, flags := f } d) regs flags :=
    CoreSt.coreKeeps_retire (e := { regs := ws, flags := f }) _ hregs hflags
  rw [Plain, hcr]
  refine ⟨hkeeps, ⟨?_, ?_⟩, ⟨rfl, rfl, ?_, ?_, ?_⟩, hissued⟩ <;> simp [CoreSt.issued, CoreSt.acc_retire, CoreSt.load_retire, CoreQueues]

end Sys2Proof.Machine
end

section
/-! Saturating arithmetic of the cores (R415, R417, R418). -/

namespace Sys2Proof.Machine

/-! ## Delivered results (R415, R418) -/

theorem deliver_eq (sat : Bool) (x : Int) : deliver sat x = ⟨delivered sat x, !fits32 x, !fits32 x && sat⟩ := by
  by_cases h : -2147483648 ≤ x ∧ x ≤ 2147483647
  · have hfits : fits32 x = true := by simpa [fits32] using h
    rw [deliver, if_pos h, delivered, hfits]
    rfl
  · have hfits : fits32 x = false := by simpa [fits32] using h
    rw [deliver, if_neg h, delivered, hfits]
    cases sat <;> rfl

theorem delivered_lt (sat : Bool) (x : Int) : delivered sat x < 2 ^ 32 := by
  unfold delivered
  split
  · split <;> decide
  · omega

/-- A set of flags that shows a delivered result: Z, N, V, and the sticky SOV. -/
structure FlagSet.Shows (f : FlagSet) (d : Delivered) : Prop where
  mask : bit f.mask 0 = true ∧ bit f.mask 1 = true ∧ bit f.mask 3 = true ∧ bit f.mask 4 = false
  z : bit f.value 0 = (d.value == 0)
  n : bit f.value 1 = bit d.value 31
  v : bit f.value 3 = d.v
  sticky : f.sticky = flag d.sov 4

/-- The bits that the four flags make. -/
theorem bit_flags (z n c v : Bool) : bit (flag z 0 + flag n 1 + flag c 2 + flag v 3) 0 = z
    ∧ bit (flag z 0 + flag n 1 + flag c 2 + flag v 3) 1 = n ∧ bit (flag z 0 + flag n 1 + flag c 2 + flag v 3) 2 = c
    ∧ bit (flag z 0 + flag n 1 + flag c 2 + flag v 3) 3 = v := by
  revert z n c v; decide

theorem shows_flagsZnv (d : Delivered) : d.flagsZnv.Shows d := by
  obtain ⟨hz, hn, -, hv⟩ := bit_flags (d.value == 0) (bit d.value 31) false d.v
  exact ⟨(by decide : bit 11 0 = true ∧ bit 11 1 = true ∧ bit 11 3 = true ∧ bit 11 4 = false), hz, hn, hv, rfl⟩

theorem shows_flagsZncv (d : Delivered) (carry : Bool) : (d.flagsZncv carry).Shows d := by
  obtain ⟨hz, hn, -, hv⟩ := bit_flags (d.value == 0) (bit d.value 31) carry d.v
  exact ⟨(by decide : bit 15 0 = true ∧ bit 15 1 = true ∧ bit 15 3 = true ∧ bit 15 4 = false), hz, hn, hv, rfl⟩

theorem bit_flag_ne (c : Bool) {b i : Nat} (h : b ≠ i) : bit (flag c b) i = false := by
  cases c
  · simp [flag, bit_eq_testBit]
  · simp [flag, bit_eq_testBit, Nat.testBit_two_pow_of_ne h]

theorem bit_flag_same (c : Bool) (b : Nat) : bit (flag c b) b = c := by
  cases c <;> simp [flag, bit_eq_testBit]

/-- The bits of a mask below 2^n lie below bit n. -/
theorem bit_eq_false_of_lt {m n b : Nat} (hm : m < 2 ^ n) (hb : n ≤ b) : bit m b = false := by
  rw [bit_eq_testBit]
  exact Nat.testBit_lt_two_pow (Nat.lt_of_lt_of_le hm (Nat.pow_le_pow_right (by decide) hb))

theorem within_flagsZnv (d : Delivered) : d.flagsZnv.Within [0, 1, 3, 4] := by
  intro b hb
  simp only [List.mem_cons, List.not_mem_nil, or_false, not_or] at hb
  obtain ⟨h0, h1, h3, h4⟩ := hb
  refine ⟨?_, bit_flag_ne _ (Ne.symm h4)⟩
  by_cases h2 : b = 2
  · exact h2 ▸ (by decide : bit 11 2 = false)
  · exact bit_eq_false_of_lt (n := 4) (by decide : 11 < 2 ^ 4) (by omega)

theorem within_flagsZncv (d : Delivered) (carry : Bool) : (d.flagsZncv carry).Within [0, 1, 2, 3, 4] := by
  intro b hb
  simp only [List.mem_cons, List.not_mem_nil, or_false, not_or] at hb
  exact ⟨bit_eq_false_of_lt (n := 4) (by decide : 15 < 2 ^ 4) (by omega), bit_flag_ne _ (by omega)⟩

/-- Without saturation SOV stands as well. -/
theorem within_flagsZncv_unsaturated (carry : Bool) {d : Delivered} (h : d.sov = false) :
    (d.flagsZncv carry).Within [0, 1, 2, 3] := by
  intro b hb
  simp only [List.mem_cons, List.not_mem_nil, or_false, not_or] at hb
  have hsticky : (d.flagsZncv carry).sticky = 0 := by rw [Delivered.flagsZncv, h]; rfl
  exact ⟨bit_eq_false_of_lt (n := 4) (by decide : 15 < 2 ^ 4) (by omega), by simp [hsticky, bit_eq_testBit]⟩

/-- A bit of SR after an issued instruction. -/
theorem CoreSt.bit_sr_issued (k : CoreSt) {ws : List (Nat × Nat)} (f : FlagSet) (d : DebugSt) (h : ∀ w ∈ ws, w.1 ≠ 48) {i : Nat}
    (hi : i < 32) (h12 : i ≠ 12) : bit (k.issued { regs := ws, flags := f } d).sr i
      = ((if bit f.mask i then bit f.value i else bit k.settle.sr i) || bit f.sticky i) :=
  k.bit_sr_retire (e := { regs := ws, flags := f }) h hi h12

theorem signs_issued (k : CoreSt) {ws : List (Nat × Nat)} {f : FlagSet} {r : Delivered} (d : DebugSt)
    (h : ∀ w ∈ ws, w.1 ≠ 48) (hf : f.Shows r) : Signs (k.issued { regs := ws, flags := f } d) r.value
      ∧ bit (k.issued { regs := ws, flags := f } d).sr 3 = r.v := by
  obtain ⟨hz, hn, hv, -⟩ := hf.mask
  refine ⟨⟨?_, ?_⟩, ?_⟩ <;> rw [k.bit_sr_issued f d h (by decide) (by decide), hf.sticky, bit_flag_ne _ (by decide), Bool.or_false]
  · rw [hz, if_pos rfl, hf.z]
  · rw [hn, if_pos rfl, hf.n]
  · rw [hv, if_pos rfl, hf.v]

theorem carry_issued (k : CoreSt) {ws : List (Nat × Nat)} (r : Delivered) (carry : Bool) (d : DebugSt) (h : ∀ w ∈ ws, w.1 ≠ 48) :
    bit (k.issued { regs := ws, flags := r.flagsZncv carry } d).sr 2 = carry := by
  have hmask : bit (r.flagsZncv carry).mask 2 = true := (by decide : bit 15 2 = true)
  obtain ⟨-, -, hvalue, -⟩ := bit_flags (r.value == 0) (bit r.value 31) carry r.v
  rw [k.bit_sr_issued _ d h (by decide) (by decide), if_pos hmask, (shows_flagsZncv r carry).sticky, bit_flag_ne _ (by decide),
    Bool.or_false]
  exact hvalue

theorem overflows_issued (k : CoreSt) {ws : List (Nat × Nat)} {f : FlagSet} {sat : Bool} {x : Int} (d : DebugSt)
    (h : ∀ w ∈ ws, w.1 ≠ 48) (hf : f.Shows (deliver sat x)) : Overflows k (k.issued { regs := ws, flags := f } d) sat x := by
  rw [deliver_eq] at hf
  obtain ⟨hsigns, hv⟩ := signs_issued k d h hf
  obtain ⟨-, -, -, hsov⟩ := hf.mask
  refine ⟨hv, ?_, hsigns⟩
  rw [k.bit_sr_issued f d h (by decide) (by decide), hsov, hf.sticky, bit_flag_same, if_neg Bool.false_ne_true]

/-- No d register is SR. -/
theorem dReg_ne_sr (r : DReg) (v : Nat) : ∀ w ∈ [(r.val, v)], w.1 ∈ [r.val] ∧ w.1 ≠ 48 := by simp; omega

/-- The register and the flags of a delivered result. -/
theorem delivers_issued (k : CoreSt) (rd : DReg) {f : FlagSet} {sat : Bool} {x : Int} (d : DebugSt) (hf : f.Shows (deliver sat x)) :
    (k.issued { regs := [(rd.val, (deliver sat x).value)], flags := f } d).reg rd = delivered sat x
      ∧ Overflows k (k.issued { regs := [(rd.val, (deliver sat x).value)], flags := f } d) sat x := by
  refine ⟨?_, overflows_issued k d (fun w hw => (dReg_ne_sr rd _ w hw).2) hf⟩
  have hreg := k.reg_retire_single (e := { regs := [(rd.val, (deliver sat x).value)], flags := f }) rfl (by omega)
  rw [deliver_eq, Nat.mod_eq_of_lt (delivered_lt sat x), ← deliver_eq] at hreg
  exact hreg

/-! ## Instructions with saturation (R415, R417) -/

section
variable {s : State} {q : Issue} {w : Nat} {i : Instr} {body : CoreSt → Eff} {rd : DReg} {sat : Bool} {x : Int}

/-- An instruction that delivers a result and sets Z, N and V. -/
theorem runs_znv (hexec : exec i s = .next (s.onM fun m => m.issueEff q w body)) (hspelt : wordSpelt w = true)
    (hbody : ∀ d, body ((s.m.cr q.core).withDbg d) = effZnv rd (deliver sat x)) :
    Runs q w i s fun t => (t.m.cr q.core).reg rd = delivered sat x ∧ Overflows (s.m.cr q.core) (t.m.cr q.core) sat x
      ∧ Plain s t q.core [rd.val] [0, 1, 3, 4] := by
  refine (runs_regsFlags hexec hspelt hbody (dReg_ne_sr rd _) (within_flagsZnv _)).imp fun t ⟨⟨d, hcr⟩, hplain⟩ => ?_
  obtain ⟨hreg, hover⟩ := delivers_issued (s.m.cr q.core) rd d (shows_flagsZnv (deliver sat x))
  rw [← hcr] at hreg hover
  exact ⟨hreg, hover, hplain⟩

/-- An instruction that delivers a result and sets Z, N, C and V. -/
theorem runs_zncv {carry : Bool} (hexec : exec i s = .next (s.onM fun m => m.issueEff q w body)) (hspelt : wordSpelt w = true)
    (hbody : ∀ d, body ((s.m.cr q.core).withDbg d) = effZncv rd (deliver sat x) carry) :
    Runs q w i s fun t => (t.m.cr q.core).reg rd = delivered sat x ∧ Overflows (s.m.cr q.core) (t.m.cr q.core) sat x
      ∧ bit (t.m.cr q.core).sr 2 = carry ∧ Plain s t q.core [rd.val] [0, 1, 2, 3, 4] := by
  refine (runs_regsFlags hexec hspelt hbody (dReg_ne_sr rd _) (within_flagsZncv _ _)).imp fun t ⟨⟨d, hcr⟩, hplain⟩ => ?_
  obtain ⟨hreg, hover⟩ := delivers_issued (s.m.cr q.core) rd d (shows_flagsZncv (deliver sat x) carry)
  rw [← hcr] at hreg hover
  exact ⟨hreg, hover, hcr ▸ carry_issued (s.m.cr q.core) _ _ d (fun w hw => (dReg_ne_sr rd _ w hw).2), hplain⟩

end

/-- A product of two 32-bit numbers lies within 2^62 − 2^31 of zero, unless both are the most negative. -/
theorem abs_mul_le {a b : Int} (ha : |a| ≤ 2147483648) (hb : |b| ≤ 2147483648) (h : |a| ≤ 2147483647 ∨ |b| ≤ 2147483647) :
    |a * b| ≤ 4611686016279904256 := by
  rw [abs_mul]
  rcases h with h | h
  · exact Int.mul_le_mul h hb (abs_nonneg b) (by decide)
  · exact Int.mul_le_mul ha h (abs_nonneg b) (by decide)

theorem toInt_eq_min_iff (x : BitVec 32) : x.toInt = -2147483648 ↔ x = 0x80000000 := by
  rw [← BitVec.toInt_inj]; rfl

/-- MULF overflows for the two most negative operands alone (R417). -/
theorem fits32_mulf (x y : BitVec 32) :
    fits32 ((x.toInt * y.toInt + 2 ^ 30) / 2 ^ 31) = false ↔ x = 0x80000000 ∧ y = 0x80000000 := by
  constructor
  · intro h
    by_contra hne
    rw [← toInt_eq_min_iff, ← toInt_eq_min_iff] at hne
    have hx := x.le_toInt; have hx' := x.toInt_lt; have hy := y.le_toInt; have hy' := y.toInt_lt
    obtain ⟨hlo, hhi⟩ := abs_le.mp (abs_mul_le (a := x.toInt) (b := y.toInt) (by rw [abs_le]; omega) (by rw [abs_le]; omega)
      (by rw [abs_le, abs_le]; omega))
    simp only [fits32, Bool.and_eq_false_iff, decide_eq_false_iff_not] at h
    omega
  · rintro ⟨rfl, rfl⟩
    decide

/-- CMP: the flags of a difference, and no register. -/
theorem runs_cmp (s : State) (q : Issue) (rd rs rt : DReg) :
    let k := s.m.cr q.core
    Runs q (wordR 0x0E rd rs rt 0) (.cmp q rd rs rt) s fun t =>
      bit (t.m.cr q.core).sr 3 = !fits32 (k.sd rs - k.sd rt) ∧ Signs (t.m.cr q.core) (delivered false (k.sd rs - k.sd rt))
        ∧ bit (t.m.cr q.core).sr 2 = decide (k.d rt ≤ k.d rs) ∧ Plain s t q.core [] [0, 1, 2, 3] := by
  intro k
  have hshows := shows_flagsZncv (deliver false (k.sd rs - k.sd rt)) (decide (k.d rt ≤ k.d rs))
  have hsov : (deliver false (k.sd rs - k.sd rt)).sov = false := by rw [deliver_eq, Bool.and_false]
  refine (runs_regsFlags (ws := []) (regs := []) rfl (wordSpelt_wordR rd rs rt (by decide) rfl) (fun _ => rfl) (by simp)
    (within_flagsZncv_unsaturated (decide (k.d rt ≤ k.d rs)) hsov)).imp fun t ⟨⟨d, hcr⟩, hplain⟩ => ?_
  obtain ⟨hsigns, hv⟩ := signs_issued k (ws := []) d (by simp) hshows
  rw [← hcr] at hsigns hv
  rw [deliver_eq] at hsigns hv
  exact ⟨hv, hsigns, hcr ▸ carry_issued k _ _ d (by simp), hplain⟩

/-- Settles O33: every instruction with saturation delivers as `runs_znv` or `runs_zncv` says, and CMP as `runs_cmp` does. -/
theorem coreArithmetic : Obligations.CoreArithmetic := by
  intro s q rd rs rt sat c k
  refine ⟨runs_zncv rfl (wordSpelt_wordR_sat rd rs rt sat (by decide)) fun _ => rfl,
    runs_zncv rfl (wordSpelt_wordR_sat rd rs rt sat (by decide)) fun _ => rfl,
    fun imm => runs_zncv rfl (wordSpelt_addi rd rs imm sat) fun _ => rfl,
    fun n => runs_znv rfl (wordSpelt_lsl rd rs n sat) fun _ => ?_,
    runs_znv rfl (wordSpelt_wordR_unary rd rs sat (by decide)) fun _ => rfl,
    runs_znv rfl (wordSpelt_wordR_unary rd rs sat (by decide)) fun _ => rfl,
    runs_znv rfl (wordSpelt_wordR_sat rd rs rt sat (by decide)) fun _ => rfl,
    fits32_mulf, fun acc sh hsh => runs_znv rfl (wordSpelt_extr acc rd sh sat) fun _ => ?_, runs_cmp s q rd rs rt⟩
  · cases n <;> rfl
  · rw [if_neg (Nat.not_lt.mpr hsh)]
    rfl

end Sys2Proof.Machine
end

section
/-! The statements on accumulators and on transfers of control fail in states that no program reaches. -/

namespace Sys2Proof.Machine

/-! ## Refutations: a load into SR that is still pending

The statements O35 and O39 decide by SR as it stands before the instruction whether an exception finds the core at LEVEL 2. The
machine decides by SR once the pending writes have completed (R420). The two part in a state whose pending load names SR. No
instruction of the model leaves such a load, for LD writes d registers alone, but the statements range over every state. -/

theorem coreState_of_traps {s t : State} {c e : Nat} (h : Traps s t c e) (hlevel : (s.m.cr c).level = 2) :
    t.m.coreState c = coreFault := by
  obtain ⟨-, -, -, -, -, -, -, -, -, hstop⟩ := h
  rw [if_pos hlevel] at hstop
  exact hstop.1

/-- The state of core c after an instruction (R433). -/
def coreStateAfter (i : Instr) (s : State) (c : Nat) : Option Nat :=
  match exec i s with
  | .next t => some (t.m.coreState c)
  | _ => none

theorem coreStateAfter_of_completes {i : Instr} {s : State} {P : State → Prop} {c v : Nat} (h : Completes i s P)
    (hv : ∀ t, P t → t.m.coreState c = v) : coreStateAfter i s c = some v := by
  obtain ⟨t, ht, hP⟩ := h
  simp only [coreStateAfter, ht, hv t hP]

/-- Core 0 at LEVEL 2 with AOVE set, d1 = 1 and acc0 at its largest, and a load pending that writes 0 to SR; the word w at its
next address. -/
def loadsSrCore (w : Nat) : CoreSt := { CoreSt.init 0 with
  regs := [(1, 1), (48, 0x2800)], load := some (48, 0, false), acc := [(0, 2 ^ 79 - 1)], imem := [(0, w)] }

def loadsSr (w : Nat) : State :=
  State.reset.onM fun m => (m.setCr 0 (loadsSrCore w)).setCoreState 0 coreRunning

def issueOfCore0 : Issue := ⟨0, .clean, .clean⟩

/-- MAC acc0, d1, d1: the sum overflows. -/
def wordOverflowingMac : Nat := wordA 0x14 0 1 1 0

/-- B with the reserved COND 13. -/
def wordReservedB : Nat := wordB 0x28 13 0

theorem loadsSr_issues_mac : (loadsSr wordOverflowingMac).issues issueOfCore0 wordOverflowingMac := by
  refine ⟨?_, ?_, rfl⟩ <;> decide +kernel

theorem loadsSr_issues_b : (loadsSr wordReservedB).issues issueOfCore0 wordReservedB := by
  refine ⟨?_, ?_, rfl⟩ <;> decide +kernel

/-- Before the pending load completes, the core is at LEVEL 2, AOVE is set, and the sum does not fit. -/
theorem loadsSr_before : ((loadsSr wordOverflowingMac).m.cr 0).level = 2 ∧ ((loadsSr wordReservedB).m.cr 0).level = 2
    ∧ bit ((loadsSr wordOverflowingMac).m.cr 0).sr 13 = true
    ∧ fits80 (((loadsSr wordOverflowingMac).m.cr 0).accIn 0
        + ((loadsSr wordOverflowingMac).m.cr 0).sd 1 * ((loadsSr wordOverflowingMac).m.cr 0).sd 1) = false := by
  decide +kernel

/-- At LEVEL 0 once the load has completed, the core keeps running towards the entry of its exception. -/
theorem coreStateAfter_mac :
    coreStateAfter (.mac issueOfCore0 0 1 1 false) (loadsSr wordOverflowingMac) 0 = some coreRunning := by
  decide +kernel

theorem coreStateAfter_b : coreStateAfter (.b issueOfCore0 13 0) (loadsSr wordReservedB) 0 = some coreRunning := by
  decide +kernel

/-- Refutes O35: a MAC overflows with AOVE set while a load pending for SR takes LEVEL from 2 to 0. The statement has the core
in FAULT_HALTED; it runs on, with the exception waiting for its entry. -/
theorem not_coreAccumulators : ¬ Obligations.CoreAccumulators := by
  unfold Obligations.CoreAccumulators
  intro h
  obtain ⟨hlevel, -, haove, hoverflow⟩ := loadsSr_before
  obtain ⟨-, hexceptions, -⟩ := h (loadsSr wordOverflowingMac) issueOfCore0 0 1 1
  have hruns := hexceptions false _ _ _ (.inl ⟨rfl, rfl, rfl⟩) hoverflow rfl haove loadsSr_issues_mac
  have hfault : coreStateAfter (.mac issueOfCore0 0 1 1 false) (loadsSr wordOverflowingMac) 0 = some coreFault :=
    coreStateAfter_of_completes hruns fun t ⟨_, _, hstop, _, _⟩ => (if_pos hlevel).mp hstop
  rw [coreStateAfter_mac] at hfault
  exact absurd hfault (by decide)

/-- Refutes O39: a B with a reserved COND raises ILLEGAL while a load pending for SR takes LEVEL from 2 to 0. The statement has
the core in FAULT_HALTED; it runs on, with the exception waiting for its entry. -/
theorem not_coreTransfers : ¬ Obligations.CoreTransfers := by
  unfold Obligations.CoreTransfers
  intro h
  obtain ⟨-, hlevel, -, -⟩ := loadsSr_before
  obtain ⟨-, htraps, -, -⟩ := h (loadsSr wordReservedB) issueOfCore0
  have hruns := htraps _ _ (.inr (.inl ⟨13, 0, rfl, rfl, by decide⟩)) loadsSr_issues_b
  have hfault : coreStateAfter (.b issueOfCore0 13 0) (loadsSr wordReservedB) 0 = some coreFault :=
    coreStateAfter_of_completes hruns fun t htrap => coreState_of_traps htrap hlevel
  rw [coreStateAfter_b] at hfault
  exact absurd hfault (by decide)

end Sys2Proof.Machine
end

section
/-! What an access leaves of the registers, whatever else it does: the shape of every frame clause. -/

namespace Sys2Proof.Machine

/-! ## Frames of the register file -/

/-- No register field outside `P` changes, and no shadow or live value. -/
structure Module.Keeps (P : Nat → Prop) (m m' : Module) : Prop where
  regs : ∀ k, ¬ P k → ∀ d, Store.get d m'.reg.regs k = Store.get d m.reg.regs k
  shadow : m'.reg.shadow = m.reg.shadow
  live : m'.reg.live = m.reg.live

namespace Module.Keeps

variable {P : Nat → Prop} {m m' : Module}

theorem refl (m : Module) : m.Keeps P m := ⟨fun _ _ _ => rfl, rfl, rfl⟩

theorem of_reg (h : m.Keeps P m') {m'' : Module} (hreg : m''.reg = m'.reg) : m.Keeps P m'' := by
  refine ⟨?_, ?_, ?_⟩ <;> rw [hreg]
  · exact h.regs
  · exact h.shadow
  · exact h.live

theorem wr (h : m.Keeps P m') {p : Nat} {f : Fld} {b : Nat} (v : Nat) (hP : P (fieldKey p f b)) : m.Keeps P (m'.wr p f v b) := by
  refine ⟨fun k hk d => ?_, h.shadow, h.live⟩
  have hne : fieldKey p f b ≠ k := fun e => hk (e ▸ hP)
  rw [← h.regs k hk d]
  exact Store.get_set_ne _ _ _ hne _

theorem raise (h : m.Keeps P m') (p b : Nat) : m.Keeps P (m'.raise p b) := by
  have hreg : (m'.raise p b).reg.regs = m'.reg.regs ∧ (m'.raise p b).reg.shadow = m'.reg.shadow
      ∧ (m'.raise p b).reg.live = m'.reg.live := by simp [Module.raise, Module.raiseBits]
  obtain ⟨hregs, hshadow, hlive⟩ := hreg
  exact ⟨by rw [hregs]; exact h.regs, hshadow.trans h.shadow, hlive.trans h.live⟩

end Module.Keeps

theorem keepsRest_of_keeps {s t : State} {keys : List Nat} (h : s.m.Keeps (· ∈ keys) t.m) (hhbm : t.hbm = s.hbm)
    (hpending : t.pending = s.pending) : KeepsRest s t keys :=
  ⟨h.regs, h.shadow, h.live, hhbm, hpending⟩

theorem otherPages_of_keeps {s t : State} {pages : List Nat} (h : s.m.Keeps (keyPage · ∈ pages) t.m) (hhbm : t.hbm = s.hbm)
    (hpending : t.pending = s.pending) : OtherPages s t pages :=
  ⟨h.regs, h.shadow, h.live, hhbm, hpending⟩

theorem fieldKey_ne_of_page {p p' : Nat} {f f' : Fld} (hf : f.small = true) (hf' : f'.small = true) (h : p ≠ p') :
    fieldKey p f 0 ≠ fieldKey p' f' 0 :=
  fieldKey_ne hf hf' (by decide) (by decide) fun e => h e.1

/-! ## Accesses that pass -/

/-- The state in which an access has been charged: the usage counts alone have moved (R41). -/
def State.withUsed (s : State) (used : Store Nat) : State := { s with m.net.used := used }

theorem State.admitted_eq_withUsed {s : State} {r : Requester} {p : Nat} (h : s.arrives r p = true) :
    ∃ used, s.admitted r p = s.withUsed used := by
  simp only [State.arrives, Bool.and_eq_true] at h
  obtain ⟨-, hcharged⟩ := h
  refine ⟨(s.m.chargeAccess r p).2.net.used, ?_⟩
  rw [State.admitted, Module.chargeAccess_rest hcharged]
  rfl

/-- A command that is an access does its work in the charged state. -/
theorem completes_of_via {c : Instr} {s : State} {r : Requester} {p : Nat} {f : State → State} {write : Bool} {P : State → Prop}
    (hexec : exec c s = .next (s.via c r p f write)) (harrives : s.arrives r p = true) (hP : ∀ used, P (f (s.withUsed used))) :
    Completes c s P := by
  obtain ⟨used, hused⟩ := State.admitted_eq_withUsed harrives
  refine ⟨_, hexec, ?_⟩
  rw [State.via_arrives f harrives, ← State.admitted, hused]
  exact hP used

/-! ## Interrupts -/

theorem Module.irqBit_raise_same (m : Module) (p b : Nat) : (m.raise p b).irqBit p b = true := m.irqBit_raise p b

/-- A raised interrupt leaves set what is set. -/
theorem Module.irqBit_raise_of_irqBit {m : Module} {p b : Nat} (q c : Nat) (h : m.irqBit p b = true) :
    (m.raise q c).irqBit p b = true := by
  unfold Module.irqBit at h ⊢
  rw [Module.irqStat_raise]
  by_cases hq : q = p
  · subst hq
    rw [bit_eq_testBit] at h
    rw [Store.get_set_same, bit_eq_testBit, Nat.testBit_or, h, Bool.true_or]
  · rw [Store.get_set_ne _ _ _ hq]
    exact h

theorem Module.irqBit_of_irqStat {m m' : Module} {p b : Nat} (h : m.irqBit p b = true)
    (hirq : m'.reg.irqStat = m.reg.irqStat) : m'.irqBit p b = true := by
  rw [Module.irqBit, hirq]
  exact h

end Sys2Proof.Machine
end

section
/-! A drive leaves the volume (R369–R371): what follows the two interrupts of a retirement lowers none. -/

namespace Sys2Proof.Machine

theorem foldl_irqStat {α : Type} {f : Module → α → Module} (l : List α) (m : Module)
    (hf : ∀ m x, (f m x).reg.irqStat = m.reg.irqStat) : (l.foldl f m).reg.irqStat = m.reg.irqStat := by
  induction l generalizing m with
  | nil => rfl
  | cons x l ih => rw [List.foldl_cons, ih, hf]

@[simp] theorem Module.irqStat_updLedger (m : Module) (n : Nat) (f : DriveRec → DriveRec) :
    (m.updLedger n f).reg.irqStat = m.reg.irqStat := by
  unfold Module.updLedger
  split <;> rfl

@[simp] theorem Module.irqStat_saveWear (m : Module) (n : Nat) : (m.saveWear n).reg.irqStat = m.reg.irqStat :=
  m.irqStat_updLedger n _

@[simp] theorem Module.irqStat_closeExtents (m : Module) (p : Extent → Bool) :
    (m.closeExtents p).reg.irqStat = m.reg.irqStat := by
  unfold Module.closeExtents
  exact foldl_irqStat _ _ fun _ _ => rfl

@[simp] theorem Module.irqStat_recordSubst (m : Module) (kind reason logical out inn : Nat) (source : Option Nat) :
    (m.recordSubst kind reason logical out inn source).reg.irqStat = m.reg.irqStat := by
  unfold Module.recordSubst
  dsimp only
  split <;> rfl

theorem Module.irqStat_issue (m : Module) (n : Nat) (owner : CmdOwner) (act : Nat) (c : DriveCmd) :
    (m.issue n owner act c).reg.irqStat = m.reg.irqStat := rfl

theorem Module.irqStat_writeSuper (m : Module) (n slot : Nat) (b : Superblock) :
    (m.writeSuper n slot b).reg.irqStat = m.reg.irqStat := rfl

@[simp] theorem Module.irqStat_beginCkpt (m : Module) : m.beginCkpt.reg.irqStat = m.reg.irqStat := by
  unfold Module.beginCkpt
  dsimp only
  rw [foldl_irqStat slots _ fun m k => by split <;> rfl]
  refine foldl_irqStat _ _ fun m n => ?_
  rw [Module.irqStat_saveWear]
  exact foldl_irqStat _ _ fun m k => m.irqStat_issue _ _ _ _

@[simp] theorem Module.irqStat_endCkpt (m : Module) (c : Ckpt) : (m.endCkpt c).reg.irqStat = m.reg.irqStat := by
  unfold Module.endCkpt
  simp only [Module.wr_frame]
  rw [foldl_irqStat slots m fun m k => by split <;> rfl]

@[simp] theorem Module.irqStat_ckptAdvance (m : Module) (fuel : Nat) : (m.ckptAdvance fuel).reg.irqStat = m.reg.irqStat := by
  induction fuel generalizing m with
  | zero => rfl
  | succ fuel ih =>
    unfold Module.ckptAdvance
    split
    · rfl
    · next c _ =>
      split
      · rfl
      · extract_lets next flush
        have hnext : ∀ m, (next m).reg = m.reg := fun _ => rfl
        have hflush : ∀ m, (flush m).reg.irqStat = m.reg.irqStat := fun m => by
          dsimp only [flush]
          split
          · exact foldl_irqStat _ _ fun m n => m.irqStat_issue _ _ _ _
          · rfl
        split
        · rw [ih, hnext, hflush]
        · rw [ih, hnext, foldl_irqStat _ _ fun m n => m.irqStat_writeSuper _ _ _]
        · rw [ih, hnext, hflush]
        · split
          · rw [ih, Module.irqStat_beginCkpt, Module.irqStat_endCkpt]
          · rw [Module.irqStat_endCkpt]

@[simp] theorem Module.irqStat_writeCheckpoint (m : Module) : m.writeCheckpoint.reg.irqStat = m.reg.irqStat := by
  unfold Module.writeCheckpoint
  split
  · rfl
  · split
    · rfl
    · rw [Module.irqStat_ckptAdvance, Module.irqStat_beginCkpt]

@[simp] theorem Module.irqStat_clearSevere (m : Module) (source : Nat) : (m.clearSevere source).reg.irqStat = m.reg.irqStat := rfl

@[simp] theorem Module.irqStat_setPt (m : Module) (n : Nat) (v : PortSt) : (m.setPt n v).reg.irqStat = m.reg.irqStat := rfl

@[simp] theorem Module.irqStat_finishRetire (m : Module) (n : Nat) : (m.finishRetire n).reg.irqStat = m.reg.irqStat := by
  unfold Module.finishRetire
  split
  · rfl
  · split
    · rfl
    · simp only [Module.irqStat_writeCheckpoint, Module.irqStat_clearSevere]
      split <;> simp

/-- A member's retirement raises its two interrupts first; of what follows, only further raises touch the status bits. -/
theorem Module.irqBit_retire {m : Module} {n reason p b : Nat} (hrole : m.roleOf n = 1) (hretiring : (m.pt n).retiring = none)
    (h : ((m.raise pgStr 10).raise (pgNvp n) 13).irqBit p b = true) : (m.retire n reason).irqBit p b = true := by
  have hgo : ¬((m.pt n).retiring.isSome || (m.roleOf n != 1 && m.roleOf n != 2)) = true := by simp [hrole, hretiring]
  have hmember : ¬m.roleOf n = 2 := by rw [hrole]; decide
  unfold Module.retire
  extract_lets _ flagged retired _ active left sp joins lost noted listed _
  rw [if_neg hgo, if_neg hmember]
  have hraised : ∀ m' : Module, m'.reg.irqStat = retired.reg.irqStat → ∀ c, (m'.raise pgStr c).irqBit p b = true :=
    fun m' hirq c => Module.irqBit_raise_of_irqBit _ _ (Module.irqBit_of_irqStat h hirq)
  have hlost : lost.irqBit p b = true :=
    Module.irqBit_of_irqStat (hraised (retired.wr pgStr STR_VOL_STATUS.ACTIVE left) rfl 15) rfl
  have hnoted : noted.irqBit p b = true := by
    dsimp only [noted]
    split
    · refine hraised _ ?_ 11
      rfl
    · split
      · exact Module.irqBit_of_irqStat hlost rfl
      · exact hlost
  have hlisted : listed.irqBit p b = true := by
    dsimp only [listed]
    split
    · exact Module.irqBit_of_irqStat hnoted rfl
    · exact hnoted
  exact Module.irqBit_of_irqStat hlisted (Module.irqStat_finishRetire _ n)

end Sys2Proof.Machine
end

section
/-! The management port, the alert, the mailbox and the safety partition's own registers (R441–R447, R464). -/

namespace Sys2Proof.Machine

/-! ## The management port (R441, R442) -/

theorem exec_mgtRegisterWrite_good {s : State} (hup : s.m.portUp = true) (off : Nat) (v : Word) :
    exec (.mgtRegisterWrite off v true) s = .next (s.write (.mgtRegisterWrite off v true) .mgt off 4 v) := by
  show execMgtRegisterWrite _ _ _ _ = _
  simp [execMgtRegisterWrite, hup]

theorem exec_mgtRegisterWrite_bad {s : State} (hup : s.m.portUp = true) (off : Nat) (v : Word) :
    exec (.mgtRegisterWrite off v false) s = .next (s.onM Module.pecError) := by
  show execMgtRegisterWrite _ _ _ _ = _
  simp [execMgtRegisterWrite, hup]

theorem exec_mgtRegisterRead_bad {s : State} (hup : s.m.portUp = true) (off : Nat) (late : Bool) :
    exec (.mgtRegisterRead off false late) s = .next (s.onM fun m => m.pecError.mgtReply (List.replicate 4 0xFF) false) := by
  show execMgtRegisterRead _ _ _ _ = _
  simp [execMgtRegisterRead, hup]

/-- The reply to a read is its data with a check byte behind it; on MSPI the CRC-8, complemented for a discarded request. -/
def Module.Replies (m : Module) (data : List Byte) (good : Bool) : Prop :=
  m.hostif.reply.take 4 = data ∧ m.hostif.reply.length = 5
    ∧ (Config.msel = true → m.hostif.reply[4]? = some (if good then crc8 data else ~~~(crc8 data)))

theorem Module.replies_mgtReply (m : Module) {data : List Byte} (hdata : data.length = 4) (good : Bool) :
    (m.mgtReply data good).Replies data good := by
  unfold Module.Replies Module.mgtReply
  split
  · simp [hdata]
  · next hpec => simp [hdata, hpec, Module.draw]

@[simp] theorem Module.mgtReply_reg (m : Module) (data : List Byte) (good : Bool) : (m.mgtReply data good).reg = m.reg := by
  unfold Module.mgtReply
  split <;> rfl

@[simp] theorem Module.mgtReply_net (m : Module) (data : List Byte) (good : Bool) : (m.mgtReply data good).net = m.net := by
  unfold Module.mgtReply
  split <;> rfl

theorem Module.rd_mgtReply (m : Module) (data : List Byte) (good : Bool) (p : Nat) (f : Fld) :
    (m.mgtReply data good).rd p f = m.rd p f := by
  rw [Module.rd, Module.mgtReply_reg, Module.rd]

theorem Module.reporting_report (m : Module) (island source : Nat) : (m.report island source).reporting source :=
  ⟨_, List.mem_append_right _ List.mem_cons_self, rfl, _, rfl, rfl⟩

theorem Module.keeps_pecError (m : Module) : m.Keeps (· ∈ [fieldKey pgMgt MGT_PORT.PEC_ERRORS 0]) m.pecError :=
  ((Module.Keeps.refl m).wr _ List.mem_cons_self).of_reg rfl

theorem State.takeWrite_safWall (s : State) (v : Word) :
    s.takeWrite .mgt (4096 * pgSaf + SAF_WALL.SECONDS.off) 4 v = s.takeSafWall .mgt v := by
  rfl

theorem State.takeRead_safWall (s : State) :
    s.takeRead .mgt (4096 * pgSaf + SAF_WALL.SECONDS.off) 4 =
      s.onM fun m => m.setAnswer .mgt (m.readWord pgSaf SAF_WALL.SECONDS.off) := by
  rfl

/-- A read of the wall clock returns its word and changes no register. -/
theorem State.takeRead_safWall_replies (s : State) {t : State}
    (ht : t = (s.takeRead .mgt (4096 * pgSaf + SAF_WALL.SECONDS.off) 4).onM fun m =>
      m.mgtReply (leBytes 4 (m.reg.answer.get 0 (requesterKey .mgt))) true) :
    t.m.Replies (leBytes 4 (s.m.readWord pgSaf SAF_WALL.SECONDS.off)) true ∧ KeepsRest s t [] := by
  rw [State.takeRead_safWall] at ht
  simp only [State.onM, Module.setAnswer, Store.get_set_same] at ht
  subst ht
  refine ⟨Module.replies_mgtReply _ rfl true, keepsRest_of_keeps (Module.Keeps.of_reg ?_ (Module.mgtReply_reg _ _ _)) rfl rfl⟩
  exact ⟨fun _ _ _ => rfl, rfl, rfl⟩

theorem State.read_of_arrives {s : State} {r : Requester} {off : Nat} (h : s.arrives r (off / 4096) = true) (c : Instr)
    (bytes : Nat) : s.read c r off bytes = (s.admitted r (off / 4096)).takeRead r off bytes := by
  have hclaimed : s.m.claimed (off / 4096) = true := by
    simp only [State.arrives, Bool.and_eq_true] at h
    obtain ⟨⟨-, hclaimed⟩, -⟩ := h
    exact hclaimed
  simp only [State.read, hclaimed, Bool.not_true, Bool.and_false, Bool.false_eq_true, if_false]
  exact State.via_arrives _ h

theorem State.read_of_not_reaches {s : State} {off : Nat} (h : s.m.reaches .mgt (off / 4096) = false) (c : Instr) (bytes : Nat) :
    s.read c .mgt off bytes = s := by
  simp [State.read, State.via, h]

/-- A read that is held up returns ones and sets LATE (R442). -/
theorem exec_mgtRegisterRead_unreached {s : State} {off : Nat} (hup : s.m.portUp = true)
    (h : s.m.reaches .mgt (off / 4096) = false) (late : Bool) :
    exec (.mgtRegisterRead off true late) s = .next (s.onM fun m =>
      ((m.setAnswer .mgt 0xFFFFFFFF).wr pgMgt MGT_PORT.LATE 1).mgtReply (List.replicate 4 0xFF) true) := by
  show execMgtRegisterRead _ _ _ _ = _
  simp [execMgtRegisterRead, hup, State.read_of_not_reaches h, h]

/-- A read of a page of island 57 that arrives is never late. -/
theorem exec_mgtRegisterRead_arrives {s : State} {off p : Nat} (hoff : off / 4096 = p) (hup : s.m.portUp = true)
    (h : s.arrives .mgt p = true) (hisland : pageIsland p = 57) (late : Bool) :
    exec (.mgtRegisterRead off true late) s = .next (((s.admitted .mgt p).takeRead .mgt off 4).onM fun m =>
      m.mgtReply (leBytes 4 (m.reg.answer.get 0 (requesterKey .mgt))) true) := by
  subst hoff
  have hpasses := h
  simp only [State.arrives, Bool.and_eq_true] at hpasses
  obtain ⟨⟨hreaches, hclaimed⟩, hcharged⟩ := hpasses
  show execMgtRegisterRead _ _ _ _ = _
  simp [execMgtRegisterRead, hup, State.read_of_arrives h, hreaches, hclaimed, hcharged, hisland]

/-! ## The wall clock and the injection registers (R447, R464) -/

theorem State.takeSafWall_mgt (s : State) (v : Word) :
    (s.takeSafWall .mgt v).m.rd pgSaf SAF_WALL.SECONDS = v.toNat ∧ (s.takeSafWall .mgt v).m.rd pgSaf SAF_STATUS.WALL_SET = 1
      ∧ KeepsRest s (s.takeSafWall .mgt v) [fieldKey pgSaf SAF_WALL.SECONDS 0, fieldKey pgSaf SAF_STATUS.WALL_SET 0] := by
  simp only [State.takeSafWall, State.onM_m, if_true]
  refine ⟨?_, Module.rd_wr_same _ _ _ _ _, keepsRest_of_keeps ?_ rfl rfl⟩
  · rw [Module.rd_wr_ne _ _ (by decide), Module.rd_wr_same]
    exact Nat.mod_eq_of_lt v.isLt
  · exact ((Module.Keeps.refl _).wr _ (by simp)).wr _ (by simp)

theorem State.takeSafWall_other {r : Requester} (hr : r ≠ .mgt) (s : State) (v : Word) : s.takeSafWall r v = s := by
  simp [State.takeSafWall, State.onM, hr]

theorem State.takeSafInjCount_other {r : Requester} (hr : r ≠ .mgt) (s : State) (n : BitVec 16) : s.takeSafInjCount r n = s := by
  simp [State.takeSafInjCount, State.onM, hr]

theorem State.takeSafInjCount_arms {s : State} {n : BitVec 16} (hn : n.toNat ≠ 0)
    (hinst : s.m.rd pgSaf SAF_INJ_SEL.INSTANCE < checkerInstances (s.m.rd pgSaf SAF_INJ_SEL.CHECKER))
    (hmode : s.m.rd pgSaf SAF_INJ_SEL.MODE < 2) :
    (s.takeSafInjCount .mgt n).m.armed (s.m.rd pgSaf SAF_INJ_SEL.CHECKER) (s.m.rd pgSaf SAF_INJ_SEL.INSTANCE) = n.toNat
      ∧ (s.takeSafInjCount .mgt n).m.armedDouble (s.m.rd pgSaf SAF_INJ_SEL.CHECKER) (s.m.rd pgSaf SAF_INJ_SEL.INSTANCE)
        = (s.m.rd pgSaf SAF_INJ_SEL.MODE == 1)
      ∧ KeepsRest s (s.takeSafInjCount .mgt n) [fieldKey pgSaf SAF_INJ_COUNT.COUNT 0] := by
  have hsel : ∀ f : Fld, fieldKey pgSaf SAF_INJ_COUNT.COUNT 0 ≠ fieldKey pgSaf f 0 →
      (s.m.wr pgSaf SAF_INJ_COUNT.COUNT n.toNat).rd pgSaf f = s.m.rd pgSaf f := fun f hf => Module.rd_wr_ne _ _ hf
  have harm : ¬(n.toNat = 0 ∨ checkerInstances (s.m.rd pgSaf SAF_INJ_SEL.CHECKER) ≤ s.m.rd pgSaf SAF_INJ_SEL.INSTANCE) := by
    omega
  have harmed : s.takeSafInjCount .mgt n = s.onM fun m => { m.wr pgSaf SAF_INJ_COUNT.COUNT n.toNat with
      net.injectNext := m.net.injectNext.set 0 (injectKey (m.rd pgSaf SAF_INJ_SEL.CHECKER) (m.rd pgSaf SAF_INJ_SEL.INSTANCE))
        (n.toNat * 2 + m.rd pgSaf SAF_INJ_SEL.MODE) } := by
    simp only [State.takeSafInjCount, State.onM, if_true, hsel SAF_INJ_SEL.CHECKER (by decide),
      hsel SAF_INJ_SEL.INSTANCE (by decide), hsel SAF_INJ_SEL.MODE (by decide), if_neg harm, Module.wr_frame]
  rw [harmed]
  refine ⟨?_, ?_, keepsRest_of_keeps (((Module.Keeps.refl _).wr _ List.mem_cons_self).of_reg rfl) rfl rfl⟩
  · simp only [Module.armed, State.onM_m, Store.get_set_same]
    omega
  · simp only [Module.armedDouble, State.onM_m, Store.get_set_same, Nat.mul_add_mod_self_right]
    rw [Nat.mod_eq_of_lt hmode]

/-! ## The alert and the mailbox (R443–R445) -/

/-- Clearing five alert bits by a mask (R443). -/
theorem bit_clearMask (cause bits : Nat) {b : Nat} (hb : b < 5) :
    bit ((cause &&& (31 ^^^ bits)) % 2 ^ 5) b = (bit cause b && !bit bits b) := by
  have hones : Nat.testBit 31 b = true := by rw [show 31 = 2 ^ 5 - 1 from rfl, Nat.testBit_two_pow_sub_one, decide_eq_true hb]
  simp only [bit_eq_testBit, Nat.testBit_mod_two_pow, Nat.testBit_and, Nat.testBit_xor, hones, hb, decide_true, Bool.true_and,
    Bool.true_xor]

theorem State.takeMgtAlertClear_cause (s : State) (r : Requester) (bits : BitVec 5) (b : Fin 5) :
    bit ((s.takeMgtAlertClear r bits).m.rd pgMgt MGT_ALERT.CAUSE) b
      = (bit (s.m.rd pgMgt MGT_ALERT.CAUSE) b && !(r == .mgt && bit bits.toNat b)) := by
  simp only [State.takeMgtAlertClear, State.onM_m]
  split
  · next h => rw [Module.rd_wr_same, h, beq_self_eq_true, Bool.true_and]; exact bit_clearMask _ _ b.isLt
  · next h => simp [h]

theorem State.takeMgtAlertClear_keeps (s : State) (r : Requester) (bits : BitVec 5) :
    KeepsRest s (s.takeMgtAlertClear r bits) [fieldKey pgMgt MGT_ALERT.CAUSE 0] := by
  refine keepsRest_of_keeps ?_ rfl rfl
  simp only [State.takeMgtAlertClear, State.onM_m]
  split
  · exact (Module.Keeps.refl _).wr _ (by simp)
  · exact Module.Keeps.refl _

theorem Module.alert_cause (m : Module) {b : Nat} (hb : b < 5) : bit ((m.alert b).rd pgMgt MGT_ALERT.CAUSE) b = true := by
  have hwidth : MGT_ALERT.CAUSE.width = 5 := rfl
  rw [Module.alert, Module.rd_wr_same, bit_eq_testBit, hwidth, Nat.testBit_mod_two_pow, Nat.testBit_or, Nat.testBit_two_pow_self,
    decide_eq_true hb, Bool.or_true, Bool.true_and]

theorem Module.rd_alert (m : Module) (b : Nat) {f : Fld} (h : fieldKey pgMgt MGT_ALERT.CAUSE 0 ≠ fieldKey pgMgt f 0) :
    (m.alert b).rd pgMgt f = m.rd pgMgt f :=
  Module.rd_wr_ne _ _ h

/-- A write of a MGT field is a change of that page alone. -/
theorem Module.Keeps.wr_mgt {m m' : Module} (h : m.Keeps (keyPage · ∈ [pgMgt]) m') {f : Fld} (hf : f.small = true) (v : Nat) :
    m.Keeps (keyPage · ∈ [pgMgt]) (m'.wr pgMgt f v) := by
  refine h.wr v ?_
  simp only [Fld.small, Bool.and_eq_true, decide_eq_true_eq] at hf
  simp only [List.mem_singleton, keyPage, fieldKey, pgMgt]
  omega

/-- A GO that is taken: the next SEQ, PENDING, and the alert's first cause. -/
def Module.mailboxGo (m : Module) : Module := ((m.step pgMgt MGT_RESP.SEQ).wr pgMgt MGT_RESP.STATE 1).alert 0

theorem Module.keeps_mailboxGo (m : Module) : m.Keeps (keyPage · ∈ [pgMgt]) m.mailboxGo :=
  (((Module.Keeps.refl m).wr_mgt rfl _).wr_mgt rfl _).wr_mgt rfl _

/-- A GO while no request is PENDING (R444). -/
theorem State.takeMgtReqGo_idle {s : State} {r : Requester} (hr : r ≠ .jdl) (h : s.m.rd pgMgt MGT_RESP.STATE ≠ 1) :
    (s.takeMgtReqGo r).m.rd pgMgt MGT_RESP.STATE = 1
      ∧ (s.takeMgtReqGo r).m.rd pgMgt MGT_RESP.SEQ = (s.m.rd pgMgt MGT_RESP.SEQ + 1) % 2 ^ MGT_RESP.SEQ.width
      ∧ bit ((s.takeMgtReqGo r).m.rd pgMgt MGT_ALERT.CAUSE) 0 = true ∧ OtherPages s (s.takeMgtReqGo r) [pgMgt] := by
  have hreg : (s.takeMgtReqGo r).m.reg = s.m.mailboxGo.reg := by
    simp only [State.takeMgtReqGo, State.onM_m, if_neg hr, if_neg h, Module.mailboxGo]
  have hrd : ∀ f, (s.takeMgtReqGo r).m.rd pgMgt f = s.m.mailboxGo.rd pgMgt f := fun f => by rw [Module.rd, hreg, Module.rd]
  simp only [hrd]
  refine ⟨?_, ?_, Module.alert_cause _ (by decide), otherPages_of_keeps (s.m.keeps_mailboxGo.of_reg hreg) rfl rfl⟩
  · rw [Module.mailboxGo, Module.rd_alert _ _ (by decide), Module.rd_wr_same]
    rfl
  · rw [Module.mailboxGo, Module.rd_alert _ _ (by decide), Module.rd_wr_ne _ _ (by decide), Module.step, Module.rd_wr_same]

/-- A GO while a request is PENDING is counted and refused (R444). -/
theorem State.takeMgtReqGo_busy {s : State} {r : Requester} (hr : r ≠ .jdl) (h : s.m.rd pgMgt MGT_RESP.STATE = 1) :
    (s.takeMgtReqGo r).m.rd pgMgt MGT_REQ_STATS.REFUSED_BUSY
        = Nat.min (s.m.rd pgMgt MGT_REQ_STATS.REFUSED_BUSY + 1) (2 ^ MGT_REQ_STATS.REFUSED_BUSY.width - 1)
      ∧ KeepsRest s (s.takeMgtReqGo r) [fieldKey pgMgt MGT_REQ_STATS.REFUSED_BUSY 0] := by
  have hbusy : s.takeMgtReqGo r = s.onM fun m => m.bump pgMgt MGT_REQ_STATS.REFUSED_BUSY := by
    simp [State.takeMgtReqGo, State.onM, hr, h]
  rw [hbusy]
  exact ⟨Module.rd_bump_same _ _ _ _ _, keepsRest_of_keeps (Module.Keeps.wr (.refl _) _ List.mem_cons_self) rfl rfl⟩

/-- An answer in time, while the request is PENDING (R445). -/
theorem State.takeMgtResp_answers {s : State} {state : Fin 8} (reason : Byte) (hpending : s.m.rd pgMgt MGT_RESP.STATE = 1)
    (hlate : s.m.mailboxLate = false) (hstate : state.val = 2 ∨ state.val = 3) :
    (s.takeMgtResp .mgt state reason).m.rd pgMgt MGT_RESP.STATE = state.val
      ∧ (s.takeMgtResp .mgt state reason).m.rd pgMgt MGT_RESP.REASON = reason.toNat
      ∧ (s.takeMgtResp .mgt state reason).m.irqBit pgMgt 8 = true
      ∧ KeepsRest s (s.takeMgtResp .mgt state reason) [fieldKey pgMgt MGT_RESP.STATE 0, fieldKey pgMgt MGT_RESP.REASON 0] := by
  have hanswer : s.takeMgtResp .mgt state reason
      = s.onM fun m => ((m.wr pgMgt MGT_RESP.STATE state).wr pgMgt MGT_RESP.REASON reason.toNat).raise pgMgt 8 := by
    simp [State.takeMgtResp, State.onM, hpending, hlate, hstate]
  rw [hanswer]
  refine ⟨?_, ?_, Module.irqBit_raise_same _ _ _, keepsRest_of_keeps (Module.Keeps.raise ?_ _ _) rfl rfl⟩
  · rw [State.onM_m, Module.rd_raise, Module.rd_wr_ne _ _ (by decide), Module.rd_wr_same]
    exact Nat.mod_eq_of_lt state.isLt
  · rw [State.onM_m, Module.rd_raise, Module.rd_wr_same]
    exact Nat.mod_eq_of_lt reason.isLt
  · exact ((Module.Keeps.refl _).wr _ (by simp)).wr _ (by simp)

theorem State.takeMgtResp_ignored {s : State} {r : Requester}
    (h : r ≠ .mgt ∨ s.m.rd pgMgt MGT_RESP.STATE ≠ 1 ∨ s.m.mailboxLate = true) (state : Fin 8) (reason : Byte) :
    s.takeMgtResp r state reason = s := by
  simp only [State.takeMgtResp, State.onM]
  split
  · rfl
  · next hlate =>
    rw [if_neg]
    rintro ⟨hr, hpending, -⟩
    rcases h with h | h | h
    · exact h hr
    · exact h hpending
    · exact hlate h

/-- The mailbox times out (R445). -/
theorem exec_mailboxTimeout_late {s : State} (h : s.m.mailboxLate = true) :
    exec .mailboxTimeout s = .next (s.onM fun m => (m.wr pgMgt MGT_RESP.STATE 4).raise pgMgt 8) := by
  show execMailboxTimeout s = _
  simp [execMailboxTimeout, State.onM, h]

theorem Module.mailboxLate_iff {m : Module} : m.mailboxLate = true ↔
    m.rd pgMgt MGT_RESP.STATE = 1 ∧ m.safety.askedAt + m.rd pgMgt MGT_REQ_TIMEOUT.MS * 2000000 ≤ m.clk.ticks := by
  simp [Module.mailboxLate]

end Sys2Proof.Machine
end

section
/-! A substitution that the management controller requests (R446). -/

namespace Sys2Proof.Machine

/-! ## The answer does not depend on the MGT page -/

theorem Module.rd_wr_otherPage (m : Module) {p p' : Nat} {f f' : Fld} (hf : f.small = true) (hf' : f'.small = true) (hp : p ≠ p')
    (v : Nat) : (m.wr p f v).rd p' f' = m.rd p' f' :=
  m.rd_wr_ne v (fieldKey_ne_of_page hf hf' hp)

/-- The pages that an answer looks at all lie behind the MGT page in the map. -/
theorem Module.rd_wr_mgt (m : Module) {p : Nat} {f f' : Fld} (hf : f.small = true) (hf' : f'.small = true) (hp : 10 ≤ p)
    (v : Nat) : (m.wr pgMgt f v).rd p f' = m.rd p f' :=
  m.rd_wr_otherPage hf hf' (by rw [pgMgt]; omega) v

section

variable (m : Module) {f : Fld} (hf : f.small = true) (v : Nat)
include hf

theorem Module.substSlice_wr_mgt (u : Nat) : (m.wr pgMgt f v).substSlice u = m.substSlice u := by
  rw [Module.substSlice, m.rd_wr_mgt hf rfl (by unfold pgCnv; omega)]
  rfl

theorem Module.substBrick_wr_mgt (u : Nat) : (m.wr pgMgt f v).substBrick u = m.substBrick u := by
  rw [Module.substBrick, m.rd_wr_mgt hf rfl (by unfold pgBrk; omega), m.rd_wr_mgt hf rfl (by unfold pgBrk; omega)]
  rfl

theorem Module.substCore_wr_mgt (cluster : Bool) (u : Nat) : (m.wr pgMgt f v).substCore cluster u = m.substCore cluster u := by
  rw [Module.substCore, Module.coreState, m.rd_wr_mgt hf rfl (by unfold pgCore; omega)]
  rfl

theorem Module.substLane_wr_mgt (u : Nat) : (m.wr pgMgt f v).substLane u = m.substLane u := by
  have hspare : (m.wr pgMgt f v).laneSpare u = m.laneSpare u := by
    rw [Module.laneSpare, m.rd_wr_mgt hf rfl (by decide), m.rd_wr_mgt hf rfl (by decide)]
    rfl
  rw [Module.substLane, hspare]
  rfl

theorem Module.substDensity_wr_mgt (u : Nat) : (m.wr pgMgt f v).substDensity u = m.substDensity u := by
  have hisland : (m.wr pgMgt f v).denIsland u = m.denIsland u := by
    rw [Module.denIsland, Module.denPhys, m.rd_wr_mgt hf rfl (by unfold pgDen; omega)]
    rfl
  rw [Module.substDensity, hisland, m.rd_wr_mgt hf rfl (by unfold pgDen; omega)]
  rfl

theorem Module.roleOf_wr_mgt (u : Nat) : (m.wr pgMgt f v).roleOf u = m.roleOf u := by
  rw [Module.roleOf, Module.ledgerOf, m.rd_wr_mgt hf rfl (by unfold pgNvp; omega)]
  rfl

theorem Module.substDrive_wr_mgt (u : Nat) : (m.wr pgMgt f v).substDrive u = m.substDrive u := by
  have hspare : (m.wr pgMgt f v).sparePort = m.sparePort := m.rd_wr_mgt hf rfl (by decide) v
  rw [Module.substDrive, hspare, m.roleOf_wr_mgt hf, m.roleOf_wr_mgt hf, Module.driveState,
    m.rd_wr_mgt hf rfl (by unfold pgNvp; omega)]
  rfl

theorem Module.substAnswer_wr_mgt (kind u : Nat) : (m.wr pgMgt f v).substAnswer kind u = m.substAnswer kind u := by
  rw [Module.substAnswer, m.substSlice_wr_mgt hf, m.substBrick_wr_mgt hf, m.substCore_wr_mgt hf, m.substCore_wr_mgt hf,
    m.substLane_wr_mgt hf, m.substDensity_wr_mgt hf, m.substDrive_wr_mgt hf]
  rfl

end

theorem Module.roleOf_of_substDrive_done {m : Module} {u : Nat} (h : m.substDrive u = .done) : m.roleOf u = 1 := by
  unfold Module.substDrive at h
  split at h
  · contradiction
  · next hmember => exact Decidable.not_not.mp fun hrole => hmember (.inr hrole)

/-! ## What a request does -/

/-- The fields of MGT_SUBST are stored, and RESULT returns to NONE. -/
def Module.requested (m : Module) (kind : Byte) (logical : BitVec 16) : Module :=
  ((m.wr pgMgt MGT_SUBST.KIND kind.toNat).wr pgMgt MGT_SUBST.LOGICAL logical.toNat).wr pgMgt MGT_SUBST_STATUS.RESULT 0

theorem State.takeMgtSubstGo_mgt (s : State) (kind : Byte) (logical : BitVec 16) :
    s.takeMgtSubstGo .mgt kind logical = s.onM fun m => (m.requested kind logical).substGo kind.toNat logical.toNat := rfl

theorem State.takeMgtSubstGo_other {r : Requester} (hr : r ≠ .mgt) (s : State) (kind : Byte) (logical : BitVec 16) :
    s.takeMgtSubstGo r kind logical = s := by
  simp [State.takeMgtSubstGo, State.onM, hr]

theorem Module.substAnswer_requested (m : Module) (kind : Byte) (logical : BitVec 16) (k u : Nat) :
    (m.requested kind logical).substAnswer k u = m.substAnswer k u := by
  rw [Module.requested, Module.substAnswer_wr_mgt _ rfl, Module.substAnswer_wr_mgt _ rfl, Module.substAnswer_wr_mgt _ rfl]

theorem Module.keeps_requested (m : Module) (kind : Byte) (logical : BitVec 16) :
    m.Keeps (keyPage · ∈ [pgMgt]) (m.requested kind logical) :=
  (((Module.Keeps.refl m).wr_mgt rfl _).wr_mgt rfl _).wr_mgt rfl _

theorem Module.requested_result (m : Module) (kind : Byte) (logical : BitVec 16) :
    (m.requested kind logical).rd pgMgt MGT_SUBST_STATUS.RESULT = 0 :=
  Module.rd_wr_same _ _ _ _ _

theorem Module.requested_kind (m : Module) (kind : Byte) (logical : BitVec 16) :
    (m.requested kind logical).rd pgMgt MGT_SUBST.KIND = kind.toNat := by
  rw [Module.requested, Module.rd_wr_ne _ _ (by decide), Module.rd_wr_ne _ _ (by decide), Module.rd_wr_same]
  exact Nat.mod_eq_of_lt kind.isLt

theorem Module.requested_logical (m : Module) (kind : Byte) (logical : BitVec 16) :
    (m.requested kind logical).rd pgMgt MGT_SUBST.LOGICAL = logical.toNat := by
  rw [Module.requested, Module.rd_wr_ne _ _ (by decide), Module.rd_wr_same]
  exact Nat.mod_eq_of_lt logical.isLt

theorem Module.substResult_result (m : Module) {result : Nat} (h : result < 4) :
    (m.substResult result).rd pgMgt MGT_SUBST_STATUS.RESULT = result :=
  (Module.rd_alert _ _ (by decide)).trans ((Module.rd_wr_same _ _ _ _ _).trans (Nat.mod_eq_of_lt h))

theorem Module.rd_substResult (m : Module) (result : Nat) {f : Fld}
    (hcause : fieldKey pgMgt MGT_ALERT.CAUSE 0 ≠ fieldKey pgMgt f 0)
    (hresult : fieldKey pgMgt MGT_SUBST_STATUS.RESULT 0 ≠ fieldKey pgMgt f 0) :
    (m.substResult result).rd pgMgt f = m.rd pgMgt f :=
  (Module.rd_alert _ _ hcause).trans (Module.rd_wr_ne _ _ hresult)

theorem Module.Keeps.substResult {m m' : Module} (h : m.Keeps (keyPage · ∈ [pgMgt]) m') (result : Nat) :
    m.Keeps (keyPage · ∈ [pgMgt]) (m'.substResult result) := by
  have hcleared : m.Keeps (keyPage · ∈ [pgMgt]) ({ m' with safety.request := none } : Module) := h.of_reg rfl
  exact (hcleared.wr_mgt (f := MGT_SUBST_STATUS.RESULT) rfl result).wr_mgt (f := MGT_ALERT.CAUSE) rfl _

theorem Module.substGo_of_refused {m : Module} {kind u : Nat} (h : m.substAnswer kind u = .refused) :
    m.substGo kind u = m.substResult 3 := by
  rw [Module.substGo, h]

theorem Module.substGo_of_noSpare {m : Module} {kind u : Nat} (h : m.substAnswer kind u = .noSpare) :
    m.substGo kind u = m.substResult 2 := by
  rw [Module.substGo, h]

theorem Module.substGo_of_order {m : Module} {kind u island unit : Nat} (h : m.substAnswer kind u = .order island unit) :
    m.substGo kind u
      = ({ m with safety.request := some (kind, u) } : Module).post 58 island .evt (.substOrder kind unit 0) := by
  rw [Module.substGo, h]

theorem Module.substGo_of_channel {m : Module} {u : Nat} (h : m.substAnswer 8 u = .done) :
    m.substGo 8 u = ({ m with safety.request := some (8, u) } : Module).setSt (u / 32)
      { m.st (u / 32) with waiting := (m.st (u / 32)).waiting ++ [⟨u % 32, none, 0, channelUnits⟩] } := by
  rw [Module.substGo, h]
  rfl

/-- A drive that serves retires at once, and says so on two pages (R369). -/
theorem Module.irqBits_substGo_of_drive {m : Module} {u : Nat} (h : m.substAnswer 9 u = .done)
    (hretiring : (m.pt u).retiring = none) :
    (m.substGo 9 u).irqBit pgStr 10 = true ∧ (m.substGo 9 u).irqBit (pgNvp u) 13 = true := by
  have hrole : m.roleOf u = 1 := Module.roleOf_of_substDrive_done h
  have hgo : m.substGo 9 u = ({ m with safety.request := some (9, m.sparePort) } : Module).retire u 3 := by
    rw [Module.substGo, h]
    rfl
  rw [hgo]
  refine ⟨Module.irqBit_retire hrole hretiring ?_, Module.irqBit_retire hrole hretiring ?_⟩
  · exact Module.irqBit_raise_of_irqBit _ _ (Module.irqBit_raise_same _ _ _)
  · exact Module.irqBit_raise_same _ _ _

section

variable {s : State} {kind : Byte} {logical : BitVec 16}

theorem State.takeMgtSubstGo_refused (h : s.m.substAnswer kind.toNat logical.toNat = .refused) :
    (s.takeMgtSubstGo .mgt kind logical).m.rd pgMgt MGT_SUBST_STATUS.RESULT = 3
      ∧ (s.takeMgtSubstGo .mgt kind logical).m.rd pgMgt MGT_SUBST.KIND = kind.toNat
      ∧ (s.takeMgtSubstGo .mgt kind logical).m.rd pgMgt MGT_SUBST.LOGICAL = logical.toNat
      ∧ OtherPages s (s.takeMgtSubstGo .mgt kind logical) [pgMgt] := by
  rw [← s.m.substAnswer_requested kind logical] at h
  rw [State.takeMgtSubstGo_mgt, State.onM, Module.substGo_of_refused h]
  exact ⟨Module.substResult_result _ (by decide),
    (Module.rd_substResult _ _ (by decide) (by decide)).trans (s.m.requested_kind kind logical),
    (Module.rd_substResult _ _ (by decide) (by decide)).trans (s.m.requested_logical kind logical),
    otherPages_of_keeps ((s.m.keeps_requested kind logical).substResult 3) rfl rfl⟩

theorem State.takeMgtSubstGo_noSpare (h : s.m.substAnswer kind.toNat logical.toNat = .noSpare) :
    (s.takeMgtSubstGo .mgt kind logical).m.rd pgMgt MGT_SUBST_STATUS.RESULT = 2
      ∧ OtherPages s (s.takeMgtSubstGo .mgt kind logical) [pgMgt] := by
  rw [← s.m.substAnswer_requested kind logical] at h
  rw [State.takeMgtSubstGo_mgt, State.onM, Module.substGo_of_noSpare h]
  exact ⟨Module.substResult_result _ (by decide),
    otherPages_of_keeps ((s.m.keeps_requested kind logical).substResult 2) rfl rfl⟩

theorem State.takeMgtSubstGo_order {island unit : Nat} (h : s.m.substAnswer kind.toNat logical.toNat = .order island unit) :
    (s.takeMgtSubstGo .mgt kind logical).m.rd pgMgt MGT_SUBST_STATUS.RESULT = 0
      ∧ (s.takeMgtSubstGo .mgt kind logical).m.underWay 58 island (.substOrder kind.toNat unit 0)
      ∧ (s.takeMgtSubstGo .mgt kind logical).m.safety.request = some (kind.toNat, logical.toNat)
      ∧ OtherPages s (s.takeMgtSubstGo .mgt kind logical) [pgMgt] := by
  rw [← s.m.substAnswer_requested kind logical] at h
  rw [State.takeMgtSubstGo_mgt, State.onM, Module.substGo_of_order h]
  exact ⟨s.m.requested_result kind logical, ⟨_, List.mem_append_right _ List.mem_cons_self, rfl, rfl, rfl⟩, rfl,
    otherPages_of_keeps ((s.m.keeps_requested kind logical).of_reg rfl) rfl rfl⟩

theorem State.takeMgtSubstGo_channel (hkind : kind.toNat = 8) (h : s.m.substAnswer 8 logical.toNat = .done) :
    (s.takeMgtSubstGo .mgt kind logical).m.rd pgMgt MGT_SUBST_STATUS.RESULT = 0
      ∧ (s.takeMgtSubstGo .mgt kind logical).m.safety.request = some (8, logical.toNat)
      ∧ ((s.takeMgtSubstGo .mgt kind logical).m.st (logical.toNat / 32)).waiting
        = (s.m.st (logical.toNat / 32)).waiting ++ [⟨logical.toNat % 32, none, 0, channelUnits⟩]
      ∧ OtherPages s (s.takeMgtSubstGo .mgt kind logical) [pgMgt] := by
  rw [← s.m.substAnswer_requested kind logical] at h
  rw [State.takeMgtSubstGo_mgt, State.onM, hkind, Module.substGo_of_channel h]
  refine ⟨s.m.requested_result kind logical, rfl, ?_,
    otherPages_of_keeps ((s.m.keeps_requested kind logical).of_reg rfl) rfl rfl⟩
  rw [Module.st, Module.setSt, Store.get_set_same]
  rfl

theorem State.takeMgtSubstGo_drive (hkind : kind.toNat = 9) (h : s.m.substAnswer 9 logical.toNat = .done)
    (hretiring : (s.m.pt logical.toNat).retiring = none) :
    (s.takeMgtSubstGo .mgt kind logical).m.irqBit pgStr 10 = true
      ∧ (s.takeMgtSubstGo .mgt kind logical).m.irqBit (pgNvp logical.toNat) 13 = true := by
  rw [← s.m.substAnswer_requested kind logical] at h
  have hstays : ((s.m.requested kind logical).pt logical.toNat).retiring = none := hretiring
  rw [State.takeMgtSubstGo_mgt, State.onM, hkind]
  exact Module.irqBits_substGo_of_drive h hstays

end

end Sys2Proof.Machine
end

section
/-! The management obligation (R441–R447, R464), clause by clause. -/

namespace Sys2Proof.Machine

/-- Settles O48: each access does what its own lemma says, in the state that the charge leaves. -/
theorem management : Obligations.Management := by
  unfold Obligations.Management
  intro s replies ones
  refine ⟨?port, ?alert, ?go, ?answer, ?noAnswer, ?timeout, ?subst, ?substOther, ?wall, ?inject, ?safOther⟩
  case port =>
    refine fun hup => ⟨fun off v => ?_, fun off v => ⟨_, exec_mgtRegisterWrite_good hup off v, rfl⟩, fun v harrives => ?_,
      fun off late => ?_, fun late harrives => ?_, fun off late hreaches => ?_⟩
    · exact ⟨_, exec_mgtRegisterWrite_bad hup off v, Module.rd_bump_same _ _ _ _ _, Module.reporting_report _ _ _,
        keepsRest_of_keeps s.m.keeps_pecError rfl rfl⟩
    · refine completes_of_via (exec_mgtRegisterWrite_good hup _ v) harrives fun used => ?_
      rw [State.takeWrite_safWall]
      exact (s.withUsed used).takeSafWall_mgt v
    · refine ⟨_, exec_mgtRegisterRead_bad hup off late, Module.replies_mgtReply _ rfl false, ?_,
        keepsRest_of_keeps (s.m.keeps_pecError.of_reg (Module.mgtReply_reg _ _ _)) rfl rfl⟩
      rw [Module.reporting, State.onM_m, Module.mgtReply_net]
      exact Module.reporting_report _ _ _
    · obtain ⟨used, hused⟩ := State.admitted_eq_withUsed harrives
      refine ⟨_, exec_mgtRegisterRead_arrives (by decide) hup harrives rfl late, ?_⟩
      rw [hused]
      exact (s.withUsed used).takeRead_safWall_replies rfl
    · refine ⟨_, exec_mgtRegisterRead_unreached hup hreaches late, Module.replies_mgtReply _ rfl true, ?_⟩
      exact (Module.rd_mgtReply _ _ _ _ _).trans (Module.rd_wr_same _ _ _ _ _)
  case alert =>
    exact fun r bits harrives => completes_of_via rfl harrives fun used =>
      ⟨(s.withUsed used).takeMgtAlertClear_cause r bits, (s.withUsed used).takeMgtAlertClear_keeps r bits⟩
  case go =>
    refine fun r harrives hr => ⟨fun hidle => ?_, fun hbusy => ?_⟩
    · exact completes_of_via rfl harrives fun used => State.takeMgtReqGo_idle (s := s.withUsed used) hr hidle
    · exact completes_of_via rfl harrives fun used => State.takeMgtReqGo_busy (s := s.withUsed used) hr hbusy
  case answer =>
    exact fun state reason harrives hpending hlate hstate => completes_of_via rfl harrives fun used =>
      State.takeMgtResp_answers (s := s.withUsed used) reason hpending hlate hstate
  case noAnswer =>
    refine fun r state reason h harrives => completes_of_via rfl harrives fun used => ?_
    rw [State.takeMgtResp_ignored (s := s.withUsed used) h]
    exact ⟨rfl, rfl⟩
  case timeout =>
    intro hpending hdue
    refine ⟨_, exec_mailboxTimeout_late (Module.mailboxLate_iff.mpr ⟨hpending, hdue⟩), ?_, Module.irqBit_raise_same _ _ _,
      keepsRest_of_keeps (((Module.Keeps.refl _).wr _ List.mem_cons_self).raise _ _) rfl rfl⟩
    exact (Module.rd_raise _ _ _ _ _ _).trans (Module.rd_wr_same _ _ _ _ _)
  case subst =>
    refine fun kind logical harrives => ⟨fun h => ?_, fun h => ?_, fun isl unit h => ?_, fun hkind h => ?_,
      fun hkind h hretiring => ?_⟩ <;> refine completes_of_via rfl harrives fun used => ?_
    · exact State.takeMgtSubstGo_refused (s := s.withUsed used) h
    · exact State.takeMgtSubstGo_noSpare (s := s.withUsed used) h
    · exact State.takeMgtSubstGo_order (s := s.withUsed used) h
    · exact State.takeMgtSubstGo_channel (s := s.withUsed used) hkind h
    · obtain ⟨hstr, hnvp⟩ := State.takeMgtSubstGo_drive (s := s.withUsed used) hkind h hretiring
      exact ⟨hstr, hnvp, rfl⟩
  case substOther =>
    refine fun r kind logical hr harrives => completes_of_via rfl harrives fun used => ?_
    rw [State.takeMgtSubstGo_other hr]
    exact ⟨rfl, rfl, rfl⟩
  case wall => exact fun v harrives => completes_of_via rfl harrives fun used => (s.withUsed used).takeSafWall_mgt v
  case inject =>
    exact fun n harrives hn hinstance hmode => completes_of_via rfl harrives fun used =>
      State.takeSafInjCount_arms (s := s.withUsed used) hn hinstance hmode
  case safOther =>
    refine fun r hr harrives v n => ⟨completes_of_via rfl harrives fun used => ?_, completes_of_via rfl harrives fun used => ?_⟩
    · rw [State.takeSafWall_other hr]
      exact ⟨rfl, rfl⟩
    · rw [State.takeSafInjCount_other hr]
      exact ⟨rfl, rfl, rfl⟩

end Sys2Proof.Machine
end
